-- ==== Sys2Proof/Word.lean ====
section
/-! DEFINITION. The word types of the machine: 64-bit scalar words, bytes, and vector registers of
4,096 bits (spec/00_scope.md R7, spec/01_engines.md R14). -/
namespace Sys2Proof

/-- A scalar register, an address while it is computed, a control register (R99). -/
abbrev Word := BitVec 64
/-- One byte of memory (R7). -/
abbrev Byte := BitVec 8
/-- A vector register: a den of 4,096 bits (R287). -/
abbrev VReg := BitVec 4096
/-- A scalar or vector register number (R69). -/
abbrev Reg := BitVec 5
/-- A tile name t0 to t15 (R156). -/
abbrev TName := BitVec 4
/-- An accumulator name ac0 to ac3 (R92). -/
abbrev Acc := BitVec 2

end Sys2Proof
end

