-- ==== Sys2Proof/Syntax.lean ====
section
/-! DEFINITION. The instructions: one constructor per row of spec/opcode_table.json. The first 265 have an encoding
(spec/03_formats_opcode_map.md); the others are the steps of the part that no word encodes
(spec/95_what_each_step_holds.md), with what the step acts on as operands. -/
namespace Sys2Proof

/-- Element types: the type codes of R72, in code order. -/
inductive Ty where
  | none | i8 | i16 | i32 | i64 | n8 | n16 | n32 | n64 | f16 | bf16 | f32 | f64 | f8e4 | f8e5 | lg6
  deriving DecidableEq, Repr
/-- Scalar floating formats, fmt codes 0 to 3 (R77). -/
inductive FFmt where | f16 | bf16 | f32 | f64
  deriving DecidableEq, Repr
/-- Rounding field of a scalar floating instruction (R77): a fixed mode, or the mode in ctl.fcsr.frm. -/
inductive Rm where | rne | rtz | rdn | rup | rmm | dyn
  deriving DecidableEq, Repr
/-- Load sizes 0 to 6 (R78). -/
inductive LdSize where | i8 | i16 | i32 | i64 | n8 | n16 | n32
  deriving DecidableEq, Repr
/-- Store sizes 0 to 3 (R78). -/
inductive StSize where | b8 | b16 | b32 | b64
  deriving DecidableEq, Repr
/-- Atomic operations 0 to 8 (R79). -/
inductive AmoOp where | swap | add | and | or | xor | min | max | minn | maxn
  deriving DecidableEq, Repr
/-- Order codes (R79, R90). -/
inductive Order where | none | acq | rel | ar
  deriving DecidableEq, Repr
/-- 32-bit and 64-bit widths (R79, R90). -/
inductive AWidth where | w32 | w64
  deriving DecidableEq, Repr
/-- Ordering scopes (R79, R211). -/
inductive Scope where | blk | core | clu | die | dev | sys
  deriving DecidableEq, Repr
/-- FENCE kinds (R80). -/
inductive FenceKind where | acq | rel | ar
  deriving DecidableEq, Repr
/-- Operand kinds of the V form (R85). -/
inductive VKind where | vv | vx | vi | vf
  deriving DecidableEq, Repr
/-- VCMP conditions, funct6 0x28 to 0x31 (R86). -/
inductive VCond where | eq | ne | lt | le | gt | ge | ltn | len | gtn | gen
  deriving DecidableEq, Repr
/-- VFCMP conditions, funct6 0x18 to 0x1D (R87). -/
inductive FCond where | eq | ne | lt | le | gt | ge
  deriving DecidableEq, Repr
/-- VSCAN operations (R88). -/
inductive ScanOp where | add | fadd | max | min
  deriving DecidableEq, Repr
/-- Element widths of vector memory accesses (R89). -/
inductive Eew where | e8 | e16 | e32 | e64
  deriving DecidableEq, Repr
/-- Memory-side hints (R89, R242). -/
inductive Hint where | normal | noalloc | bypass
  deriving DecidableEq, Repr
/-- VWAIT conditions (R90). -/
inductive WCond where | eq | ne | gen
  deriving DecidableEq, Repr
/-- VRRS operations (R90). -/
inductive RrsOp where | add | fadd | min | max | fmin | fmax
  deriving DecidableEq, Repr
/-- LBR conditions (R91). -/
inductive LCond where | eq | ne | lt | ge | ltn | gen
  deriving DecidableEq, Repr
/-- TCOLL operations (R265): 0 to 4, and the firmware's 8 to 15. -/
inductive CollOp where | sum | min | max | bcast | gather | fw (j : BitVec 3)
  deriving DecidableEq, Repr

/-- A launch queue (R131). -/
abbrev QId := BitVec 6
/-- A cluster of the device: die E 0 to 15, die W 16 to 31 (R14). -/
abbrev ClusterId := BitVec 5
/-- A core of the device: ctl.coreid[7:0] (R31). -/
abbrev CoreId := BitVec 8
/-- A block slot of the device: core index times 4 plus slot (R14). -/
abbrev SlotId := BitVec 10
/-- A base die: die times 5 plus stack (R461). -/
abbrev BaseId := BitVec 4
/-- A slice: die times 80 plus column times 5 plus slice (R14). -/
abbrev SliceId := BitVec 8
/-- A Ferry crossing (R464). -/
abbrev XingId := BitVec 6
/-- A unit code (R495). -/
abbrev UnitCode := BitVec 32
/-- A Ferry flit of 256 bytes (R475). -/
abbrev Flit := BitVec 2048

/-- What an aging step raises (R43): the unsent blocks of a launch, or a block pending on a Steward. -/
inductive AgeTarget where
  | unsent (q : QId) (number : BitVec 32)
  | pending (k : ClusterId) (q : QId) (number : BitVec 32) (wid : Word)
  deriving DecidableEq, Repr
/-- The engines an Innkeeper issues to (R174). -/
inductive Engine where | lane | matrix | copy | exchange
  deriving DecidableEq, Repr
/-- A failed write recorded against a block (R173). -/
structure FailedWrite where
  iva : Word
  tile : Option (TName × BitVec 16 × BitVec 16)
  elem : Option (BitVec 32)
  va : Word
  /-- Cause code of what kept the write from being performed: DECODE, unless it says otherwise (R173, R336, R425). -/
  cause : BitVec 8 := 0x13
  deriving DecidableEq, Repr
/-- The operation of a fabric request to one granule (file 16, The split fabric). -/
inductive ReqOp where
  | read (n : Nat)
  | write (bytes : List Byte)
  | amo (op : AmoOp) (width : AWidth) (operand : Word)
  /-- CAS or CAS2 (R209, R210) on n bytes: the value expected and the new one. -/
  | cas (n expected new : Nat)
  | reduce (op : RrsOp) (width : AWidth) (operand : Word)
  | discard
  deriving DecidableEq, Repr
/-- A fabric request: source, sequence number, the source's oldest unanswered number, operation (R403, R404). -/
structure Request where
  src : Nat
  seq : BitVec 16
  oldest : BitVec 16
  hint : Hint
  pa : Nat
  op : ReqOp
  /-- Its header or a data beat fails its CRC on the mesh and is dropped there (R422). -/
  lost : Bool := false
  deriving DecidableEq, Repr
/-- Who holds a watch (R414). -/
inductive Watcher where
  | slot (sl : SlotId) | queue (q : QId) | coll (k : ClusterId) (cmd : Nat)
  deriving DecidableEq, Repr
/-- An access through a core's window port by some agent: a read of n bytes, or a write (R29). -/
structure WinAccess where
  core : CoreId
  off : Nat
  n : Nat
  data : Option (List Byte)
  writer : Option SlotId
  deriving DecidableEq, Repr
/-- A host request through CXL.mem, at a host physical address, or through BAR0 or BAR2, at an offset (R412, R481, R482). -/
structure HostReq where
  addr : Nat
  n : Nat
  data : Option (List Byte)
  cacheable : Bool
  atomicTlp : Bool
  bar2 : Bool := false
  deriving DecidableEq, Repr
/-- A request of a slice to its base die (R450). -/
structure BaseReq where
  tag : Nat
  pa : Nat
  mask : BitVec 32
  data : BitVec 256
  ctr : BitVec 16
  host : Bool
  deriving DecidableEq, Repr
/-- A remote chunk request (R282): reading slot, owning core of the cluster, chunk, multicast group. -/
structure RemoteReq where
  reader : SlotId
  instr : Nat
  owner : BitVec 3
  chunk : Nat
  group : BitVec 4
  deriving DecidableEq, Repr
/-- An instruction line to fill: set VA[13:6] and physical address of the line (R224). -/
structure LineFill where
  set : BitVec 8
  pa : Nat
  deriving DecidableEq, Repr
/-- Who asks for a walk (R445). -/
inductive WalkSrc where
  | core (c : CoreId) | porter (k : ClusterId) | steward (k : ClusterId) | dispatcher
  deriving DecidableEq, Repr
/-- What a translation is for (R205, R225, R227). -/
inductive Access where | fetch | load | store | ipref | dpref
  deriving DecidableEq, Repr
/-- A walk request (R443). -/
structure WalkReq where
  src : WalkSrc
  ctx : BitVec 16
  va : Word
  acc : Access
  deriving DecidableEq, Repr
/-- The three driver queues (R487). -/
inductive DriverQ where | fault | replay | inval
  deriving DecidableEq, Repr
/-- A host line that a port is given (R413): owned or shared, and its bytes where the host's own writes have changed them. -/
structure LineGrant where
  own : Bool
  data : Option (BitVec 512)
  deriving DecidableEq, Repr
/-- What the boot ROM finds of the firmware bundle (R504): the keys that its two signatures verify against, its version. -/
structure Bundle where
  ed25519 : Nat
  mldsa : Nat
  version : BitVec 32
  deriving DecidableEq, Repr
/-- Datapath primitives of a Porter for TCOLL ops 8 to 15 (R269). -/
inductive Primitive where
  | slotWrite | arrivalAdd (round : Nat) | combineRead (op : CollOp) | signal
  deriving DecidableEq, Repr

/-- One constructor per row of spec/opcode_table.json. -/
inductive Instr where
  | add (rd : Reg) (rs1 : Reg) (rs2 : Reg)  -- ADD, R192
  | sub (rd : Reg) (rs1 : Reg) (rs2 : Reg)  -- SUB, R192
  | and (rd : Reg) (rs1 : Reg) (rs2 : Reg)  -- AND, R192
  | or (rd : Reg) (rs1 : Reg) (rs2 : Reg)  -- OR, R192
  | xor (rd : Reg) (rs1 : Reg) (rs2 : Reg)  -- XOR, R192
  | andn (rd : Reg) (rs1 : Reg) (rs2 : Reg)  -- ANDN, R192
  | orn (rd : Reg) (rs1 : Reg) (rs2 : Reg)  -- ORN, R192
  | sll (rd : Reg) (rs1 : Reg) (rs2 : Reg)  -- SLL, R192
  | srl (rd : Reg) (rs1 : Reg) (rs2 : Reg)  -- SRL, R192
  | sra (rd : Reg) (rs1 : Reg) (rs2 : Reg)  -- SRA, R192
  | rol (rd : Reg) (rs1 : Reg) (rs2 : Reg)  -- ROL, R192
  | ror (rd : Reg) (rs1 : Reg) (rs2 : Reg)  -- ROR, R192
  | slt (rd : Reg) (rs1 : Reg) (rs2 : Reg)  -- SLT, R192
  | sltn (rd : Reg) (rs1 : Reg) (rs2 : Reg)  -- SLTN, R192
  | min (rd : Reg) (rs1 : Reg) (rs2 : Reg)  -- MIN, R192
  | max (rd : Reg) (rs1 : Reg) (rs2 : Reg)  -- MAX, R192
  | minn (rd : Reg) (rs1 : Reg) (rs2 : Reg)  -- MINN, R192
  | maxn (rd : Reg) (rs1 : Reg) (rs2 : Reg)  -- MAXN, R192
  | czeq (rd : Reg) (rs1 : Reg) (rs2 : Reg)  -- CZEQ, R192
  | czne (rd : Reg) (rs1 : Reg) (rs2 : Reg)  -- CZNE, R192
  | clz (rd : Reg) (rs1 : Reg)  -- CLZ, R192
  | ctz (rd : Reg) (rs1 : Reg)  -- CTZ, R192
  | popc (rd : Reg) (rs1 : Reg)  -- POPC, R192
  | bswap (rd : Reg) (rs1 : Reg)  -- BSWAP, R192
  | sextb (rd : Reg) (rs1 : Reg)  -- SEXTB, R192
  | sexth (rd : Reg) (rs1 : Reg)  -- SEXTH, R192
  | sextw (rd : Reg) (rs1 : Reg)  -- SEXTW, R192
  | zextw (rd : Reg) (rs1 : Reg)  -- ZEXTW, R192
  | addw (rd : Reg) (rs1 : Reg) (rs2 : Reg)  -- ADDW, R192
  | subw (rd : Reg) (rs1 : Reg) (rs2 : Reg)  -- SUBW, R192
  | sllw (rd : Reg) (rs1 : Reg) (rs2 : Reg)  -- SLLW, R192
  | srlw (rd : Reg) (rs1 : Reg) (rs2 : Reg)  -- SRLW, R192
  | sraw (rd : Reg) (rs1 : Reg) (rs2 : Reg)  -- SRAW, R192
  | addi (rd : Reg) (rs1 : Reg) (imm : BitVec 16)  -- ADDI, R193
  | andi (rd : Reg) (rs1 : Reg) (imm : BitVec 16)  -- ANDI, R193
  | ori (rd : Reg) (rs1 : Reg) (imm : BitVec 16)  -- ORI, R193
  | xori (rd : Reg) (rs1 : Reg) (imm : BitVec 16)  -- XORI, R193
  | slli (rd : Reg) (rs1 : Reg) (sh : BitVec 6)  -- SLLI, R194
  | srli (rd : Reg) (rs1 : Reg) (sh : BitVec 6)  -- SRLI, R194
  | srai (rd : Reg) (rs1 : Reg) (sh : BitVec 6)  -- SRAI, R194
  | addwi (rd : Reg) (rs1 : Reg) (imm : BitVec 12)  -- ADDWI, R194
  | slti (rd : Reg) (rs1 : Reg) (imm : BitVec 15)  -- SLTI, R193
  | sltni (rd : Reg) (rs1 : Reg) (imm : BitVec 15)  -- SLTNI, R193
  | lui (rd : Reg) (imm : BitVec 21)  -- LUI, R195
  | auipc (rd : Reg) (imm : BitVec 21)  -- AUIPC, R195
  | fadd (fmt : FFmt) (rm : Rm) (rd : Reg) (rs1 : Reg) (rs2 : Reg)  -- FADD, R199
  | fsub (fmt : FFmt) (rm : Rm) (rd : Reg) (rs1 : Reg) (rs2 : Reg)  -- FSUB, R199
  | fmul (fmt : FFmt) (rm : Rm) (rd : Reg) (rs1 : Reg) (rs2 : Reg)  -- FMUL, R199
  | fdiv (fmt : FFmt) (rm : Rm) (rd : Reg) (rs1 : Reg) (rs2 : Reg)  -- FDIV, R199
  | fsqrt (fmt : FFmt) (rm : Rm) (rd : Reg) (rs1 : Reg)  -- FSQRT, R199
  | fma (fmt : FFmt) (rm : Rm) (rd : Reg) (rs1 : Reg) (rs2 : Reg)  -- FMA, R199
  | fms (fmt : FFmt) (rm : Rm) (rd : Reg) (rs1 : Reg) (rs2 : Reg)  -- FMS, R199
  | fnma (fmt : FFmt) (rm : Rm) (rd : Reg) (rs1 : Reg) (rs2 : Reg)  -- FNMA, R199
  | fnms (fmt : FFmt) (rm : Rm) (rd : Reg) (rs1 : Reg) (rs2 : Reg)  -- FNMS, R199
  | fmin (fmt : FFmt) (rd : Reg) (rs1 : Reg) (rs2 : Reg)  -- FMIN, R200
  | fmax (fmt : FFmt) (rd : Reg) (rs1 : Reg) (rs2 : Reg)  -- FMAX, R200
  | feq (fmt : FFmt) (rd : Reg) (rs1 : Reg) (rs2 : Reg)  -- FEQ, R200
  | flt (fmt : FFmt) (rd : Reg) (rs1 : Reg) (rs2 : Reg)  -- FLT, R200
  | fle (fmt : FFmt) (rd : Reg) (rs1 : Reg) (rs2 : Reg)  -- FLE, R200
  | fclass (fmt : FFmt) (rd : Reg) (rs1 : Reg)  -- FCLASS, R200
  | fsgnj (fmt : FFmt) (rd : Reg) (rs1 : Reg) (rs2 : Reg)  -- FSGNJ, R200
  | fsgnjn (fmt : FFmt) (rd : Reg) (rs1 : Reg) (rs2 : Reg)  -- FSGNJN, R200
  | fsgnjx (fmt : FFmt) (rd : Reg) (rs1 : Reg) (rs2 : Reg)  -- FSGNJX, R200
  | fcvtToFloat (fmt : FFmt) (rm : Rm) (src : Ty) (rd : Reg) (rs1 : Reg)  -- FCVT_TO_FLOAT, R201
  | fcvtToInt (fmt : FFmt) (rm : Rm) (dst : Ty) (rd : Reg) (rs1 : Reg)  -- FCVT_TO_INT, R201
  | mul (rd : Reg) (rs1 : Reg) (rs2 : Reg)  -- MUL, R196
  | mulh (rd : Reg) (rs1 : Reg) (rs2 : Reg)  -- MULH, R196
  | mulhn (rd : Reg) (rs1 : Reg) (rs2 : Reg)  -- MULHN, R196
  | mulhsn (rd : Reg) (rs1 : Reg) (rs2 : Reg)  -- MULHSN, R196
  | mulw (rd : Reg) (rs1 : Reg) (rs2 : Reg)  -- MULW, R196
  | div (rd : Reg) (rs1 : Reg) (rs2 : Reg)  -- DIV, R196
  | divn (rd : Reg) (rs1 : Reg) (rs2 : Reg)  -- DIVN, R196
  | rem (rd : Reg) (rs1 : Reg) (rs2 : Reg)  -- REM, R196
  | remn (rd : Reg) (rs1 : Reg) (rs2 : Reg)  -- REMN, R196
  | divw (rd : Reg) (rs1 : Reg) (rs2 : Reg)  -- DIVW, R196
  | ld (size : LdSize) (rd : Reg) (rs1 : Reg) (imm : BitVec 13)  -- LD, R203
  | st (size : StSize) (rs2 : Reg) (rs1 : Reg) (imm : BitVec 13)  -- ST, R203
  | amo (op : AmoOp) (order : Order) (width : AWidth) (scope : Scope) (rd : Reg) (rs1 : Reg) (rs2 : Reg)  -- AMO, R209
  | cas (order : Order) (width : AWidth) (scope : Scope) (rd : Reg) (rs1 : Reg) (rs2 : Reg)  -- CAS, R209
  | cas2 (order : Order) (scope : Scope) (rd : Reg) (rs1 : Reg) (rs2 : Reg)  -- CAS2, R210
  | ldaq (width : AWidth) (scope : Scope) (rd : Reg) (rs1 : Reg)  -- LDAQ, R209
  | strl (width : AWidth) (scope : Scope) (rs1 : Reg) (rs2 : Reg)  -- STRL, R209
  | fence (kind : FenceKind) (scope : Scope)  -- FENCE, R213
  | fenceSv  -- FENCE_SV, R214
  | fenceVs  -- FENCE_VS, R214
  | fenceI  -- FENCE_I, R215
  | ipref (rs1 : Reg) (imm : BitVec 12)  -- IPREF, R216
  | dpref (rs1 : Reg) (imm : BitVec 12)  -- DPREF, R216
  | beq (rs1 : Reg) (rs2 : Reg) (off : BitVec 13)  -- BEQ, R217
  | bne (rs1 : Reg) (rs2 : Reg) (off : BitVec 13)  -- BNE, R217
  | blt (rs1 : Reg) (rs2 : Reg) (off : BitVec 13)  -- BLT, R217
  | bge (rs1 : Reg) (rs2 : Reg) (off : BitVec 13)  -- BGE, R217
  | bltn (rs1 : Reg) (rs2 : Reg) (off : BitVec 13)  -- BLTN, R217
  | bgen (rs1 : Reg) (rs2 : Reg) (off : BitVec 13)  -- BGEN, R217
  | jal (rd : Reg) (imm : BitVec 21)  -- JAL, R218
  | jalr (rd : Reg) (rs1 : Reg) (imm : BitVec 16)  -- JALR, R218
  | jtW (xi : Reg) (xn : Reg) (size : BitVec 13)  -- JT_W, R219
  | jtD (xi : Reg) (xn : Reg) (size : BitVec 13)  -- JT_D, R219
  | bstrip (rs1 : Reg) (rs2 : Reg) (off : BitVec 13)  -- BSTRIP, R220
  | ecall  -- ECALL, R221
  | ebreak  -- EBREAK, R221
  | trapret  -- TRAPRET, R235
  | yield  -- YIELD, R221
  | widf (rd : Reg) (rs1 : Reg) (level : BitVec 5)  -- WIDF, R221
  | ctlr (rd : Reg) (addr : BitVec 12)  -- CTLR, R222
  | ctlw (rd : Reg) (rs1 : Reg) (addr : BitVec 12)  -- CTLW, R222
  | ctls (rd : Reg) (rs1 : Reg) (addr : BitVec 12)  -- CTLS, R222
  | ctlc (rd : Reg) (rs1 : Reg) (addr : BitVec 12)  -- CTLC, R222
  | evpop (rd : Reg) (rs1 : Reg)  -- EVPOP, R148
  | evwait (rd : Reg) (rs1 : Reg)  -- EVWAIT, R148
  | slotassign (rd : Reg) (rs1 : Reg)  -- SLOTASSIGN, R149
  | slotevict (rd : Reg) (rs1 : Reg) (rs2 : Reg)  -- SLOTEVICT, R151
  | cqpush (rd : Reg) (rs1 : Reg)  -- CQPUSH, R151
  | tlbinv (rs1 : Reg) (rs2 : Reg)  -- TLBINV, R447
  | vsetvli (rd : Reg) (rs1 : Reg) (vtype : BitVec 6)  -- VSETVLI, R296
  | vsetvl (rd : Reg) (rs1 : Reg) (rs2 : Reg)  -- VSETVL, R296
  | msetmvl (rd : Reg) (rs1 : Reg)  -- MSETMVL, R297
  | vstream (vd : Reg) (rs1 : Reg) (k : BitVec 3)  -- VSTREAM, R333
  | vunstream (k : BitVec 3)  -- VUNSTREAM, R334
  | vadd (k : VKind) (vm : Bool) (vd : Reg) (s1 : Reg) (vs2 : Reg)  -- VADD, R301
  | vsub (k : VKind) (vm : Bool) (vd : Reg) (s1 : Reg) (vs2 : Reg)  -- VSUB, R301
  | vrsub (k : VKind) (vm : Bool) (vd : Reg) (s1 : Reg) (vs2 : Reg)  -- VRSUB, R301
  | vmul (k : VKind) (vm : Bool) (vd : Reg) (s1 : Reg) (vs2 : Reg)  -- VMUL, R301
  | vmulh (k : VKind) (vm : Bool) (vd : Reg) (s1 : Reg) (vs2 : Reg)  -- VMULH, R301
  | vmulhn (k : VKind) (vm : Bool) (vd : Reg) (s1 : Reg) (vs2 : Reg)  -- VMULHN, R301
  | vdiv (k : VKind) (vm : Bool) (vd : Reg) (s1 : Reg) (vs2 : Reg)  -- VDIV, R301
  | vdivn (k : VKind) (vm : Bool) (vd : Reg) (s1 : Reg) (vs2 : Reg)  -- VDIVN, R301
  | vrem (k : VKind) (vm : Bool) (vd : Reg) (s1 : Reg) (vs2 : Reg)  -- VREM, R301
  | vremn (k : VKind) (vm : Bool) (vd : Reg) (s1 : Reg) (vs2 : Reg)  -- VREMN, R301
  | vmin (k : VKind) (vm : Bool) (vd : Reg) (s1 : Reg) (vs2 : Reg)  -- VMIN, R301
  | vmax (k : VKind) (vm : Bool) (vd : Reg) (s1 : Reg) (vs2 : Reg)  -- VMAX, R301
  | vminn (k : VKind) (vm : Bool) (vd : Reg) (s1 : Reg) (vs2 : Reg)  -- VMINN, R301
  | vmaxn (k : VKind) (vm : Bool) (vd : Reg) (s1 : Reg) (vs2 : Reg)  -- VMAXN, R301
  | vand (k : VKind) (vm : Bool) (vd : Reg) (s1 : Reg) (vs2 : Reg)  -- VAND, R301
  | vor (k : VKind) (vm : Bool) (vd : Reg) (s1 : Reg) (vs2 : Reg)  -- VOR, R301
  | vxor (k : VKind) (vm : Bool) (vd : Reg) (s1 : Reg) (vs2 : Reg)  -- VXOR, R301
  | vsll (k : VKind) (vm : Bool) (vd : Reg) (s1 : Reg) (vs2 : Reg)  -- VSLL, R301
  | vsrl (k : VKind) (vm : Bool) (vd : Reg) (s1 : Reg) (vs2 : Reg)  -- VSRL, R301
  | vsra (k : VKind) (vm : Bool) (vd : Reg) (s1 : Reg) (vs2 : Reg)  -- VSRA, R301
  | vnsrl (k : VKind) (vm : Bool) (vd : Reg) (s1 : Reg) (vs2 : Reg)  -- VNSRL, R303
  | vnsra (k : VKind) (vm : Bool) (vd : Reg) (s1 : Reg) (vs2 : Reg)  -- VNSRA, R303
  | vwadd (k : VKind) (vm : Bool) (vd : Reg) (s1 : Reg) (vs2 : Reg)  -- VWADD, R301
  | vwaddn (k : VKind) (vm : Bool) (vd : Reg) (s1 : Reg) (vs2 : Reg)  -- VWADDN, R301
  | vwmul (k : VKind) (vm : Bool) (vd : Reg) (s1 : Reg) (vs2 : Reg)  -- VWMUL, R301
  | vwmuln (k : VKind) (vm : Bool) (vd : Reg) (s1 : Reg) (vs2 : Reg)  -- VWMULN, R301
  | vsadd (k : VKind) (vm : Bool) (vd : Reg) (s1 : Reg) (vs2 : Reg)  -- VSADD, R302
  | vsaddn (k : VKind) (vm : Bool) (vd : Reg) (s1 : Reg) (vs2 : Reg)  -- VSADDN, R302
  | vssub (k : VKind) (vm : Bool) (vd : Reg) (s1 : Reg) (vs2 : Reg)  -- VSSUB, R302
  | vssubn (k : VKind) (vm : Bool) (vd : Reg) (s1 : Reg) (vs2 : Reg)  -- VSSUBN, R302
  | vmacc (k : VKind) (vm : Bool) (vd : Reg) (s1 : Reg) (vs2 : Reg)  -- VMACC, R301
  | vnmsac (k : VKind) (vm : Bool) (vd : Reg) (s1 : Reg) (vs2 : Reg)  -- VNMSAC, R301
  | vmerge (k : VKind) (vd : Reg) (s1 : Reg) (vs2 : Reg)  -- VMERGE, R305
  | vmv (k : VKind) (vd : Reg) (s1 : Reg)  -- VMV, R305
  | vcmp (c : VCond) (k : VKind) (vm : Bool) (vd : Reg) (s1 : Reg) (vs2 : Reg)  -- VCMP, R304
  | vfadd (k : VKind) (alt : Bool) (vm : Bool) (vd : Reg) (s1 : Reg) (vs2 : Reg)  -- VFADD, R306
  | vfsub (k : VKind) (alt : Bool) (vm : Bool) (vd : Reg) (s1 : Reg) (vs2 : Reg)  -- VFSUB, R306
  | vfrsub (k : VKind) (alt : Bool) (vm : Bool) (vd : Reg) (s1 : Reg) (vs2 : Reg)  -- VFRSUB, R306
  | vfmul (k : VKind) (alt : Bool) (vm : Bool) (vd : Reg) (s1 : Reg) (vs2 : Reg)  -- VFMUL, R306
  | vfdiv (k : VKind) (alt : Bool) (vm : Bool) (vd : Reg) (s1 : Reg) (vs2 : Reg)  -- VFDIV, R306
  | vfrdiv (k : VKind) (alt : Bool) (vm : Bool) (vd : Reg) (s1 : Reg) (vs2 : Reg)  -- VFRDIV, R306
  | vfsqrt (alt : Bool) (vm : Bool) (vd : Reg) (vs2 : Reg)  -- VFSQRT, R306
  | vfrece (alt : Bool) (vm : Bool) (vd : Reg) (vs2 : Reg)  -- VFRECE, R307
  | vfrsqe (alt : Bool) (vm : Bool) (vd : Reg) (vs2 : Reg)  -- VFRSQE, R307
  | vfexp2 (alt : Bool) (vm : Bool) (vd : Reg) (vs2 : Reg)  -- VFEXP2, R306
  | vflog2 (alt : Bool) (vm : Bool) (vd : Reg) (vs2 : Reg)  -- VFLOG2, R306
  | vfmacc (k : VKind) (alt : Bool) (vm : Bool) (vd : Reg) (s1 : Reg) (vs2 : Reg)  -- VFMACC, R306
  | vfnmacc (k : VKind) (alt : Bool) (vm : Bool) (vd : Reg) (s1 : Reg) (vs2 : Reg)  -- VFNMACC, R306
  | vfmsac (k : VKind) (alt : Bool) (vm : Bool) (vd : Reg) (s1 : Reg) (vs2 : Reg)  -- VFMSAC, R306
  | vfnmsac (k : VKind) (alt : Bool) (vm : Bool) (vd : Reg) (s1 : Reg) (vs2 : Reg)  -- VFNMSAC, R306
  | vfmin (k : VKind) (alt : Bool) (vm : Bool) (vd : Reg) (s1 : Reg) (vs2 : Reg)  -- VFMIN, R306
  | vfmax (k : VKind) (alt : Bool) (vm : Bool) (vd : Reg) (s1 : Reg) (vs2 : Reg)  -- VFMAX, R306
  | vfsgnj (k : VKind) (alt : Bool) (vm : Bool) (vd : Reg) (s1 : Reg) (vs2 : Reg)  -- VFSGNJ, R306
  | vfclass (alt : Bool) (vm : Bool) (vd : Reg) (vs2 : Reg)  -- VFCLASS, R306
  | vfcvt (code : BitVec 3) (salt : Bool) (dalt : Bool) (vm : Bool) (vd : Reg) (vs2 : Reg)  -- VFCVT, R308
  | vfsgnjN (k : VKind) (alt : Bool) (vm : Bool) (vd : Reg) (s1 : Reg) (vs2 : Reg)  -- VFSGNJ_N, R306
  | vfsgnjX (k : VKind) (alt : Bool) (vm : Bool) (vd : Reg) (s1 : Reg) (vs2 : Reg)  -- VFSGNJ_X, R306
  | vfcmp (c : FCond) (k : VKind) (alt : Bool) (vm : Bool) (vd : Reg) (s1 : Reg) (vs2 : Reg)  -- VFCMP, R306
  | vlmul (vm : Bool) (vd : Reg) (vs1 : Reg) (vs2 : Reg)  -- VLMUL, R310
  | vldot (vm : Bool) (vd : Reg) (vs1 : Reg) (vs2 : Reg)  -- VLDOT, R311
  | vlcvt (fromLg : Bool) (alt : Bool) (vm : Bool) (vd : Reg) (vs2 : Reg)  -- VLCVT, R312
  | vlscale (k : VKind) (vm : Bool) (vd : Reg) (s1 : Reg) (vs2 : Reg)  -- VLSCALE, R310
  | vredsum (vm : Bool) (vd : Reg) (vs1 : Reg) (vs2 : Reg)  -- VREDSUM, R313
  | vredmin (vm : Bool) (vd : Reg) (vs1 : Reg) (vs2 : Reg)  -- VREDMIN, R313
  | vredmax (vm : Bool) (vd : Reg) (vs1 : Reg) (vs2 : Reg)  -- VREDMAX, R313
  | vredminn (vm : Bool) (vd : Reg) (vs1 : Reg) (vs2 : Reg)  -- VREDMINN, R313
  | vredmaxn (vm : Bool) (vd : Reg) (vs1 : Reg) (vs2 : Reg)  -- VREDMAXN, R313
  | vredand (vm : Bool) (vd : Reg) (vs1 : Reg) (vs2 : Reg)  -- VREDAND, R313
  | vredor (vm : Bool) (vd : Reg) (vs1 : Reg) (vs2 : Reg)  -- VREDOR, R313
  | vredxor (vm : Bool) (vd : Reg) (vs1 : Reg) (vs2 : Reg)  -- VREDXOR, R313
  | vfredsum (alt : Bool) (vm : Bool) (vd : Reg) (vs1 : Reg) (vs2 : Reg)  -- VFREDSUM, R129
  | vfredosum (alt : Bool) (vm : Bool) (vd : Reg) (vs1 : Reg) (vs2 : Reg)  -- VFREDOSUM, R128
  | vfredmin (alt : Bool) (vm : Bool) (vd : Reg) (vs1 : Reg) (vs2 : Reg)  -- VFREDMIN, R130
  | vfredmax (alt : Bool) (vm : Bool) (vd : Reg) (vs1 : Reg) (vs2 : Reg)  -- VFREDMAX, R130
  | vslideup (k : VKind) (vm : Bool) (vd : Reg) (s1 : Reg) (vs2 : Reg)  -- VSLIDEUP, R314
  | vslidedn (k : VKind) (vm : Bool) (vd : Reg) (s1 : Reg) (vs2 : Reg)  -- VSLIDEDN, R314
  | vslide1up (k : VKind) (vm : Bool) (vd : Reg) (s1 : Reg) (vs2 : Reg)  -- VSLIDE1UP, R314
  | vslide1dn (k : VKind) (vm : Bool) (vd : Reg) (s1 : Reg) (vs2 : Reg)  -- VSLIDE1DN, R314
  | vgather (k : VKind) (vm : Bool) (vd : Reg) (s1 : Reg) (vs2 : Reg)  -- VGATHER, R314
  | vcompress (vd : Reg) (vs1 : Reg) (vs2 : Reg)  -- VCOMPRESS, R314
  | vrotl (k : VKind) (vm : Bool) (vd : Reg) (s1 : Reg) (vs2 : Reg)  -- VROTL, R314
  | vmvxs (vm : Bool) (rd : Reg) (vs2 : Reg)  -- VMVXS, R315
  | vmvsx (vm : Bool) (vd : Reg) (rs1 : Reg)  -- VMVSX, R315
  | vxq (vm : Bool) (vd : Reg) (vs2 : Reg)  -- VXQ, R319
  | vxqw (vm : Bool) (vs1 : Reg) (vs2 : Reg)  -- VXQW, R318
  | vscan (op : ScanOp) (vm : Bool) (vd : Reg) (vs1 : Reg) (vs2 : Reg)  -- VSCAN, R320
  | vmand (vd : Reg) (vs1 : Reg) (vs2 : Reg)  -- VMAND, R316
  | vmor (vd : Reg) (vs1 : Reg) (vs2 : Reg)  -- VMOR, R316
  | vmxor (vd : Reg) (vs1 : Reg) (vs2 : Reg)  -- VMXOR, R316
  | vmandn (vd : Reg) (vs1 : Reg) (vs2 : Reg)  -- VMANDN, R316
  | vmnand (vd : Reg) (vs1 : Reg) (vs2 : Reg)  -- VMNAND, R316
  | vmpop (vm : Bool) (rd : Reg) (vs2 : Reg)  -- VMPOP, R316
  | vmfirst (vm : Bool) (rd : Reg) (vs2 : Reg)  -- VMFIRST, R316
  | viota (vm : Bool) (vd : Reg) (vs2 : Reg)  -- VIOTA, R316
  | vid (vm : Bool) (vd : Reg)  -- VID, R316
  | vle (eew : Eew) (hint : Hint) (vm : Bool) (vd : Reg) (rs1 : Reg)  -- VLE, R323
  | vlse (eew : Eew) (hint : Hint) (vm : Bool) (vd : Reg) (rs1 : Reg) (rs2 : Reg)  -- VLSE, R323
  | vlxe (eew : Eew) (hint : Hint) (vm : Bool) (vd : Reg) (rs1 : Reg) (vs2 : Reg)  -- VLXE, R323
  | vleff (eew : Eew) (hint : Hint) (vm : Bool) (vd : Reg) (rs1 : Reg)  -- VLEFF, R326
  | vlsc (eew : Eew) (hint : Hint) (vm : Bool) (vd : Reg) (rs1 : Reg) (rs2 : Reg)  -- VLSC, R327
  | vse (eew : Eew) (hint : Hint) (vm : Bool) (vs3 : Reg) (rs1 : Reg)  -- VSE, R323
  | vsse (eew : Eew) (hint : Hint) (vm : Bool) (vs3 : Reg) (rs1 : Reg) (rs2 : Reg)  -- VSSE, R323
  | vsxe (eew : Eew) (hint : Hint) (vm : Bool) (vs3 : Reg) (rs1 : Reg) (vs2 : Reg)  -- VSXE, R323
  | vssc (eew : Eew) (hint : Hint) (vm : Bool) (vs3 : Reg) (rs1 : Reg) (rs2 : Reg)  -- VSSC, R327
  | vamo (op : AmoOp) (order : Order) (width : AWidth) (vm : Bool) (vd : Reg) (rs1 : Reg) (vs2 : Reg)  -- VAMO, R329
  | vwait (c : WCond) (order : Order) (width : AWidth) (vm : Bool) (vd : Reg) (rs1 : Reg) (vs2 : Reg)  -- VWAIT, R330
  | vrrs (op : RrsOp) (order : Order) (width : AWidth) (vm : Bool) (vd : Reg) (rs1 : Reg) (vs2 : Reg)  -- VRRS, R329
  | lbr (c : LCond) (ra : Reg) (rb : Reg) (off : BitVec 13)  -- LBR, R341
  | vsplit (va : Reg) (off : BitVec 13)  -- VSPLIT, R339
  | vjoin  -- VJOIN, R341
  | mzero (ac : Acc)  -- MZERO, R382
  | mhold (ty : Ty) (vm : Bool) (vs1 : Reg) (vs2 : Reg)  -- MHOLD, R385
  | mop (ty : Ty) (vm : Bool) (ac : Acc) (vs1 : Reg) (vs2 : Reg)  -- MOP, R383
  | mops (ty : Ty) (vm : Bool) (ac : Acc) (vs1 : Reg) (vs2 : Reg)  -- MOPS, R384
  | mhmul (ty : Ty) (vm : Bool) (ac : Acc) (vs1 : Reg)  -- MHMUL, R385
  | mrd (vm : Bool) (ac : Acc) (vd : Reg) (rs1 : Reg)  -- MRD, R386
  | mwr (vm : Bool) (ac : Acc) (vd : Reg) (rs1 : Reg)  -- MWR, R386
  | tdef (tn : TName) (ra : Reg)  -- TDEF, R177
  | tshape (ra : Reg)  -- TSHAPE, R178
  | tfree (tn : TName)  -- TFREE, R179
  | twait (tn : TName) (ra : Reg) (g : BitVec 2)  -- TWAIT, R180
  | tchk (tn : TName) (ra : Reg) (g : BitVec 2)  -- TCHK, R181
  | tacq (tn : TName) (va : Reg)  -- TACQ, R182
  | tsignal (ra : Reg) (rb : Reg)  -- TSIGNAL, R183
  | tsignalAdd (ra : Reg) (rb : Reg)  -- TSIGNAL_ADD, R183
  | tbar (ra : Reg) (b : BitVec 4)  -- TBAR, R184
  | tend  -- TEND, R185
  | tlaunch (ra : Reg) (rb : Reg)  -- TLAUNCH, R186
  | tld (hint : Hint) (ev : Bool) (ty : Ty) (td : TName) (ra : Reg) (rb : Reg)  -- TLD, R244
  | tldPb (hint : Hint) (ev : Bool) (td : TName) (ra : Reg) (gen : BitVec 16)  -- TLD_PB, R250
  | tst (hint : Hint) (ev : Bool) (ty : Ty) (ta : TName) (ra : Reg) (rb : Reg)  -- TST, R244
  | tstPb (hint : Hint) (ev : Bool) (ta : TName) (ra : Reg) (gen : BitVec 16)  -- TST_PB, R250
  | tcpy (ev : Bool) (td : TName) (ta : TName)  -- TCPY, R253
  | tcpyPb (hint : Hint) (ev : Bool) (ra : Reg) (gen : BitVec 16)  -- TCPY_PB, R253
  | tzero (ev : Bool) (td : TName)  -- TZERO, R254
  | tcoll (hint : Hint) (ev : Bool) (op : CollOp) (td : TName) (ta : TName) (ra : Reg) (rb : Reg)  -- TCOLL, R264
  | tmma (z : Bool) (out : Bool) (ac : Acc) (td : TName) (ta : TName) (tb : TName)  -- TMMA, R390
  | tmmas (z : Bool) (out : Bool) (ac : Acc) (td : TName) (ta : TName) (tb : TName)  -- TMMAS, R391
  | tmmv (z : Bool) (out : Bool) (ac : Acc) (td : TName) (ta : TName) (tb : TName)  -- TMMV, R391
  | tmap (len : BitVec 8) (two : Bool) (td : TName) (ta : TName) (tb : TName) (ra : Reg) (rb : Reg)  -- TMAP, R347
  | tred (len : BitVec 8) (two : Bool) (td : TName) (ta : TName) (tb : TName) (ra : Reg) (rb : Reg)  -- TRED, R347
  | tsend (ta : TName) (ra : Reg) (rb : Reg) (c : BitVec 4)  -- TSEND, R278
  | trecv (td : TName) (ra : Reg) (c : BitVec 4)  -- TRECV, R277
  | tdiscard (ra : Reg) (rb : Reg)  -- TDISCARD, R410
  | fbias (flush : Bool) (ra : Reg) (rb : Reg) (tag : BitVec 16)  -- FBIAS, R468
  | fstat (ra : Reg) (sel : BitVec 2)  -- FSTAT, R470
  | launchQueueEnable (q : QId)  -- LAUNCH_QUEUE_ENABLE, R131
  | launchQueueDisable (q : QId)  -- LAUNCH_QUEUE_DISABLE, R131
  | tailWordNotice (q : QId)  -- TAIL_WORD_NOTICE, R133
  | launchRecordConsume (q : QId)  -- LAUNCH_RECORD_CONSUME, R134
  | launchCompletion (q : QId)  -- LAUNCH_COMPLETION, R139
  | completionHeadAdvance (q : QId) (head : Word)  -- COMPLETION_HEAD_ADVANCE, R140
  | dispatchPlace (q : QId) (number : BitVec 32) (k : ClusterId)  -- DISPATCH_PLACE, R141
  | agingTick (t : AgeTarget)  -- AGING_TICK, R43
  | preemptSend (q : QId) (number : BitVec 32)  -- PREEMPT_SEND, R511
  | eventRecordPost (k : ClusterId)  -- EVENT_RECORD_POST, R146
  | stewardPlacement (k : ClusterId)  -- STEWARD_PLACEMENT, R142
  | stewardPreempt (k : ClusterId)  -- STEWARD_PREEMPT, R152
  | parkTimeout (sl : SlotId)  -- PARK_TIMEOUT, R152
  | stewardReplay (k : ClusterId)  -- STEWARD_REPLAY, R153
  | stewardTlaunch (k : ClusterId)  -- STEWARD_TLAUNCH, R154
  | stewardFence (k : ClusterId)  -- STEWARD_FENCE, R496
  | evictionComplete (sl : SlotId)  -- EVICTION_COMPLETE, R187
  | evwaitTimeout (k : ClusterId)  -- EVWAIT_TIMEOUT, R148
  | vwaitTimeout (sl : SlotId)  -- VWAIT_TIMEOUT, R330
  | tileCommit (sl : SlotId)  -- TILE_COMMIT, R169
  | roomAllocate (sl : SlotId)  -- ROOM_ALLOCATE, R163
  | instanceRelease (sl : SlotId)  -- INSTANCE_RELEASE, R162
  | branchMispredictSquash (sl : SlotId)  -- BRANCH_MISPREDICT_SQUASH, R171
  | microOpIssue (core : CoreId) (eng : Engine)  -- MICRO_OP_ISSUE, R174
  | chunkComplete (k : ClusterId) (cmd : Nat) (chunk : Nat)  -- CHUNK_COMPLETE, R167
  | failedWriteRecord (sl : SlotId) (f : FailedWrite)  -- FAILED_WRITE_RECORD, R173
  | storeAck (slice : SliceId)  -- STORE_ACK, R207
  | loadReply (slice : SliceId)  -- LOAD_REPLY, R403
  | requestResend (slice : SliceId) (src : Nat) (seq : BitVec 16)  -- REQUEST_RESEND, R403
  | pathReport (slice : SliceId) (src : Nat) (seq : BitVec 16) (failed : Option UnitCode)  -- PATH_REPORT, R494
  | sliceRequestAdmit (slice : SliceId) (r : Request)  -- SLICE_REQUEST_ADMIT, R429
  | columnLineFill (slice : SliceId) (line : Nat)  -- COLUMN_LINE_FILL, R407
  | watchNotice  -- WATCH_NOTICE, R414
  | watchPoll (w : Watcher)  -- WATCH_POLL, R414
  | windowPortAccess (a : WinAccess)  -- WINDOW_PORT_ACCESS, R29
  | denNaming (sl : SlotId) (v : Reg)  -- DEN_NAMING, R355
  | bisnpResponse (line : Nat) (data : Option (BitVec 512))  -- BISNP_RESPONSE, R412
  | snoopTimeout (line : Nat)  -- SNOOP_TIMEOUT, R484
  | hostMemRequest (p : Bool) (r : HostReq)  -- HOST_MEM_REQUEST, R482
  | hostCacheSnoop (p : Bool) (line : Nat)  -- HOST_CACHE_SNOOP, R413
  | hostLineGrant (p : Bool) (line : Nat) (grant : LineGrant)  -- HOST_LINE_GRANT, R413
  | baseRead (b : BaseId) (r : BaseReq)  -- BASE_READ, R450
  | baseWrite (b : BaseId) (r : BaseReq)  -- BASE_WRITE, R450
  | baseDiscard (b : BaseId) (r : BaseReq)  -- BASE_DISCARD, R410
  | baseSector (b : BaseId) (tag : Nat) (stripe : Nat) (col : BitVec 4)  -- BASE_SECTOR, R458
  | baseCompletion (b : BaseId)  -- BASE_COMPLETION, R450
  | sectorDecodeDone (b : BaseId)  -- SECTOR_DECODE_DONE, R457
  | settleGo (die : Bool) (v : Word)  -- SETTLE_GO, R461
  | settleComplete (die : Bool)  -- SETTLE_COMPLETE, R461
  | acctlClear (b : BaseId)  -- ACCTL_CLEAR, R463
  | acdumpGo (b : BaseId)  -- ACDUMP_GO, R463
  | acdumpComplete (b : BaseId)  -- ACDUMP_COMPLETE, R463
  | hacctlClear (p : Bool)  -- HACCTL_CLEAR, R492
  | hacdumpGo (p : Bool)  -- HACDUMP_GO, R492
  | hacdumpComplete (p : Bool)  -- HACDUMP_COMPLETE, R492
  | fctlWrite (v : Word)  -- FCTL_WRITE, R474
  | ferryTurnStart  -- FERRY_TURN_START, R472
  | ferryDrainEnd  -- FERRY_DRAIN_END, R473
  | ferryQuietEnd  -- FERRY_QUIET_END, R473
  | ferryCheckEnd (ok : Bool)  -- FERRY_CHECK_END, R473
  | planEntryExpire  -- PLAN_ENTRY_EXPIRE, R472
  | flitReceive (c : XingId) (f : Flit)  -- FLIT_RECEIVE, R476
  | flitReplayTimeout (c : XingId)  -- FLIT_REPLAY_TIMEOUT, R476
  | laneLockLoss (c : XingId)  -- LANE_LOCK_LOSS, R477
  | drainTimeout  -- DRAIN_TIMEOUT, R477
  | retrainEnd (c : XingId) (bad : Nat)  -- RETRAIN_END, R477
  | crossroadsSlot (k : ClusterId)  -- CROSSROADS_SLOT, R273
  | remoteChunkRequest (k : ClusterId) (r : RemoteReq)  -- REMOTE_CHUNK_REQUEST, R282
  | porterCommandStart (k : ClusterId) (cmd : Nat)  -- PORTER_COMMAND_START, R269
  | copyComplete (k : ClusterId) (cmd : Nat)  -- COPY_COMPLETE, R257
  | streamRefill (sl : SlotId) (kq : BitVec 3)  -- STREAM_REFILL, R266
  | streamInboundWrite (a : WinAccess)  -- STREAM_INBOUND_WRITE, R336
  | pctlWrite (k : ClusterId) (v : Word)  -- PCTL_WRITE, R267
  | porterWatchdog (k : ClusterId)  -- PORTER_WATCHDOG, R270
  | porterFirmwareTrap (k : ClusterId)  -- PORTER_FIRMWARE_TRAP, R270
  | icacheFill (core : CoreId) (f : LineFill)  -- ICACHE_FILL, R224
  | pageWalkStart (die : Bool) (w : WalkReq)  -- PAGE_WALK_START, R443
  | pageWalkEntryRead (die : Bool) (n : Nat)  -- PAGE_WALK_ENTRY_READ, R439
  | bar0Access (p : Bool) (r : HostReq)  -- BAR0_ACCESS, R481
  | driverQueueEnable (d : DriverQ)  -- DRIVER_QUEUE_ENABLE, R488
  | faultQueueHeadAdvance (head : Word)  -- FAULT_QUEUE_HEAD_ADVANCE, R489
  | replayCommandRetry  -- REPLAY_COMMAND_RETRY, R490
  | replayCommandAbort  -- REPLAY_COMMAND_ABORT, R490
  | invalidationCommand  -- INVALIDATION_COMMAND, R491
  | invalidationDone (k : ClusterId)  -- INVALIDATION_DONE, R491
  | hostLinkRetrain (p : Bool)  -- HOST_LINK_RETRAIN, R493
  | hostLinkDown (p : Bool)  -- HOST_LINK_DOWN, R486
  | linkDownTimeout (p : Bool)  -- LINK_DOWN_TIMEOUT, R493
  | stewardServiceTimeout (k : ClusterId)  -- STEWARD_SERVICE_TIMEOUT, R493
  | unitFence (u : UnitCode) (why : BitVec 8)  -- UNIT_FENCE, R496
  | hresetWarm  -- HRESET_WARM, R503
  | functionLevelReset  -- FUNCTION_LEVEL_RESET, R503
  | warmResetComplete  -- WARM_RESET_COMPLETE, R501
  | coldReset (boot : Bundle)  -- COLD_RESET, R503
  | hretireWrite (v : Word)  -- HRETIRE_WRITE, R507
  | healthLogEnable  -- HEALTH_LOG_ENABLE, R507
  | thermalThrottle (junction : BitVec 8) (watts : BitVec 11)  -- THERMAL_THROTTLE, R506
  | thermalShutdown  -- THERMAL_SHUTDOWN, R506
  | spdmGetMeasurements  -- SPDM_GET_MEASUREMENTS, R505
  | registerWrite (off : BitVec 21) (v : Word)  -- REGISTER_WRITE, R10
  | reservedEncoding (w : BitVec 32) (w2 : BitVec 32)  -- RESERVED_ENCODING, R94
  | hostLinkUp (p : Bool) (rate : BitVec 2) (width : BitVec 2)  -- HOST_LINK_UP, R487
  | powerLoss  -- POWER_LOSS, R503
  | dispatcherOrHealthFault  -- DISPATCHER_OR_HEALTH_FAULT, R498
  | porterDatapathPrimitive (k : ClusterId) (cmd : Nat) (prim : Primitive)  -- PORTER_DATAPATH_PRIMITIVE, R269
  | thermalThrottleEnd (junction : BitVec 8) (watts : BitVec 11)  -- THERMAL_THROTTLE_END, R506
  deriving DecidableEq, Repr

end Sys2Proof
end

