-- ==== Sys2Proof/WellFormed.lean ====
section
/-! DEFINITION. Which instructions have an encoding: the conditions that the tables of
spec/03_formats_opcode_map.md put on their fields beyond the field's own type. -/
namespace Sys2Proof

/-- Kinds vv and vx (R86, R88). -/
def kVvVx (k : VKind) : Bool := k == .vv || k == .vx
/-- Kinds vx and vi (R86, R88). -/
def kVxVi (k : VKind) : Bool := k == .vx || k == .vi
/-- Kinds vv, vx and vi (R86). -/
def kVvVxVi (k : VKind) : Bool := k == .vv || k == .vx || k == .vi
/-- Kinds vv and vf (R87). -/
def kVvVf (k : VKind) : Bool := k == .vv || k == .vf
/-- Kinds vx and vf (R88). -/
def kVxVf (k : VKind) : Bool := k == .vx || k == .vf
/-- Integer types FCVT takes (R77, R201). -/
def cvtDstOk (t : Ty) : Bool := t == .i32 || t == .i64 || t == .n32 || t == .n64
/-- The element type of a scalar format. -/
def FFmt.ty : FFmt → Ty
  | .f16 => .f16
  | .bf16 => .bf16
  | .f32 => .f32
  | .f64 => .f64
/-- Floating types and lg6: codes 9 to 15 (R72). -/
def Ty.isFloat : Ty → Bool
  | .f16 | .bf16 | .f32 | .f64 | .f8e4 | .f8e5 | .lg6 => true
  | _ => false
/-- Source types of FCVT to a floating format (R77, R201). -/
def cvtSrcOk (fmt : FFmt) (t : Ty) : Bool := cvtDstOk t || (t.isFloat && t != fmt.ty)
/-- An order of none has scope code 0 (R208). -/
def orderScopeOk (o : Order) (s : Scope) : Bool := o != .none || s == .blk
/-- JT table sizes of 1 to 4,095 words (R81, R219). -/
def jtSizeOk (n : BitVec 13) : Bool := n != 0 && n.toNat < 4096
/-- A vtype without a reserved code (R84, R102). -/
def vtypeOk (v : BitVec 6) : Bool := v.toNat % 8 < 4 && v.toNat / 8 < 4
/-- Types of the matrix operands (R92). -/
def mopOk (t : Ty) : Bool := t == .f16 || t == .bf16 || t == .f32 || t == .f8e4 || t == .f8e5 || t == .lg6
/-- MHOLD: f16, bf16 and f32 weights take no scales (R379). -/
def mholdOk (t : Ty) (vs2 : Reg) : Bool := mopOk t && (vs2 == 0 || !(t == .f16 || t == .bf16 || t == .f32))
/-- TWAIT: the group is 0 when ra is 0 (R176). -/
def twaitOk (ra : Reg) (g : BitVec 2) : Bool := ra != 0 || g == 0

/-- The instruction is a word of the opcode table: its operands meet the table's conditions. -/
def Instr.wf : Instr → Bool
  | .add _ _ _ => true
  | .sub _ _ _ => true
  | .and _ _ _ => true
  | .or _ _ _ => true
  | .xor _ _ _ => true
  | .andn _ _ _ => true
  | .orn _ _ _ => true
  | .sll _ _ _ => true
  | .srl _ _ _ => true
  | .sra _ _ _ => true
  | .rol _ _ _ => true
  | .ror _ _ _ => true
  | .slt _ _ _ => true
  | .sltn _ _ _ => true
  | .min _ _ _ => true
  | .max _ _ _ => true
  | .minn _ _ _ => true
  | .maxn _ _ _ => true
  | .czeq _ _ _ => true
  | .czne _ _ _ => true
  | .clz _ _ => true
  | .ctz _ _ => true
  | .popc _ _ => true
  | .bswap _ _ => true
  | .sextb _ _ => true
  | .sexth _ _ => true
  | .sextw _ _ => true
  | .zextw _ _ => true
  | .addw _ _ _ => true
  | .subw _ _ _ => true
  | .sllw _ _ _ => true
  | .srlw _ _ _ => true
  | .sraw _ _ _ => true
  | .addi _ _ _ => true
  | .andi _ _ _ => true
  | .ori _ _ _ => true
  | .xori _ _ _ => true
  | .slli _ _ _ => true
  | .srli _ _ _ => true
  | .srai _ _ _ => true
  | .addwi _ _ _ => true
  | .slti _ _ _ => true
  | .sltni _ _ _ => true
  | .lui _ _ => true
  | .auipc _ _ => true
  | .fadd _ _ _ _ _ => true
  | .fsub _ _ _ _ _ => true
  | .fmul _ _ _ _ _ => true
  | .fdiv _ _ _ _ _ => true
  | .fsqrt _ _ _ _ => true
  | .fma _ _ _ _ _ => true
  | .fms _ _ _ _ _ => true
  | .fnma _ _ _ _ _ => true
  | .fnms _ _ _ _ _ => true
  | .fmin _ _ _ _ => true
  | .fmax _ _ _ _ => true
  | .feq _ _ _ _ => true
  | .flt _ _ _ _ => true
  | .fle _ _ _ _ => true
  | .fclass _ _ _ => true
  | .fsgnj _ _ _ _ => true
  | .fsgnjn _ _ _ _ => true
  | .fsgnjx _ _ _ _ => true
  | .fcvtToFloat fmt _ src _ _ => cvtSrcOk fmt src
  | .fcvtToInt _ _ dst _ _ => cvtDstOk dst
  | .mul _ _ _ => true
  | .mulh _ _ _ => true
  | .mulhn _ _ _ => true
  | .mulhsn _ _ _ => true
  | .mulw _ _ _ => true
  | .div _ _ _ => true
  | .divn _ _ _ => true
  | .rem _ _ _ => true
  | .remn _ _ _ => true
  | .divw _ _ _ => true
  | .ld _ _ _ _ => true
  | .st _ _ _ _ => true
  | .amo _ order _ scope _ _ _ => orderScopeOk order scope
  | .cas order _ scope _ _ _ => orderScopeOk order scope
  | .cas2 order scope _ _ _ => orderScopeOk order scope
  | .ldaq _ _ _ _ => true
  | .strl _ _ _ _ => true
  | .fence _ _ => true
  | .fenceSv => true
  | .fenceVs => true
  | .fenceI => true
  | .ipref _ _ => true
  | .dpref _ _ => true
  | .beq _ _ _ => true
  | .bne _ _ _ => true
  | .blt _ _ _ => true
  | .bge _ _ _ => true
  | .bltn _ _ _ => true
  | .bgen _ _ _ => true
  | .jal _ _ => true
  | .jalr _ _ _ => true
  | .jtW _ _ size => jtSizeOk size
  | .jtD _ _ size => jtSizeOk size && size.toNat % 2 == 0
  | .bstrip _ _ _ => true
  | .ecall => true
  | .ebreak => true
  | .trapret => true
  | .yield => true
  | .widf _ _ level => decide (level.toNat < 6)
  | .ctlr _ _ => true
  | .ctlw _ _ _ => true
  | .ctls _ _ _ => true
  | .ctlc _ _ _ => true
  | .evpop _ _ => true
  | .evwait _ _ => true
  | .slotassign _ _ => true
  | .slotevict _ _ _ => true
  | .cqpush _ _ => true
  | .tlbinv _ _ => true
  | .vsetvli _ _ vtype => vtypeOk vtype
  | .vsetvl _ _ _ => true
  | .msetmvl _ _ => true
  | .vstream _ _ _ => true
  | .vunstream _ => true
  | .vadd k _ _ _ _ => kVvVxVi k
  | .vsub k _ _ _ _ => kVvVx k
  | .vrsub k _ _ _ _ => kVxVi k
  | .vmul k _ _ _ _ => kVvVx k
  | .vmulh k _ _ _ _ => kVvVx k
  | .vmulhn k _ _ _ _ => kVvVx k
  | .vdiv k _ _ _ _ => kVvVx k
  | .vdivn k _ _ _ _ => kVvVx k
  | .vrem k _ _ _ _ => kVvVx k
  | .vremn k _ _ _ _ => kVvVx k
  | .vmin k _ _ _ _ => kVvVx k
  | .vmax k _ _ _ _ => kVvVx k
  | .vminn k _ _ _ _ => kVvVx k
  | .vmaxn k _ _ _ _ => kVvVx k
  | .vand k _ _ _ _ => kVvVxVi k
  | .vor k _ _ _ _ => kVvVxVi k
  | .vxor k _ _ _ _ => kVvVxVi k
  | .vsll k _ _ _ _ => kVvVxVi k
  | .vsrl k _ _ _ _ => kVvVxVi k
  | .vsra k _ _ _ _ => kVvVxVi k
  | .vnsrl k _ _ _ _ => kVvVxVi k
  | .vnsra k _ _ _ _ => kVvVxVi k
  | .vwadd k _ _ _ _ => kVvVx k
  | .vwaddn k _ _ _ _ => kVvVx k
  | .vwmul k _ _ _ _ => kVvVx k
  | .vwmuln k _ _ _ _ => kVvVx k
  | .vsadd k _ _ _ _ => kVvVxVi k
  | .vsaddn k _ _ _ _ => kVvVxVi k
  | .vssub k _ _ _ _ => kVvVx k
  | .vssubn k _ _ _ _ => kVvVx k
  | .vmacc k _ _ _ _ => kVvVx k
  | .vnmsac k _ _ _ _ => kVvVx k
  | .vmerge k _ _ _ => kVvVxVi k
  | .vmv k _ _ => kVvVxVi k
  | .vcmp _ k _ _ _ _ => kVvVxVi k
  | .vfadd k _ _ _ _ _ => kVvVf k
  | .vfsub k _ _ _ _ _ => kVvVf k
  | .vfrsub k _ _ _ _ _ => kVvVf k
  | .vfmul k _ _ _ _ _ => kVvVf k
  | .vfdiv k _ _ _ _ _ => kVvVf k
  | .vfrdiv k _ _ _ _ _ => kVvVf k
  | .vfsqrt _ _ _ _ => true
  | .vfrece _ _ _ _ => true
  | .vfrsqe _ _ _ _ => true
  | .vfexp2 _ _ _ _ => true
  | .vflog2 _ _ _ _ => true
  | .vfmacc k _ _ _ _ _ => kVvVf k
  | .vfnmacc k _ _ _ _ _ => kVvVf k
  | .vfmsac k _ _ _ _ _ => kVvVf k
  | .vfnmsac k _ _ _ _ _ => kVvVf k
  | .vfmin k _ _ _ _ _ => kVvVf k
  | .vfmax k _ _ _ _ _ => kVvVf k
  | .vfsgnj k _ _ _ _ _ => kVvVf k
  | .vfclass _ _ _ _ => true
  | .vfcvt _ _ _ _ _ _ => true
  | .vfsgnjN k _ _ _ _ _ => kVvVf k
  | .vfsgnjX k _ _ _ _ _ => kVvVf k
  | .vfcmp _ k _ _ _ _ _ => kVvVf k
  | .vlmul _ _ _ _ => true
  | .vldot _ _ _ _ => true
  | .vlcvt _ _ _ _ _ => true
  | .vlscale k _ _ _ _ => kVvVx k
  | .vredsum _ _ _ _ => true
  | .vredmin _ _ _ _ => true
  | .vredmax _ _ _ _ => true
  | .vredminn _ _ _ _ => true
  | .vredmaxn _ _ _ _ => true
  | .vredand _ _ _ _ => true
  | .vredor _ _ _ _ => true
  | .vredxor _ _ _ _ => true
  | .vfredsum _ _ _ _ _ => true
  | .vfredosum _ _ _ _ _ => true
  | .vfredmin _ _ _ _ _ => true
  | .vfredmax _ _ _ _ _ => true
  | .vslideup k _ _ _ _ => kVxVi k
  | .vslidedn k _ _ _ _ => kVxVi k
  | .vslide1up k _ _ _ _ => kVxVf k
  | .vslide1dn k _ _ _ _ => kVxVf k
  | .vgather k _ _ _ _ => kVvVxVi k
  | .vcompress _ _ _ => true
  | .vrotl k _ _ _ _ => kVxVi k
  | .vmvxs _ _ _ => true
  | .vmvsx _ _ _ => true
  | .vxq _ _ _ => true
  | .vxqw _ _ _ => true
  | .vscan _ _ _ _ _ => true
  | .vmand _ _ _ => true
  | .vmor _ _ _ => true
  | .vmxor _ _ _ => true
  | .vmandn _ _ _ => true
  | .vmnand _ _ _ => true
  | .vmpop _ _ _ => true
  | .vmfirst _ _ _ => true
  | .viota _ _ _ => true
  | .vid _ _ => true
  | .vle _ _ _ _ _ => true
  | .vlse _ _ _ _ _ _ => true
  | .vlxe _ _ _ _ _ _ => true
  | .vleff _ _ _ _ _ => true
  | .vlsc _ _ _ _ _ _ => true
  | .vse _ _ _ _ _ => true
  | .vsse _ _ _ _ _ _ => true
  | .vsxe _ _ _ _ _ _ => true
  | .vssc _ _ _ _ _ _ => true
  | .vamo _ _ _ _ _ _ _ => true
  | .vwait _ _ _ _ _ _ _ => true
  | .vrrs _ _ _ _ _ _ _ => true
  | .lbr _ _ _ _ => true
  | .vsplit _ _ => true
  | .vjoin => true
  | .mzero _ => true
  | .mhold ty _ _ vs2 => mholdOk ty vs2
  | .mop ty _ _ _ _ => mopOk ty
  | .mops ty _ _ _ _ => mopOk ty && ty != .lg6
  | .mhmul ty _ _ _ => mopOk ty
  | .mrd _ _ _ _ => true
  | .mwr _ _ _ _ => true
  | .tdef _ _ => true
  | .tshape _ => true
  | .tfree _ => true
  | .twait _ ra g => twaitOk ra g
  | .tchk _ _ _ => true
  | .tacq _ _ => true
  | .tsignal _ _ => true
  | .tsignalAdd _ _ => true
  | .tbar _ _ => true
  | .tend => true
  | .tlaunch _ _ => true
  | .tld _ _ _ _ _ _ => true
  | .tldPb _ _ _ _ _ => true
  | .tst _ _ _ _ _ _ => true
  | .tstPb _ _ _ _ _ => true
  | .tcpy _ _ _ => true
  | .tcpyPb _ _ _ _ => true
  | .tzero _ _ => true
  | .tcoll _ _ _ _ _ _ _ => true
  | .tmma _ out _ td _ _ => out || td == 0
  | .tmmas _ out _ td _ _ => out || td == 0
  | .tmmv _ out _ td _ _ => out || td == 0
  | .tmap _ two _ _ tb _ _ => two || tb == 0
  | .tred _ two _ _ tb _ _ => two || tb == 0
  | .tsend _ _ _ _ => true
  | .trecv _ _ _ => true
  | .tdiscard _ _ => true
  | .fbias _ _ _ _ => true
  | .fstat _ _ => true
  | .launchQueueEnable _ => false
  | .launchQueueDisable _ => false
  | .tailWordNotice _ => false
  | .launchRecordConsume _ => false
  | .launchCompletion _ => false
  | .completionHeadAdvance _ _ => false
  | .dispatchPlace _ _ _ => false
  | .agingTick _ => false
  | .preemptSend _ _ => false
  | .eventRecordPost _ => false
  | .stewardPlacement _ => false
  | .stewardPreempt _ => false
  | .parkTimeout _ => false
  | .stewardReplay _ => false
  | .stewardTlaunch _ => false
  | .stewardFence _ => false
  | .evictionComplete _ => false
  | .evwaitTimeout _ => false
  | .vwaitTimeout _ => false
  | .tileCommit _ => false
  | .roomAllocate _ => false
  | .instanceRelease _ => false
  | .branchMispredictSquash _ => false
  | .microOpIssue _ _ => false
  | .chunkComplete _ _ _ => false
  | .failedWriteRecord _ _ => false
  | .storeAck _ => false
  | .loadReply _ => false
  | .requestResend _ _ _ => false
  | .pathReport _ _ _ _ => false
  | .sliceRequestAdmit _ _ => false
  | .columnLineFill _ _ => false
  | .watchNotice => false
  | .watchPoll _ => false
  | .windowPortAccess _ => false
  | .denNaming _ _ => false
  | .bisnpResponse _ _ => false
  | .snoopTimeout _ => false
  | .hostMemRequest _ _ => false
  | .hostCacheSnoop _ _ => false
  | .hostLineGrant _ _ _ => false
  | .baseRead _ _ => false
  | .baseWrite _ _ => false
  | .baseDiscard _ _ => false
  | .baseSector _ _ _ _ => false
  | .baseCompletion _ => false
  | .sectorDecodeDone _ => false
  | .settleGo _ _ => false
  | .settleComplete _ => false
  | .acctlClear _ => false
  | .acdumpGo _ => false
  | .acdumpComplete _ => false
  | .hacctlClear _ => false
  | .hacdumpGo _ => false
  | .hacdumpComplete _ => false
  | .fctlWrite _ => false
  | .ferryTurnStart => false
  | .ferryDrainEnd => false
  | .ferryQuietEnd => false
  | .ferryCheckEnd _ => false
  | .planEntryExpire => false
  | .flitReceive _ _ => false
  | .flitReplayTimeout _ => false
  | .laneLockLoss _ => false
  | .drainTimeout => false
  | .retrainEnd _ _ => false
  | .crossroadsSlot _ => false
  | .remoteChunkRequest _ _ => false
  | .porterCommandStart _ _ => false
  | .copyComplete _ _ => false
  | .streamRefill _ _ => false
  | .streamInboundWrite _ => false
  | .pctlWrite _ _ => false
  | .porterWatchdog _ => false
  | .porterFirmwareTrap _ => false
  | .icacheFill _ _ => false
  | .pageWalkStart _ _ => false
  | .pageWalkEntryRead _ _ => false
  | .bar0Access _ _ => false
  | .driverQueueEnable _ => false
  | .faultQueueHeadAdvance _ => false
  | .replayCommandRetry => false
  | .replayCommandAbort => false
  | .invalidationCommand => false
  | .invalidationDone _ => false
  | .hostLinkRetrain _ => false
  | .hostLinkDown _ => false
  | .linkDownTimeout _ => false
  | .stewardServiceTimeout _ => false
  | .unitFence _ _ => false
  | .hresetWarm => false
  | .functionLevelReset => false
  | .warmResetComplete => false
  | .coldReset _ => false
  | .hretireWrite _ => false
  | .healthLogEnable => false
  | .thermalThrottle _ _ => false
  | .thermalShutdown => false
  | .spdmGetMeasurements => false
  | .registerWrite _ _ => false
  | .reservedEncoding _ _ => false
  | .hostLinkUp _ _ _ => false
  | .powerLoss => false
  | .dispatcherOrHealthFault => false
  | .porterDatapathPrimitive _ _ _ => false
  | .thermalThrottleEnd _ _ => false

end Sys2Proof
end

