-- ==== Sys2Proof/Decode.lean ====
section
/-! DEFINITION. The decoder, total on any words and any bytes, and after it the encoder, both from the encoding tables
of spec/03_formats_opcode_map.md (R67 - R94), spec/09_porters.md R242 - R243, spec/10_crossroads.md R276,
spec/12_lane_memory_control.md R344, spec/14_matrix.md R388, spec/16_slices_model.md R409 and spec/20_ferry.md R467.
A word that is no instruction is rejected by name. -/
namespace Sys2Proof

/-- Why a word is no instruction (R68, R94). -/
inductive DecodeError where
  /-- fewer bytes than the word needs -/
  | short
  /-- the words 0x0000_0000 and 0xFFFF_FFFF (R68) -/
  | illegalWord
  /-- a reserved major (R73) -/
  | reservedMajor
  /-- a reserved field of a scalar, configuration, tile or long-form word (R94) -/
  | reservedField
  /-- a reserved field of a word of majors 0x1D to 0x26, under the activity rule (R95) -/
  | reservedVector
  deriving DecidableEq, Repr

/-- Bits [lo+n-1:lo] of a word. -/
def fld (w lo n : Nat) : Nat := w / 2 ^ lo % 2 ^ n
/-- The register field at [25:21]. -/
def rD (w : Nat) : Reg := BitVec.ofNat 5 (w / 2 ^ 21)
/-- The register field at [20:16]. -/
def rA (w : Nat) : Reg := BitVec.ofNat 5 (w / 2 ^ 16)
/-- The register field at [15:11]. -/
def rB (w : Nat) : Reg := BitVec.ofNat 5 (w / 2 ^ 11)
/-- A one-bit field. -/
def bit (w lo : Nat) : Bool := fld w lo 1 == 1

/-- The code of R72. -/
def Ty.code : Ty → Nat
  | .none => 0
  | .i8 => 1
  | .i16 => 2
  | .i32 => 3
  | .i64 => 4
  | .n8 => 5
  | .n16 => 6
  | .n32 => 7
  | .n64 => 8
  | .f16 => 9
  | .bf16 => 10
  | .f32 => 11
  | .f64 => 12
  | .f8e4 => 13
  | .f8e5 => 14
  | .lg6 => 15

/-- The value of a code of R72; a reserved code has none. -/
def Ty.ofCode (n : Nat) : Option Ty :=
  match n with
  | 0 => some .none
  | 1 => some .i8
  | 2 => some .i16
  | 3 => some .i32
  | 4 => some .i64
  | 5 => some .n8
  | 6 => some .n16
  | 7 => some .n32
  | 8 => some .n64
  | 9 => some .f16
  | 10 => some .bf16
  | 11 => some .f32
  | 12 => some .f64
  | 13 => some .f8e4
  | 14 => some .f8e5
  | 15 => some .lg6
  | _ => none

/-- The code of R77. -/
def FFmt.code : FFmt → Nat
  | .f16 => 0
  | .bf16 => 1
  | .f32 => 2
  | .f64 => 3

/-- The value of a code of R77; a reserved code has none. -/
def FFmt.ofCode (n : Nat) : Option FFmt :=
  match n with
  | 0 => some .f16
  | 1 => some .bf16
  | 2 => some .f32
  | 3 => some .f64
  | _ => none

/-- The code of R77. -/
def Rm.code : Rm → Nat
  | .rne => 0
  | .rtz => 1
  | .rdn => 2
  | .rup => 3
  | .rmm => 4
  | .dyn => 7

/-- The value of a code of R77; a reserved code has none. -/
def Rm.ofCode (n : Nat) : Option Rm :=
  match n with
  | 0 => some .rne
  | 1 => some .rtz
  | 2 => some .rdn
  | 3 => some .rup
  | 4 => some .rmm
  | 7 => some .dyn
  | _ => none

/-- The code of R78. -/
def LdSize.code : LdSize → Nat
  | .i8 => 0
  | .i16 => 1
  | .i32 => 2
  | .i64 => 3
  | .n8 => 4
  | .n16 => 5
  | .n32 => 6

/-- The value of a code of R78; a reserved code has none. -/
def LdSize.ofCode (n : Nat) : Option LdSize :=
  match n with
  | 0 => some .i8
  | 1 => some .i16
  | 2 => some .i32
  | 3 => some .i64
  | 4 => some .n8
  | 5 => some .n16
  | 6 => some .n32
  | _ => none

/-- The code of R78. -/
def StSize.code : StSize → Nat
  | .b8 => 0
  | .b16 => 1
  | .b32 => 2
  | .b64 => 3

/-- The value of a code of R78; a reserved code has none. -/
def StSize.ofCode (n : Nat) : Option StSize :=
  match n with
  | 0 => some .b8
  | 1 => some .b16
  | 2 => some .b32
  | 3 => some .b64
  | _ => none

/-- The code of R79. -/
def AmoOp.code : AmoOp → Nat
  | .swap => 0
  | .add => 1
  | .and => 2
  | .or => 3
  | .xor => 4
  | .min => 5
  | .max => 6
  | .minn => 7
  | .maxn => 8

/-- The value of a code of R79; a reserved code has none. -/
def AmoOp.ofCode (n : Nat) : Option AmoOp :=
  match n with
  | 0 => some .swap
  | 1 => some .add
  | 2 => some .and
  | 3 => some .or
  | 4 => some .xor
  | 5 => some .min
  | 6 => some .max
  | 7 => some .minn
  | 8 => some .maxn
  | _ => none

/-- The code of R79, R90. -/
def Order.code : Order → Nat
  | .none => 0
  | .acq => 1
  | .rel => 2
  | .ar => 3

/-- The value of a code of R79, R90; a reserved code has none. -/
def Order.ofCode (n : Nat) : Option Order :=
  match n with
  | 0 => some .none
  | 1 => some .acq
  | 2 => some .rel
  | 3 => some .ar
  | _ => none

/-- The code of R79, R90. -/
def AWidth.code : AWidth → Nat
  | .w32 => 0
  | .w64 => 1

/-- The value of a code of R79, R90; a reserved code has none. -/
def AWidth.ofCode (n : Nat) : Option AWidth :=
  match n with
  | 0 => some .w32
  | 1 => some .w64
  | _ => none

/-- The code of R79. -/
def Scope.code : Scope → Nat
  | .blk => 0
  | .core => 1
  | .clu => 2
  | .die => 3
  | .dev => 4
  | .sys => 5

/-- The value of a code of R79; a reserved code has none. -/
def Scope.ofCode (n : Nat) : Option Scope :=
  match n with
  | 0 => some .blk
  | 1 => some .core
  | 2 => some .clu
  | 3 => some .die
  | 4 => some .dev
  | 5 => some .sys
  | _ => none

/-- The code of R80. -/
def FenceKind.code : FenceKind → Nat
  | .acq => 1
  | .rel => 2
  | .ar => 3

/-- The value of a code of R80; a reserved code has none. -/
def FenceKind.ofCode (n : Nat) : Option FenceKind :=
  match n with
  | 1 => some .acq
  | 2 => some .rel
  | 3 => some .ar
  | _ => none

/-- The code of R85. -/
def VKind.code : VKind → Nat
  | .vv => 0
  | .vx => 1
  | .vi => 2
  | .vf => 3

/-- The value of a code of R85; a reserved code has none. -/
def VKind.ofCode (n : Nat) : Option VKind :=
  match n with
  | 0 => some .vv
  | 1 => some .vx
  | 2 => some .vi
  | 3 => some .vf
  | _ => none

/-- The code of R86. -/
def VCond.code : VCond → Nat
  | .eq => 40
  | .ne => 41
  | .lt => 42
  | .le => 43
  | .gt => 44
  | .ge => 45
  | .ltn => 46
  | .len => 47
  | .gtn => 48
  | .gen => 49

/-- The value of a code of R86; a reserved code has none. -/
def VCond.ofCode (n : Nat) : Option VCond :=
  match n with
  | 40 => some .eq
  | 41 => some .ne
  | 42 => some .lt
  | 43 => some .le
  | 44 => some .gt
  | 45 => some .ge
  | 46 => some .ltn
  | 47 => some .len
  | 48 => some .gtn
  | 49 => some .gen
  | _ => none

/-- The code of R87. -/
def FCond.code : FCond → Nat
  | .eq => 24
  | .ne => 25
  | .lt => 26
  | .le => 27
  | .gt => 28
  | .ge => 29

/-- The value of a code of R87; a reserved code has none. -/
def FCond.ofCode (n : Nat) : Option FCond :=
  match n with
  | 24 => some .eq
  | 25 => some .ne
  | 26 => some .lt
  | 27 => some .le
  | 28 => some .gt
  | 29 => some .ge
  | _ => none

/-- The code of R88. -/
def ScanOp.code : ScanOp → Nat
  | .add => 0
  | .fadd => 1
  | .max => 2
  | .min => 3

/-- The value of a code of R88; a reserved code has none. -/
def ScanOp.ofCode (n : Nat) : Option ScanOp :=
  match n with
  | 0 => some .add
  | 1 => some .fadd
  | 2 => some .max
  | 3 => some .min
  | _ => none

/-- The code of R89. -/
def Eew.code : Eew → Nat
  | .e8 => 0
  | .e16 => 1
  | .e32 => 2
  | .e64 => 3

/-- The value of a code of R89; a reserved code has none. -/
def Eew.ofCode (n : Nat) : Option Eew :=
  match n with
  | 0 => some .e8
  | 1 => some .e16
  | 2 => some .e32
  | 3 => some .e64
  | _ => none

/-- The code of R89, R242. -/
def Hint.code : Hint → Nat
  | .normal => 0
  | .noalloc => 1
  | .bypass => 2

/-- The value of a code of R89, R242; a reserved code has none. -/
def Hint.ofCode (n : Nat) : Option Hint :=
  match n with
  | 0 => some .normal
  | 1 => some .noalloc
  | 2 => some .bypass
  | _ => none

/-- The code of R90. -/
def WCond.code : WCond → Nat
  | .eq => 0
  | .ne => 1
  | .gen => 2

/-- The value of a code of R90; a reserved code has none. -/
def WCond.ofCode (n : Nat) : Option WCond :=
  match n with
  | 0 => some .eq
  | 1 => some .ne
  | 2 => some .gen
  | _ => none

/-- The code of R90. -/
def RrsOp.code : RrsOp → Nat
  | .add => 0
  | .fadd => 1
  | .min => 2
  | .max => 3
  | .fmin => 4
  | .fmax => 5

/-- The value of a code of R90; a reserved code has none. -/
def RrsOp.ofCode (n : Nat) : Option RrsOp :=
  match n with
  | 0 => some .add
  | 1 => some .fadd
  | 2 => some .min
  | 3 => some .max
  | 4 => some .fmin
  | 5 => some .fmax
  | _ => none

/-- The code of R91. -/
def LCond.code : LCond → Nat
  | .eq => 0
  | .ne => 1
  | .lt => 2
  | .ge => 3
  | .ltn => 4
  | .gen => 5

/-- The value of a code of R91; a reserved code has none. -/
def LCond.ofCode (n : Nat) : Option LCond :=
  match n with
  | 0 => some .eq
  | 1 => some .ne
  | 2 => some .lt
  | 3 => some .ge
  | 4 => some .ltn
  | 5 => some .gen
  | _ => none

/-- The op code of TCOLL (R265). -/
def CollOp.code : CollOp → Nat
  | .sum => 0
  | .min => 1
  | .max => 2
  | .bcast => 3
  | .gather => 4
  | .fw j => 8 + j.toNat
/-- The TCOLL operation of an op code (R265). -/
def CollOp.ofCode (n : Nat) : Option CollOp :=
  match n with
  | 0 => some .sum
  | 1 => some .min
  | 2 => some .max
  | 3 => some .bcast
  | 4 => some .gather
  | n => if 8 ≤ n ∧ n < 16 then some (.fw (BitVec.ofNat 3 n)) else none

/-- Keeps an instruction only where its required-field condition holds (R94). -/
def need {α : Type} (c : Bool) (i : α) : Option α := if c then some i else none

/-- Major 0x01 (R74). -/
def decOp (w : Nat) : Option Instr :=
  match fld w 0 11 with
  | 0 => some (.add (rD w) (rA w) (rB w))
  | 1 => some (.sub (rD w) (rA w) (rB w))
  | 2 => some (.and (rD w) (rA w) (rB w))
  | 3 => some (.or (rD w) (rA w) (rB w))
  | 4 => some (.xor (rD w) (rA w) (rB w))
  | 5 => some (.andn (rD w) (rA w) (rB w))
  | 6 => some (.orn (rD w) (rA w) (rB w))
  | 7 => some (.sll (rD w) (rA w) (rB w))
  | 8 => some (.srl (rD w) (rA w) (rB w))
  | 9 => some (.sra (rD w) (rA w) (rB w))
  | 10 => some (.rol (rD w) (rA w) (rB w))
  | 11 => some (.ror (rD w) (rA w) (rB w))
  | 12 => some (.slt (rD w) (rA w) (rB w))
  | 13 => some (.sltn (rD w) (rA w) (rB w))
  | 14 => some (.min (rD w) (rA w) (rB w))
  | 15 => some (.max (rD w) (rA w) (rB w))
  | 16 => some (.minn (rD w) (rA w) (rB w))
  | 17 => some (.maxn (rD w) (rA w) (rB w))
  | 18 => some (.czeq (rD w) (rA w) (rB w))
  | 19 => some (.czne (rD w) (rA w) (rB w))
  | 20 => need (fld w 11 5 == 0) (.clz (rD w) (rA w))
  | 21 => need (fld w 11 5 == 0) (.ctz (rD w) (rA w))
  | 22 => need (fld w 11 5 == 0) (.popc (rD w) (rA w))
  | 23 => need (fld w 11 5 == 0) (.bswap (rD w) (rA w))
  | 24 => need (fld w 11 5 == 0) (.sextb (rD w) (rA w))
  | 25 => need (fld w 11 5 == 0) (.sexth (rD w) (rA w))
  | 26 => need (fld w 11 5 == 0) (.sextw (rD w) (rA w))
  | 27 => need (fld w 11 5 == 0) (.zextw (rD w) (rA w))
  | 28 => some (.addw (rD w) (rA w) (rB w))
  | 29 => some (.subw (rD w) (rA w) (rB w))
  | 30 => some (.sllw (rD w) (rA w) (rB w))
  | 31 => some (.srlw (rD w) (rA w) (rB w))
  | 32 => some (.sraw (rD w) (rA w) (rB w))
  | _ => none

/-- Major 0x06 (R75). -/
def decShiftImm (w : Nat) : Option Instr :=
  match fld w 12 4 with
  | 0 => need (fld w 6 6 == 0) (.slli (rD w) (rA w) (BitVec.ofNat 6 w))
  | 1 => need (fld w 6 6 == 0) (.srli (rD w) (rA w) (BitVec.ofNat 6 w))
  | 2 => need (fld w 6 6 == 0) (.srai (rD w) (rA w) (BitVec.ofNat 6 w))
  | 3 => some (.addwi (rD w) (rA w) (BitVec.ofNat 12 w))
  | _ => none

/-- Major 0x07 (R75). -/
def decSetImm (w : Nat) : Option Instr :=
  match fld w 15 1 with
  | 0 => some (.slti (rD w) (rA w) (BitVec.ofNat 15 w))
  | 1 => some (.sltni (rD w) (rA w) (BitVec.ofNat 15 w))
  | _ => none

/-- Major 0x0A in the format its fmt field names (R77). -/
def decFpFmt (w : Nat) (fmt : FFmt) : Option Instr :=
  match fld w 6 5 with
  | 0 => (Rm.ofCode (fld w 3 3)).bind fun rm => some (.fadd fmt rm (rD w) (rA w) (rB w))
  | 1 => (Rm.ofCode (fld w 3 3)).bind fun rm => some (.fsub fmt rm (rD w) (rA w) (rB w))
  | 2 => (Rm.ofCode (fld w 3 3)).bind fun rm => some (.fmul fmt rm (rD w) (rA w) (rB w))
  | 3 => (Rm.ofCode (fld w 3 3)).bind fun rm => some (.fdiv fmt rm (rD w) (rA w) (rB w))
  | 4 => (Rm.ofCode (fld w 3 3)).bind fun rm => need (fld w 11 5 == 0) (.fsqrt fmt rm (rD w) (rA w))
  | 5 => (Rm.ofCode (fld w 3 3)).bind fun rm => some (.fma fmt rm (rD w) (rA w) (rB w))
  | 6 => (Rm.ofCode (fld w 3 3)).bind fun rm => some (.fms fmt rm (rD w) (rA w) (rB w))
  | 7 => (Rm.ofCode (fld w 3 3)).bind fun rm => some (.fnma fmt rm (rD w) (rA w) (rB w))
  | 8 => (Rm.ofCode (fld w 3 3)).bind fun rm => some (.fnms fmt rm (rD w) (rA w) (rB w))
  | 9 => need (fld w 3 3 == 0) (.fmin fmt (rD w) (rA w) (rB w))
  | 10 => need (fld w 3 3 == 0) (.fmax fmt (rD w) (rA w) (rB w))
  | 11 => need (fld w 3 3 == 0) (.feq fmt (rD w) (rA w) (rB w))
  | 12 => need (fld w 3 3 == 0) (.flt fmt (rD w) (rA w) (rB w))
  | 13 => need (fld w 3 3 == 0) (.fle fmt (rD w) (rA w) (rB w))
  | 14 => need (fld w 3 3 == 0 && fld w 11 5 == 0) (.fclass fmt (rD w) (rA w))
  | 15 => need (fld w 3 3 == 0) (.fsgnj fmt (rD w) (rA w) (rB w))
  | 16 => need (fld w 3 3 == 0) (.fsgnjn fmt (rD w) (rA w) (rB w))
  | 17 => need (fld w 3 3 == 0) (.fsgnjx fmt (rD w) (rA w) (rB w))
  | 18 => (Rm.ofCode (fld w 3 3)).bind fun rm => (Ty.ofCode (fld w 11 4)).bind fun t =>
      need (fld w 15 1 == 0 && cvtSrcOk fmt t) (.fcvtToFloat fmt rm t (rD w) (rA w))
  | 19 => (Rm.ofCode (fld w 3 3)).bind fun rm => (Ty.ofCode (fld w 11 4)).bind fun t =>
      need (fld w 15 1 == 0 && cvtDstOk t) (.fcvtToInt fmt rm t (rD w) (rA w))
  | _ => none

/-- Major 0x0A (R77). -/
def decFp (w : Nat) : Option Instr := (FFmt.ofCode (fld w 0 3)).bind (decFpFmt w)

/-- Major 0x0B (R76). -/
def decMul (w : Nat) : Option Instr :=
  match fld w 0 11 with
  | 0 => some (.mul (rD w) (rA w) (rB w))
  | 1 => some (.mulh (rD w) (rA w) (rB w))
  | 2 => some (.mulhn (rD w) (rA w) (rB w))
  | 3 => some (.mulhsn (rD w) (rA w) (rB w))
  | 4 => some (.mulw (rD w) (rA w) (rB w))
  | 8 => some (.div (rD w) (rA w) (rB w))
  | 9 => some (.divn (rD w) (rA w) (rB w))
  | 10 => some (.rem (rD w) (rA w) (rB w))
  | 11 => some (.remn (rD w) (rA w) (rB w))
  | 12 => some (.divw (rD w) (rA w) (rB w))
  | _ => none

/-- Major 0x0C (R78). -/
def decLoad (w : Nat) : Option Instr :=
  (LdSize.ofCode (fld w 13 3)).map fun z => .ld z (rD w) (rA w) (BitVec.ofNat 13 w)
/-- Major 0x0D (R78). -/
def decStore (w : Nat) : Option Instr :=
  (StSize.ofCode (fld w 13 3)).map fun z => .st z (rD w) (rA w) (BitVec.ofNat 13 w)
/-- Major 0x0E with its order, width code and scope (R79, R208). -/
def decAtomicIn (w : Nat) (order : Order) (scope : Scope) : Option Instr :=
  match fld w 7 4 with
  | 9 => (AWidth.ofCode (fld w 3 2)).bind fun z =>
      need (orderScopeOk order scope) (.cas order z scope (rD w) (rA w) (rB w))
  | 10 => need (fld w 3 2 == 2 && orderScopeOk order scope) (.cas2 order scope (rD w) (rA w) (rB w))
  | 11 => (AWidth.ofCode (fld w 3 2)).bind fun z =>
      need (order == .acq && fld w 11 5 == 0) (.ldaq z scope (rD w) (rA w))
  | 12 => (AWidth.ofCode (fld w 3 2)).bind fun z =>
      need (order == .rel && fld w 21 5 == 0) (.strl z scope (rA w) (rB w))
  | n => (AmoOp.ofCode n).bind fun op => (AWidth.ofCode (fld w 3 2)).bind fun z =>
      need (orderScopeOk order scope) (.amo op order z scope (rD w) (rA w) (rB w))
/-- Major 0x0E (R79). -/
def decAtomic (w : Nat) : Option Instr :=
  (Order.ofCode (fld w 5 2)).bind fun order => (Scope.ofCode (fld w 0 3)).bind fun scope => decAtomicIn w order scope
/-- Major 0x0F (R80). -/
def decFence (w : Nat) : Option Instr :=
  match fld w 12 4 with
  | 0 => (FenceKind.ofCode (fld w 10 2)).bind fun kd => (Scope.ofCode (fld w 7 3)).bind fun sc =>
      need (fld w 16 10 == 0 && fld w 0 7 == 0) (.fence kd sc)
  | 1 => need (fld w 16 10 == 0 && fld w 0 12 == 0) .fenceSv
  | 2 => need (fld w 16 10 == 0 && fld w 0 12 == 0) .fenceVs
  | 3 => need (fld w 16 10 == 0 && fld w 0 12 == 0) .fenceI
  | 4 => need (fld w 21 5 == 0) (.ipref (rA w) (BitVec.ofNat 12 w))
  | 5 => need (fld w 21 5 == 0) (.dpref (rA w) (BitVec.ofNat 12 w))
  | _ => none

/-- Major 0x10 (R81). -/
def decBranch (w : Nat) : Option Instr :=
  match fld w 13 3 with
  | 0 => some (.beq (rD w) (rA w) (BitVec.ofNat 13 w))
  | 1 => some (.bne (rD w) (rA w) (BitVec.ofNat 13 w))
  | 2 => some (.blt (rD w) (rA w) (BitVec.ofNat 13 w))
  | 3 => some (.bge (rD w) (rA w) (BitVec.ofNat 13 w))
  | 4 => some (.bltn (rD w) (rA w) (BitVec.ofNat 13 w))
  | 5 => some (.bgen (rD w) (rA w) (BitVec.ofNat 13 w))
  | _ => none

/-- Major 0x13 (R81, R219). -/
def decJt (w : Nat) : Option Instr :=
  match fld w 13 3 with
  | 0 => need (jtSizeOk (BitVec.ofNat 13 w)) (.jtW (rD w) (rA w) (BitVec.ofNat 13 w))
  | 1 => need (jtSizeOk (BitVec.ofNat 13 w) && fld w 0 1 == 0) (.jtD (rD w) (rA w) (BitVec.ofNat 13 w))
  | _ => none
/-- Major 0x14 (R81). -/
def decBstrip (w : Nat) : Option Instr := need (fld w 13 3 == 0) (.bstrip (rD w) (rA w) (BitVec.ofNat 13 w))
/-- Major 0x15 (R82). -/
def decSystem (w : Nat) : Option Instr :=
  match fld w 0 11 with
  | 0 => need (fld w 11 15 == 0) .ecall
  | 1 => need (fld w 11 15 == 0) .ebreak
  | 2 => need (fld w 11 15 == 0) .trapret
  | 3 => need (fld w 11 15 == 0) .yield
  | 4 => need (fld w 11 5 < 6) (.widf (rD w) (rA w) (BitVec.ofNat 5 (w / 2 ^ 11)))
  | _ => none
/-- Major 0x16 (R83). -/
def decCtl (w : Nat) : Option Instr :=
  match fld w 12 4 with
  | 0 => need (fld w 16 5 == 0) (.ctlr (rD w) (BitVec.ofNat 12 w))
  | 4 => some (.ctlw (rD w) (rA w) (BitVec.ofNat 12 w))
  | 8 => some (.ctls (rD w) (rA w) (BitVec.ofNat 12 w))
  | 12 => some (.ctlc (rD w) (rA w) (BitVec.ofNat 12 w))
  | _ => none
/-- Major 0x17 (R83, R147). -/
def decSteward (w : Nat) : Option Instr :=
  match fld w 0 11 with
  | 0 => need (fld w 11 5 == 0) (.evpop (rD w) (rA w))
  | 1 => need (fld w 11 5 == 0) (.evwait (rD w) (rA w))
  | 2 => need (fld w 11 5 == 0) (.slotassign (rD w) (rA w))
  | 3 => some (.slotevict (rD w) (rA w) (rB w))
  | 4 => need (fld w 11 5 == 0) (.cqpush (rD w) (rA w))
  | 5 => need (fld w 21 5 == 0) (.tlbinv (rA w) (rB w))
  | _ => none
/-- Major 0x1C (R84). -/
def decVConfig (w : Nat) : Option Instr :=
  match fld w 14 2 with
  | 0 => need (fld w 6 8 == 0 && vtypeOk (BitVec.ofNat 6 w)) (.vsetvli (rD w) (rA w) (BitVec.ofNat 6 w))
  | 1 => need (fld w 0 9 == 0) (.vsetvl (rD w) (rA w) (BitVec.ofNat 5 (w / 2 ^ 9)))
  | 2 => need (fld w 0 14 == 0) (.msetmvl (rD w) (rA w))
  | _ =>
    match fld w 12 2 with
    | 0 => need (fld w 0 9 == 0) (.vstream (rD w) (rA w) (BitVec.ofNat 3 (w / 2 ^ 9)))
    | 1 => need (fld w 0 9 == 0 && fld w 16 10 == 0) (.vunstream (BitVec.ofNat 3 (w / 2 ^ 9)))
    | _ => none

/-- Major 0x1D with its kind and vm (R86). -/
def decVIntK (w : Nat) (k : VKind) (vm : Bool) : Option Instr :=
  match fld w 4 6 with
  | 0x0 => need (kVvVxVi k) (.vadd k vm (rD w) (rA w) (rB w))
  | 0x1 => need (kVvVx k) (.vsub k vm (rD w) (rA w) (rB w))
  | 0x2 => need (kVxVi k) (.vrsub k vm (rD w) (rA w) (rB w))
  | 0x3 => need (kVvVx k) (.vmul k vm (rD w) (rA w) (rB w))
  | 0x4 => need (kVvVx k) (.vmulh k vm (rD w) (rA w) (rB w))
  | 0x5 => need (kVvVx k) (.vmulhn k vm (rD w) (rA w) (rB w))
  | 0x6 => need (kVvVx k) (.vdiv k vm (rD w) (rA w) (rB w))
  | 0x7 => need (kVvVx k) (.vdivn k vm (rD w) (rA w) (rB w))
  | 0x8 => need (kVvVx k) (.vrem k vm (rD w) (rA w) (rB w))
  | 0x9 => need (kVvVx k) (.vremn k vm (rD w) (rA w) (rB w))
  | 0xa => need (kVvVx k) (.vmin k vm (rD w) (rA w) (rB w))
  | 0xb => need (kVvVx k) (.vmax k vm (rD w) (rA w) (rB w))
  | 0xc => need (kVvVx k) (.vminn k vm (rD w) (rA w) (rB w))
  | 0xd => need (kVvVx k) (.vmaxn k vm (rD w) (rA w) (rB w))
  | 0xe => need (kVvVxVi k) (.vand k vm (rD w) (rA w) (rB w))
  | 0xf => need (kVvVxVi k) (.vor k vm (rD w) (rA w) (rB w))
  | 0x10 => need (kVvVxVi k) (.vxor k vm (rD w) (rA w) (rB w))
  | 0x11 => need (kVvVxVi k) (.vsll k vm (rD w) (rA w) (rB w))
  | 0x12 => need (kVvVxVi k) (.vsrl k vm (rD w) (rA w) (rB w))
  | 0x13 => need (kVvVxVi k) (.vsra k vm (rD w) (rA w) (rB w))
  | 0x14 => need (kVvVxVi k) (.vnsrl k vm (rD w) (rA w) (rB w))
  | 0x15 => need (kVvVxVi k) (.vnsra k vm (rD w) (rA w) (rB w))
  | 0x16 => need (kVvVx k) (.vwadd k vm (rD w) (rA w) (rB w))
  | 0x17 => need (kVvVx k) (.vwaddn k vm (rD w) (rA w) (rB w))
  | 0x18 => need (kVvVx k) (.vwmul k vm (rD w) (rA w) (rB w))
  | 0x19 => need (kVvVx k) (.vwmuln k vm (rD w) (rA w) (rB w))
  | 0x1a => need (kVvVxVi k) (.vsadd k vm (rD w) (rA w) (rB w))
  | 0x1b => need (kVvVxVi k) (.vsaddn k vm (rD w) (rA w) (rB w))
  | 0x1c => need (kVvVx k) (.vssub k vm (rD w) (rA w) (rB w))
  | 0x1d => need (kVvVx k) (.vssubn k vm (rD w) (rA w) (rB w))
  | 0x1e => need (kVvVx k) (.vmacc k vm (rD w) (rA w) (rB w))
  | 0x1f => need (kVvVx k) (.vnmsac k vm (rD w) (rA w) (rB w))
  | 0x20 => need (kVvVxVi k && !vm) (.vmerge k (rD w) (rA w) (rB w))
  | 0x21 => need (kVvVxVi k && vm && fld w 11 5 == 0) (.vmv k (rD w) (rA w))
  | n => (VCond.ofCode n).bind fun c => need (kVvVxVi k) (.vcmp c k vm (rD w) (rA w) (rB w))

/-- Major 0x1D (R85, R86). -/
def decVInt (w : Nat) : Option Instr :=
  if fld w 0 2 == 0 then (VKind.ofCode (fld w 2 2)).bind fun k => decVIntK w k (bit w 10) else none

/-- Major 0x1E with its kind, vm and sub bits (R87). -/
def decVFpK (w : Nat) (k : VKind) (vm b0 b1 : Bool) : Option Instr :=
  match fld w 4 6 with
  | 0x0 => need (kVvVf k && !b1) (.vfadd k b0 vm (rD w) (rA w) (rB w))
  | 0x1 => need (kVvVf k && !b1) (.vfsub k b0 vm (rD w) (rA w) (rB w))
  | 0x2 => need (kVvVf k && !b1) (.vfrsub k b0 vm (rD w) (rA w) (rB w))
  | 0x3 => need (kVvVf k && !b1) (.vfmul k b0 vm (rD w) (rA w) (rB w))
  | 0x4 => need (kVvVf k && !b1) (.vfdiv k b0 vm (rD w) (rA w) (rB w))
  | 0x5 => need (kVvVf k && !b1) (.vfrdiv k b0 vm (rD w) (rA w) (rB w))
  | 0x6 => need (k == .vv && fld w 16 5 == 0 && !b1) (.vfsqrt b0 vm (rD w) (rB w))
  | 0x7 => need (k == .vv && fld w 16 5 == 0 && !b1) (.vfrece b0 vm (rD w) (rB w))
  | 0x8 => need (k == .vv && fld w 16 5 == 0 && !b1) (.vfrsqe b0 vm (rD w) (rB w))
  | 0x9 => need (k == .vv && fld w 16 5 == 0 && !b1) (.vfexp2 b0 vm (rD w) (rB w))
  | 0xa => need (k == .vv && fld w 16 5 == 0 && !b1) (.vflog2 b0 vm (rD w) (rB w))
  | 0xb => need (kVvVf k && !b1) (.vfmacc k b0 vm (rD w) (rA w) (rB w))
  | 0xc => need (kVvVf k && !b1) (.vfnmacc k b0 vm (rD w) (rA w) (rB w))
  | 0xd => need (kVvVf k && !b1) (.vfmsac k b0 vm (rD w) (rA w) (rB w))
  | 0xe => need (kVvVf k && !b1) (.vfnmsac k b0 vm (rD w) (rA w) (rB w))
  | 0xf => need (kVvVf k && !b1) (.vfmin k b0 vm (rD w) (rA w) (rB w))
  | 0x10 => need (kVvVf k && !b1) (.vfmax k b0 vm (rD w) (rA w) (rB w))
  | 0x11 => need (kVvVf k && !b1) (.vfsgnj k b0 vm (rD w) (rA w) (rB w))
  | 0x12 => need (k == .vv && fld w 16 5 == 0 && !b1) (.vfclass b0 vm (rD w) (rB w))
  | 0x13 => need (k == .vv && fld w 19 2 == 0) (.vfcvt (BitVec.ofNat 3 (w / 2 ^ 16)) b0 b1 vm (rD w) (rB w))
  | 0x14 => need (kVvVf k && !b1) (.vfsgnjN k b0 vm (rD w) (rA w) (rB w))
  | 0x15 => need (kVvVf k && !b1) (.vfsgnjX k b0 vm (rD w) (rA w) (rB w))
  | n => (FCond.ofCode n).bind fun c => need (kVvVf k && !b1) (.vfcmp c k b0 vm (rD w) (rA w) (rB w))

/-- Major 0x1E (R85, R87). -/
def decVFp (w : Nat) : Option Instr :=
  (VKind.ofCode (fld w 2 2)).bind fun k => decVFpK w k (bit w 10) (bit w 0) (bit w 1)

/-- Major 0x1F (R88). -/
def decVLog (w : Nat) : Option Instr :=
  match fld w 4 6 with
  | 0 => need (fld w 0 4 == 0) (.vlmul (bit w 10) (rD w) (rA w) (rB w))
  | 1 => need (fld w 0 4 == 0) (.vldot (bit w 10) (rD w) (rA w) (rB w))
  | 2 => need (fld w 2 2 == 0 && fld w 16 5 == 0) (.vlcvt (bit w 0) (bit w 1) (bit w 10) (rD w) (rB w))
  | 3 => (VKind.ofCode (fld w 2 2)).bind fun k =>
      need (kVvVx k && fld w 0 2 == 0) (.vlscale k (bit w 10) (rD w) (rA w) (rB w))
  | _ => none

/-- Major 0x20 with its kind, sub and vm (R88). -/
def decVPermK (w : Nat) (k : VKind) (sub : Nat) (vm : Bool) : Option Instr :=
  match fld w 4 6 with
  | 0x0 => need (k == .vv && sub == 0) (.vredsum vm (rD w) (rA w) (rB w))
  | 0x1 => need (k == .vv && sub == 0) (.vredmin vm (rD w) (rA w) (rB w))
  | 0x2 => need (k == .vv && sub == 0) (.vredmax vm (rD w) (rA w) (rB w))
  | 0x3 => need (k == .vv && sub == 0) (.vredminn vm (rD w) (rA w) (rB w))
  | 0x4 => need (k == .vv && sub == 0) (.vredmaxn vm (rD w) (rA w) (rB w))
  | 0x5 => need (k == .vv && sub == 0) (.vredand vm (rD w) (rA w) (rB w))
  | 0x6 => need (k == .vv && sub == 0) (.vredor vm (rD w) (rA w) (rB w))
  | 0x7 => need (k == .vv && sub == 0) (.vredxor vm (rD w) (rA w) (rB w))
  | 0x8 => need (k == .vv && sub < 2) (.vfredsum (sub == 1) vm (rD w) (rA w) (rB w))
  | 0x9 => need (k == .vv && sub < 2) (.vfredosum (sub == 1) vm (rD w) (rA w) (rB w))
  | 0xa => need (k == .vv && sub < 2) (.vfredmin (sub == 1) vm (rD w) (rA w) (rB w))
  | 0xb => need (k == .vv && sub < 2) (.vfredmax (sub == 1) vm (rD w) (rA w) (rB w))
  | 0x10 => need (kVxVi k && sub == 0) (.vslideup k vm (rD w) (rA w) (rB w))
  | 0x11 => need (kVxVi k && sub == 0) (.vslidedn k vm (rD w) (rA w) (rB w))
  | 0x12 => need (kVxVf k && sub == 0) (.vslide1up k vm (rD w) (rA w) (rB w))
  | 0x13 => need (kVxVf k && sub == 0) (.vslide1dn k vm (rD w) (rA w) (rB w))
  | 0x14 => need (kVvVxVi k && sub == 0) (.vgather k vm (rD w) (rA w) (rB w))
  | 0x15 => need (k == .vv && sub == 0 && vm) (.vcompress (rD w) (rA w) (rB w))
  | 0x16 => need (kVxVi k && sub == 0) (.vrotl k vm (rD w) (rA w) (rB w))
  | 0x17 => need (k == .vv && sub == 0 && fld w 16 5 == 0) (.vmvxs vm (rD w) (rB w))
  | 0x18 => need (k == .vx && sub == 0 && fld w 11 5 == 0) (.vmvsx vm (rD w) (rA w))
  | 0x1c => need (k == .vv && sub == 0 && fld w 16 5 == 0) (.vxq vm (rD w) (rB w))
  | 0x1d => need (k == .vv && sub == 0 && fld w 21 5 == 0) (.vxqw vm (rA w) (rB w))
  | 0x1e => (ScanOp.ofCode sub).bind fun op => need (k == .vv) (.vscan op vm (rD w) (rA w) (rB w))
  | _ => none

/-- Major 0x20 (R85, R88). -/
def decVPerm (w : Nat) : Option Instr :=
  (VKind.ofCode (fld w 2 2)).bind fun k => decVPermK w k (fld w 0 2) (bit w 10)

/-- Major 0x21 (R88). -/
def decVMask (w : Nat) : Option Instr :=
  if fld w 0 4 == 0 then
    match fld w 4 6 with
    | 0 => need (bit w 10) (.vmand (rD w) (rA w) (rB w))
    | 1 => need (bit w 10) (.vmor (rD w) (rA w) (rB w))
    | 2 => need (bit w 10) (.vmxor (rD w) (rA w) (rB w))
    | 3 => need (bit w 10) (.vmandn (rD w) (rA w) (rB w))
    | 4 => need (bit w 10) (.vmnand (rD w) (rA w) (rB w))
    | 8 => need (fld w 16 5 == 0) (.vmpop (bit w 10) (rD w) (rB w))
    | 9 => need (fld w 16 5 == 0) (.vmfirst (bit w 10) (rD w) (rB w))
    | 10 => need (fld w 16 5 == 0) (.viota (bit w 10) (rD w) (rB w))
    | 11 => need (fld w 16 5 == 0 && fld w 11 5 == 0) (.vid (bit w 10) (rD w))
    | _ => none
  else none

/-- Major 0x22 with its width and hint (R89). -/
def decVLoadE (w : Nat) (e : Eew) (h : Hint) : Option Instr :=
  match fld w 7 3 with
  | 0 => need (fld w 11 5 == 0) (.vle e h (bit w 10) (rD w) (rA w))
  | 1 => some (.vlse e h (bit w 10) (rD w) (rA w) (rB w))
  | 2 => some (.vlxe e h (bit w 10) (rD w) (rA w) (rB w))
  | 3 => need (fld w 11 5 == 0) (.vleff e h (bit w 10) (rD w) (rA w))
  | 4 => some (.vlsc e h (bit w 10) (rD w) (rA w) (rB w))
  | _ => none
/-- Major 0x23 with its width and hint (R89). -/
def decVStoreE (w : Nat) (e : Eew) (h : Hint) : Option Instr :=
  match fld w 7 3 with
  | 0 => need (fld w 11 5 == 0) (.vse e h (bit w 10) (rD w) (rA w))
  | 1 => some (.vsse e h (bit w 10) (rD w) (rA w) (rB w))
  | 2 => some (.vsxe e h (bit w 10) (rD w) (rA w) (rB w))
  | 4 => some (.vssc e h (bit w 10) (rD w) (rA w) (rB w))
  | _ => none
/-- Major 0x22 (R89). -/
def decVLoad (w : Nat) : Option Instr :=
  if fld w 2 2 == 0 then
    (Eew.ofCode (fld w 4 3)).bind fun e => (Hint.ofCode (fld w 0 2)).bind fun h => decVLoadE w e h
  else none
/-- Major 0x23 (R89). -/
def decVStore (w : Nat) : Option Instr :=
  if fld w 2 2 == 0 then
    (Eew.ofCode (fld w 4 3)).bind fun e => (Hint.ofCode (fld w 0 2)).bind fun h => decVStoreE w e h
  else none
/-- Major 0x24 (R90). -/
def decVAtomic (w : Nat) : Option Instr :=
  (AWidth.ofCode (fld w 2 2)).bind fun z => (Order.ofCode (fld w 0 2)).bind fun r =>
    match fld w 8 2 with
    | 0 => (AmoOp.ofCode (fld w 4 4)).map fun op => .vamo op r z (bit w 10) (rD w) (rA w) (rB w)
    | 1 => (WCond.ofCode (fld w 4 4)).map fun c => .vwait c r z (bit w 10) (rD w) (rA w) (rB w)
    | 2 => (RrsOp.ofCode (fld w 4 4)).map fun op => .vrrs op r z (bit w 10) (rD w) (rA w) (rB w)
    | _ => none
/-- Major 0x25 (R91). -/
def decLane (w : Nat) : Option Instr :=
  match fld w 13 3 with
  | 6 => need (fld w 16 5 == 0) (.vsplit (rD w) (BitVec.ofNat 13 w))
  | 7 => need (fld w 16 10 == 0 && fld w 0 13 == 0) .vjoin
  | n => (LCond.ofCode n).map fun c => .lbr c (rD w) (rA w) (BitVec.ofNat 13 w)
/-- The accumulator named at [22:21] (R92). -/
def acD (w : Nat) : Acc := BitVec.ofNat 2 (w / 2 ^ 21)
/-- The accumulator named at [12:11] (R92). -/
def acB (w : Nat) : Acc := BitVec.ofNat 2 (w / 2 ^ 11)
/-- Major 0x26 with its type (R92, R378). -/
def decMatrixT (w : Nat) (t : Ty) : Option Instr :=
  match fld w 4 6 with
  | 0 => need (t == .none && fld w 23 3 == 0 && fld w 11 10 == 0 && bit w 10) (.mzero (acD w))
  | 1 => need (mholdOk t (rB w) && fld w 21 5 == 0) (.mhold t (bit w 10) (rA w) (rB w))
  | 2 => need (mopOk t && fld w 23 3 == 0) (.mop t (bit w 10) (acD w) (rA w) (rB w))
  | 3 => need (mopOk t && t != .lg6 && fld w 23 3 == 0) (.mops t (bit w 10) (acD w) (rA w) (rB w))
  | 4 => need (mopOk t && fld w 23 3 == 0 && fld w 11 5 == 0) (.mhmul t (bit w 10) (acD w) (rA w))
  | 5 => need (t == .f32 && fld w 13 3 == 0) (.mrd (bit w 10) (acB w) (rD w) (rA w))
  | 6 => need (t == .f32 && fld w 13 3 == 0) (.mwr (bit w 10) (acB w) (rD w) (rA w))
  | _ => none
/-- Major 0x26 (R92). -/
def decMatrix (w : Nat) : Option Instr := (Ty.ofCode (fld w 0 4)).bind (decMatrixT w)
/-- The tile name at [21:18] of a short tile word (R69). -/
def tN (w : Nat) : TName := BitVec.ofNat 4 (w / 2 ^ 18)
/-- The ra field of a short tile word, [17:13] (R69). -/
def tA (w : Nat) : Reg := BitVec.ofNat 5 (w / 2 ^ 13)
/-- The rb field of a short tile word, [12:8] (R69). -/
def tB (w : Nat) : Reg := BitVec.ofNat 5 (w / 2 ^ 8)
/-- What a decoder answers for the rows whose constructors the compiler cannot build (a compiled constructor with fields
needs an index below 244): TBAR, TLAUNCH and the long forms. `longForms` answers the instructions themselves; a machine that
runs an instruction as it decodes it answers their meanings. -/
structure LongForms (α : Type) where
  tbar : Reg → BitVec 4 → α
  tlaunch : Reg → Reg → α
  tld : Hint → Bool → Ty → TName → Reg → Reg → α
  tldPb : Hint → Bool → TName → Reg → BitVec 16 → α
  tst : Hint → Bool → Ty → TName → Reg → Reg → α
  tstPb : Hint → Bool → TName → Reg → BitVec 16 → α
  tcpy : Bool → TName → TName → α
  tcpyPb : Hint → Bool → Reg → BitVec 16 → α
  tzero : Bool → TName → α
  tcoll : Hint → Bool → CollOp → TName → TName → Reg → Reg → α
  tmma : Bool → Bool → Acc → TName → TName → TName → α
  tmmas : Bool → Bool → Acc → TName → TName → TName → α
  tmmv : Bool → Bool → Acc → TName → TName → TName → α
  tmap : BitVec 8 → Bool → TName → TName → TName → Reg → Reg → α
  tred : BitVec 8 → Bool → TName → TName → TName → Reg → Reg → α
  tsend : TName → Reg → Reg → BitVec 4 → α
  trecv : TName → Reg → BitVec 4 → α
  tdiscard : Reg → Reg → α
  fbias : Bool → Reg → Reg → BitVec 16 → α
  fstat : Reg → BitVec 2 → α

/-- The rows' own instructions. -/
noncomputable def longForms : LongForms Instr :=
  ⟨.tbar, .tlaunch, .tld, .tldPb, .tst, .tstPb, .tcpy, .tcpyPb, .tzero, .tcoll, .tmma, .tmmas, .tmmv, .tmap, .tred, 
    .tsend, .trecv, .tdiscard, .fbias, .fstat⟩

/-- The answers with a function applied to each. -/
def mapForms {α β : Type} (g : α → β) (f : LongForms α) : LongForms β where
  tbar a b := g (f.tbar a b)
  tlaunch a b := g (f.tlaunch a b)
  tld a b c d e i := g (f.tld a b c d e i)
  tldPb a b c d e := g (f.tldPb a b c d e)
  tst a b c d e i := g (f.tst a b c d e i)
  tstPb a b c d e := g (f.tstPb a b c d e)
  tcpy a b c := g (f.tcpy a b c)
  tcpyPb a b c d := g (f.tcpyPb a b c d)
  tzero a b := g (f.tzero a b)
  tcoll a b c d e i j := g (f.tcoll a b c d e i j)
  tmma a b c d e i := g (f.tmma a b c d e i)
  tmmas a b c d e i := g (f.tmmas a b c d e i)
  tmmv a b c d e i := g (f.tmmv a b c d e i)
  tmap a b c d e i j := g (f.tmap a b c d e i j)
  tred a b c d e i j := g (f.tred a b c d e i j)
  tsend a b c d := g (f.tsend a b c d)
  trecv a b c := g (f.trecv a b c)
  tdiscard a b := g (f.tdiscard a b)
  fbias a b c d := g (f.fbias a b c d)
  fstat a b := g (f.fstat a b)

/-- One answer for every long form. -/
def constForms {α : Type} (d : α) : LongForms α :=
  ⟨fun _ _ => d, fun _ _ => d, fun _ _ _ _ _ _ => d, fun _ _ _ _ _ => d, fun _ _ _ _ _ _ => d, fun _ _ _ _ _ => d
  , fun _ _ _ => d, fun _ _ _ _ => d, fun _ _ => d, fun _ _ _ _ _ _ _ => d, fun _ _ _ _ _ _ => d, fun _ _ _ _ _ _ => d
  , fun _ _ _ _ _ _ => d, fun _ _ _ _ _ _ _ => d, fun _ _ _ _ _ _ _ => d, fun _ _ _ _ => d, fun _ _ _ => d, fun _ _ => d
  , fun _ _ _ _ => d, fun _ _ => d⟩

/-- The rows of major 0x3E but TBAR and TLAUNCH (R93, R176). -/
def decTileShort (w : Nat) : Option Instr :=
  match fld w 22 4 with
  | 0 => need (fld w 0 13 == 0) (.tdef (tN w) (tA w))
  | 1 => need (fld w 18 4 == 0 && fld w 0 13 == 0) (.tshape (tA w))
  | 2 => need (fld w 0 18 == 0) (.tfree (tN w))
  | 3 => need (fld w 2 11 == 0 && twaitOk (tA w) (BitVec.ofNat 2 w)) (.twait (tN w) (tA w) (BitVec.ofNat 2 w))
  | 4 => need (fld w 2 11 == 0) (.tchk (tN w) (tA w) (BitVec.ofNat 2 w))
  | 5 => need (fld w 0 13 == 0) (.tacq (tN w) (tA w))
  | 6 =>
    match fld w 0 8 with
    | 0 => need (fld w 18 4 == 0) (.tsignal (tA w) (tB w))
    | 1 => need (fld w 18 4 == 0) (.tsignalAdd (tA w) (tB w))
    | _ => none
  | 8 => need (fld w 0 22 == 0) .tend
  | _ => none
/-- Major 0x3E (R93, R176). -/
def decTile {α : Type} (k : Instr → α) (f : LongForms α) (w : Nat) : Option α :=
  if fld w 22 4 = 7 then need (fld w 18 4 == 0 && fld w 4 9 == 0) (f.tbar (tA w) (BitVec.ofNat 4 w))
  else if fld w 22 4 = 9 then need (fld w 18 4 == 0 && fld w 0 8 == 0) (f.tlaunch (tA w) (tB w))
  else (decTileShort w).map k
/-- The ra field of a long form, [19:15] (R70). -/
def lA (w : Nat) : Reg := BitVec.ofNat 5 (w / 2 ^ 15)
/-- The rb field of a long form, [14:10] (R70). -/
def lB (w : Nat) : Reg := BitVec.ofNat 5 (w / 2 ^ 10)
/-- td of the second word (R70). -/
def xD (v : Nat) : TName := BitVec.ofNat 4 (v / 2 ^ 28)
/-- ta of the second word (R70). -/
def xA (v : Nat) : TName := BitVec.ofNat 4 (v / 2 ^ 24)
/-- tb of the second word (R70). -/
def xB (v : Nat) : TName := BitVec.ofNat 4 (v / 2 ^ 20)
/-- imm16 of the second word (R70). -/
def xI (v : Nat) : BitVec 16 := BitVec.ofNat 16 v
/-- The type code of the second word (R70). -/
def xT (v : Nat) : Option Ty := Ty.ofCode (fld v 16 4)
/-- TLD, TST and TCPY_PB take a hint; their ctl10 has pb, hint and ev, with op 0 (R242, R243). -/
def decCopy {α : Type} (f : LongForms α) (w v : Nat) (h : Hint) : Option α :=
  match fld w 20 6, fld w 0 1 with
  | 1, 0 => (xT v).bind fun t => need (fld v 0 16 == 0 && fld v 20 8 == 0) (f.tld h (bit w 3) t (xD v) (lA w) (lB w))
  | 1, _ => need (fld v 16 12 == 0 && fld w 10 5 == 0) (f.tldPb h (bit w 3) (xD v) (lA w) (xI v))
  | 2, 0 => (xT v).bind fun t =>
      need (fld v 0 16 == 0 && fld v 20 4 == 0 && fld v 28 4 == 0) (f.tst h (bit w 3) t (xA v) (lA w) (lB w))
  | 2, _ => need (fld v 16 8 == 0 && fld v 28 4 == 0 && fld w 10 5 == 0) (f.tstPb h (bit w 3) (xA v) (lA w) (xI v))
  | 3, 0 => need (fld v 0 24 == 0 && fld w 10 10 == 0 && fld w 1 2 == 0) (f.tcpy (bit w 3) (xD v) (xA v))
  | 3, _ => need (fld v 16 16 == 0 && fld w 10 5 == 0) (f.tcpyPb h (bit w 3) (lA w) (xI v))
  | 4, 0 => need (fld v 0 28 == 0 && fld w 10 10 == 0 && fld w 1 2 == 0) (f.tzero (bit w 3) (xD v))
  | _, _ => none
/-- TMMA, TMMAS and TMMV, whose fields agree (R388). -/
def decTmm {α : Type} (w v : Nat) (mk : Bool → Bool → Acc → TName → TName → TName → α) : Option α :=
  need (fld w 4 16 == 0 && fld v 0 20 == 0 && (bit w 3 || fld v 28 4 == 0))
    (mk (bit w 2) (bit w 3) (BitVec.ofNat 2 w) (xD v) (xA v) (xB v))
/-- TMAP and TRED, whose fields agree (R344). -/
def decTmap {α : Type} (w v : Nat) (mk : BitVec 8 → Bool → TName → TName → TName → Reg → Reg → α) : Option α :=
  need (fld w 9 1 == 0 && fld v 0 20 == 0 && (bit w 8 || fld v 20 4 == 0))
    (mk (BitVec.ofNat 8 w) (bit w 8) (xD v) (xA v) (xB v) (lA w) (lB w))
/-- Major 0x3F (R70, R93). -/
def decLong {α : Type} (f : LongForms α) (w v : Nat) : Option α :=
  match fld w 20 6 with
  | 1 | 2 | 3 | 4 =>
    if fld w 4 6 == 0 then (Hint.ofCode (fld w 1 2)).bind (decCopy f w v) else none
  | 5 => (Hint.ofCode (fld w 1 2)).bind fun h => (CollOp.ofCode (fld w 4 6)).bind fun op =>
      need (fld w 0 1 == 0 && fld v 0 24 == 0) (f.tcoll h (bit w 3) op (xD v) (xA v) (lA w) (lB w))
  | 8 => decTmm w v f.tmma
  | 9 => decTmm w v f.tmmas
  | 0xA => decTmm w v f.tmmv
  | 0xC => decTmap w v f.tmap
  | 0xD => decTmap w v f.tred
  | 0x10 => need (fld w 0 10 == 0 && fld v 4 20 == 0 && fld v 28 4 == 0)
      (f.tsend (xA v) (lA w) (lB w) (BitVec.ofNat 4 v))
  | 0x11 => need (fld w 0 15 == 0 && fld v 4 24 == 0) (f.trecv (xD v) (lA w) (BitVec.ofNat 4 v))
  | 0x14 => need (fld w 0 10 == 0 && v == 0) (f.tdiscard (lA w) (lB w))
  | 0x18 => need (fld w 1 9 == 0 && fld v 16 16 == 0) (f.fbias (bit w 0) (lA w) (lB w) (xI v))
  | 0x19 => need (fld w 0 15 == 0 && fld v 2 30 == 0) (f.fstat (lA w) (BitVec.ofNat 2 v))
  | _ => none

/-- A decoded word, or its rejection under the name given. -/
def orReject {α : Type} (e : DecodeError) (i : Option α) : Except DecodeError α :=
  match i with
  | some i => .ok i
  | none => .error e

/-- Decodes a first word w and, for a long form, a second word v (R67, R68, R73), and answers k of the instruction, or of
a long form what f says. -/
def decodeWith {α : Type} (k : Instr → α) (f : LongForms α) (w v : Nat) : Except DecodeError α :=
  if w == 0 || w == 0xFFFFFFFF then .error .illegalWord
  else
    match fld w 26 6 with
    | 0x01 => orReject .reservedField ((decOp w).map k)
    | 0x02 => .ok (k (.addi (rD w) (rA w) (BitVec.ofNat 16 w)))
    | 0x03 => .ok (k (.andi (rD w) (rA w) (BitVec.ofNat 16 w)))
    | 0x04 => .ok (k (.ori (rD w) (rA w) (BitVec.ofNat 16 w)))
    | 0x05 => .ok (k (.xori (rD w) (rA w) (BitVec.ofNat 16 w)))
    | 0x06 => orReject .reservedField ((decShiftImm w).map k)
    | 0x07 => orReject .reservedField ((decSetImm w).map k)
    | 0x08 => .ok (k (.lui (rD w) (BitVec.ofNat 21 w)))
    | 0x09 => .ok (k (.auipc (rD w) (BitVec.ofNat 21 w)))
    | 0x0A => orReject .reservedField ((decFp w).map k)
    | 0x0B => orReject .reservedField ((decMul w).map k)
    | 0x0C => orReject .reservedField ((decLoad w).map k)
    | 0x0D => orReject .reservedField ((decStore w).map k)
    | 0x0E => orReject .reservedField ((decAtomic w).map k)
    | 0x0F => orReject .reservedField ((decFence w).map k)
    | 0x10 => orReject .reservedField ((decBranch w).map k)
    | 0x11 => .ok (k (.jal (rD w) (BitVec.ofNat 21 w)))
    | 0x12 => .ok (k (.jalr (rD w) (rA w) (BitVec.ofNat 16 w)))
    | 0x13 => orReject .reservedField ((decJt w).map k)
    | 0x14 => orReject .reservedField ((decBstrip w).map k)
    | 0x15 => orReject .reservedField ((decSystem w).map k)
    | 0x16 => orReject .reservedField ((decCtl w).map k)
    | 0x17 => orReject .reservedField ((decSteward w).map k)
    | 0x1C => orReject .reservedField ((decVConfig w).map k)
    | 0x1D => orReject .reservedVector ((decVInt w).map k)
    | 0x1E => orReject .reservedVector ((decVFp w).map k)
    | 0x1F => orReject .reservedVector ((decVLog w).map k)
    | 0x20 => orReject .reservedVector ((decVPerm w).map k)
    | 0x21 => orReject .reservedVector ((decVMask w).map k)
    | 0x22 => orReject .reservedVector ((decVLoad w).map k)
    | 0x23 => orReject .reservedVector ((decVStore w).map k)
    | 0x24 => orReject .reservedVector ((decVAtomic w).map k)
    | 0x25 => orReject .reservedVector ((decLane w).map k)
    | 0x26 => orReject .reservedVector ((decMatrix w).map k)
    | 0x3E => orReject .reservedField (decTile k f w)
    | 0x3F => if v == 0xFFFFFFFF then .error .illegalWord else orReject .reservedField (decLong f w v)
    | _ => .error .reservedMajor

/-- What a 32-bit word's instruction is to `k`; `d` where it is none, or a long form. -/
def wordIs {α : Type} (k : Instr → α) (d : α) (w : Nat) : α :=
  match decodeWith k (constForms d) w 0 with
  | .ok a => a
  | .error _ => d

/-- The instruction of a first word w and, for a long form, a second word v (R67, R68, R73). -/
noncomputable def decodeWords (w v : Nat) : Except DecodeError Instr := decodeWith (fun i => i) longForms w v


/-- A required field keeps its condition under k. -/
theorem need_map {α β : Type} (k : α → β) (c : Bool) (i : α) : (need c i).map k = need c (k i) := by
  cases c <;> rfl

/-- A rejection stays a rejection under k. -/
theorem orReject_map {α β : Type} (e : DecodeError) (k : α → β) (o : Option α) :
    (orReject e o).map k = orReject e (o.map k) := by cases o <;> rfl

/-- decTile follows k. -/
theorem decTile_map {α β : Type} (k : α → β) (j : Instr → α) (f : LongForms α) (w : Nat) :
    (decTile j f w).map k = decTile (fun i => k (j i)) (mapForms k f) w := by
  unfold decTile
  split
  · exact need_map ..
  · split
    · exact need_map ..
    · rw [Option.map_map]; rfl

/-- decCopy follows k. -/
theorem decCopy_map {α β : Type} (k : α → β) (f : LongForms α) (w v : Nat) (h : Hint) :
    (decCopy f w v h).map k = decCopy (mapForms k f) w v h := by
  unfold decCopy
  split <;> first | exact need_map .. | rfl | (cases xT v <;> first | rfl | exact need_map ..)

/-- decLong follows k. -/
theorem decLong_map {α β : Type} (k : α → β) (f : LongForms α) (w v : Nat) :
    (decLong f w v).map k = decLong (mapForms k f) w v := by
  unfold decLong
  split
  all_goals try first | exact need_map .. | rfl
  iterate 4
    · split
      · cases Hint.ofCode (fld w 1 2) <;> first | rfl | exact decCopy_map ..
      · rfl
  cases Hint.ofCode (fld w 1 2) <;> cases CollOp.ofCode (fld w 4 6) <;> first | rfl | exact need_map ..

/-- decodeWith follows k. -/
theorem decodeWith_map {α β : Type} (k : α → β) (j : Instr → α) (f : LongForms α) (w v : Nat) :
    (decodeWith j f w v).map k = decodeWith (fun i => k (j i)) (mapForms k f) w v := by
  unfold decodeWith
  split
  · rfl
  · split <;> first | rfl | (rw [orReject_map, Option.map_map]; rfl) | (rw [orReject_map, decTile_map]) | skip
    split <;> first | rfl | rw [orReject_map, decLong_map]

/-- Decoding with k answers k of the decoded instruction (log 19). -/
theorem decodeWith_eq {α : Type} (k : Instr → α) (w v : Nat) :
    decodeWith k (mapForms k longForms) w v = (decodeWords w v).map k := (decodeWith_map k _ _ w v).symm

/-- A word is the first of a long form when its major is 0x3F (R69). The word of all ones is not (R68). -/
def isLong (w : Nat) : Bool := fld w 26 6 == 0x3F && w != 0xFFFFFFFF

/-- The little-endian value of some bytes (R7). -/
def leNat : List Byte → Nat
  | [] => 0
  | b :: bs => b.toNat + 256 * leNat bs

/-- The low n bytes of a value, little-endian (R7). -/
def leBytes : Nat → Nat → List Byte
  | 0, _ => []
  | n + 1, v => BitVec.ofNat 8 v :: leBytes n (v / 256)

/-- Decodes the instruction at the head of a list of bytes and gives the bytes after it (R67). -/
noncomputable def decode (bs : List Byte) : Except DecodeError (Instr × List Byte) :=
  match bs with
  | b0 :: b1 :: b2 :: b3 :: rest =>
    if isLong (leNat [b0, b1, b2, b3]) then
      match rest with
      | c0 :: c1 :: c2 :: c3 :: rest' =>
        (decodeWords (leNat [b0, b1, b2, b3]) (leNat [c0, c1, c2, c3])).map fun i => (i, rest')
      | _ => .error .short
    else (decodeWords (leNat [b0, b1, b2, b3]) 0).map fun i => (i, rest)
  | _ => .error .short

/-- The instruction of an opcode-table word of nbits bits, bit 0 the least significant of the first word; the bits
above nbits are 0. -/
noncomputable def decodeTableWord (nbits w : Nat) : Option Instr :=
  match decode (leBytes 8 (w % 2 ^ nbits)) with
  | .ok (i, _) => some i
  | .error _ => none

/-- A word with the fields at bits 21, 16, 11 over its fixed bits. -/
def pk21_16_11 (b x0 x1 x2 : Nat) : Nat := b + x0 * 2 ^ 21 + x1 * 2 ^ 16 + x2 * 2 ^ 11

/-- A word with the fields at bits 21, 16 over its fixed bits. -/
def pk21_16 (b x0 x1 : Nat) : Nat := b + x0 * 2 ^ 21 + x1 * 2 ^ 16

/-- A word with the fields at bits 21, 16, 0 over its fixed bits. -/
def pk21_16_0 (b x0 x1 x2 : Nat) : Nat := b + x0 * 2 ^ 21 + x1 * 2 ^ 16 + x2

/-- A word with the fields at bits 21, 0 over its fixed bits. -/
def pk21_0 (b x0 x1 : Nat) : Nat := b + x0 * 2 ^ 21 + x1

/-- A word with the fields at bits 0, 3, 21, 16, 11 over its fixed bits. -/
def pk0_3_21_16_11 (b x0 x1 x2 x3 x4 : Nat) : Nat := b + x0 + x1 * 2 ^ 3 + x2 * 2 ^ 21 + x3 * 2 ^ 16 + x4 * 2 ^ 11

/-- A word with the fields at bits 0, 3, 21, 16 over its fixed bits. -/
def pk0_3_21_16 (b x0 x1 x2 x3 : Nat) : Nat := b + x0 + x1 * 2 ^ 3 + x2 * 2 ^ 21 + x3 * 2 ^ 16

/-- A word with the fields at bits 0, 21, 16, 11 over its fixed bits. -/
def pk0_21_16_11 (b x0 x1 x2 x3 : Nat) : Nat := b + x0 + x1 * 2 ^ 21 + x2 * 2 ^ 16 + x3 * 2 ^ 11

/-- A word with the fields at bits 0, 21, 16 over its fixed bits. -/
def pk0_21_16 (b x0 x1 x2 : Nat) : Nat := b + x0 + x1 * 2 ^ 21 + x2 * 2 ^ 16

/-- A word with the fields at bits 0, 3, 11, 21, 16 over its fixed bits. -/
def pk0_3_11_21_16 (b x0 x1 x2 x3 x4 : Nat) : Nat := b + x0 + x1 * 2 ^ 3 + x2 * 2 ^ 11 + x3 * 2 ^ 21 + x4 * 2 ^ 16

/-- A word with the fields at bits 13, 21, 16, 0 over its fixed bits. -/
def pk13_21_16_0 (b x0 x1 x2 x3 : Nat) : Nat := b + x0 * 2 ^ 13 + x1 * 2 ^ 21 + x2 * 2 ^ 16 + x3

/-- A word with the fields at bits 7, 5, 3, 0, 21, 16, 11 over its fixed bits. -/
def pk7_5_3_0_21_16_11 (b x0 x1 x2 x3 x4 x5 x6 : Nat) : Nat := b + x0 * 2 ^ 7 + x1 * 2 ^ 5 + x2 * 2 ^ 3 + x3 + x4 * 2 ^ 21 + x5 * 2 ^ 16 + x6 * 2 ^ 11

/-- A word with the fields at bits 5, 3, 0, 21, 16, 11 over its fixed bits. -/
def pk5_3_0_21_16_11 (b x0 x1 x2 x3 x4 x5 : Nat) : Nat := b + x0 * 2 ^ 5 + x1 * 2 ^ 3 + x2 + x3 * 2 ^ 21 + x4 * 2 ^ 16 + x5 * 2 ^ 11

/-- A word with the fields at bits 5, 0, 21, 16, 11 over its fixed bits. -/
def pk5_0_21_16_11 (b x0 x1 x2 x3 x4 : Nat) : Nat := b + x0 * 2 ^ 5 + x1 + x2 * 2 ^ 21 + x3 * 2 ^ 16 + x4 * 2 ^ 11

/-- A word with the fields at bits 3, 0, 21, 16 over its fixed bits. -/
def pk3_0_21_16 (b x0 x1 x2 x3 : Nat) : Nat := b + x0 * 2 ^ 3 + x1 + x2 * 2 ^ 21 + x3 * 2 ^ 16

/-- A word with the fields at bits 3, 0, 16, 11 over its fixed bits. -/
def pk3_0_16_11 (b x0 x1 x2 x3 : Nat) : Nat := b + x0 * 2 ^ 3 + x1 + x2 * 2 ^ 16 + x3 * 2 ^ 11

/-- A word with the fields at bits 10, 7 over its fixed bits. -/
def pk10_7 (b x0 x1 : Nat) : Nat := b + x0 * 2 ^ 10 + x1 * 2 ^ 7

/-- A word with the fields at bits 16, 0 over its fixed bits. -/
def pk16_0 (b x0 x1 : Nat) : Nat := b + x0 * 2 ^ 16 + x1

/-- A word with the fields at bits 16, 11 over its fixed bits. -/
def pk16_11 (b x0 x1 : Nat) : Nat := b + x0 * 2 ^ 16 + x1 * 2 ^ 11

/-- A word with the fields at bits 21, 16, 9 over its fixed bits. -/
def pk21_16_9 (b x0 x1 x2 : Nat) : Nat := b + x0 * 2 ^ 21 + x1 * 2 ^ 16 + x2 * 2 ^ 9

/-- A word with the fields at bits 9 over its fixed bits. -/
def pk9 (b x0 : Nat) : Nat := b + x0 * 2 ^ 9

/-- A word with the fields at bits 2, 10, 21, 16, 11 over its fixed bits. -/
def pk2_10_21_16_11 (b x0 x1 x2 x3 x4 : Nat) : Nat := b + x0 * 2 ^ 2 + x1 * 2 ^ 10 + x2 * 2 ^ 21 + x3 * 2 ^ 16 + x4 * 2 ^ 11

/-- A word with the fields at bits 2, 21, 16, 11 over its fixed bits. -/
def pk2_21_16_11 (b x0 x1 x2 x3 : Nat) : Nat := b + x0 * 2 ^ 2 + x1 * 2 ^ 21 + x2 * 2 ^ 16 + x3 * 2 ^ 11

/-- A word with the fields at bits 2, 21, 16 over its fixed bits. -/
def pk2_21_16 (b x0 x1 x2 : Nat) : Nat := b + x0 * 2 ^ 2 + x1 * 2 ^ 21 + x2 * 2 ^ 16

/-- A word with the fields at bits 4, 2, 10, 21, 16, 11 over its fixed bits. -/
def pk4_2_10_21_16_11 (b x0 x1 x2 x3 x4 x5 : Nat) : Nat := b + x0 * 2 ^ 4 + x1 * 2 ^ 2 + x2 * 2 ^ 10 + x3 * 2 ^ 21 + x4 * 2 ^ 16 + x5 * 2 ^ 11

/-- A word with the fields at bits 2, 0, 10, 21, 16, 11 over its fixed bits. -/
def pk2_0_10_21_16_11 (b x0 x1 x2 x3 x4 x5 : Nat) : Nat := b + x0 * 2 ^ 2 + x1 + x2 * 2 ^ 10 + x3 * 2 ^ 21 + x4 * 2 ^ 16 + x5 * 2 ^ 11

/-- A word with the fields at bits 0, 10, 21, 11 over its fixed bits. -/
def pk0_10_21_11 (b x0 x1 x2 x3 : Nat) : Nat := b + x0 + x1 * 2 ^ 10 + x2 * 2 ^ 21 + x3 * 2 ^ 11

/-- A word with the fields at bits 16, 0, 1, 10, 21, 11 over its fixed bits. -/
def pk16_0_1_10_21_11 (b x0 x1 x2 x3 x4 x5 : Nat) : Nat := b + x0 * 2 ^ 16 + x1 + x2 * 2 ^ 1 + x3 * 2 ^ 10 + x4 * 2 ^ 21 + x5 * 2 ^ 11

/-- A word with the fields at bits 4, 2, 0, 10, 21, 16, 11 over its fixed bits. -/
def pk4_2_0_10_21_16_11 (b x0 x1 x2 x3 x4 x5 x6 : Nat) : Nat := b + x0 * 2 ^ 4 + x1 * 2 ^ 2 + x2 + x3 * 2 ^ 10 + x4 * 2 ^ 21 + x5 * 2 ^ 16 + x6 * 2 ^ 11

/-- A word with the fields at bits 10, 21, 16, 11 over its fixed bits. -/
def pk10_21_16_11 (b x0 x1 x2 x3 : Nat) : Nat := b + x0 * 2 ^ 10 + x1 * 2 ^ 21 + x2 * 2 ^ 16 + x3 * 2 ^ 11

/-- A word with the fields at bits 0, 1, 10, 21, 11 over its fixed bits. -/
def pk0_1_10_21_11 (b x0 x1 x2 x3 x4 : Nat) : Nat := b + x0 + x1 * 2 ^ 1 + x2 * 2 ^ 10 + x3 * 2 ^ 21 + x4 * 2 ^ 11

/-- A word with the fields at bits 0, 10, 21, 16, 11 over its fixed bits. -/
def pk0_10_21_16_11 (b x0 x1 x2 x3 x4 : Nat) : Nat := b + x0 + x1 * 2 ^ 10 + x2 * 2 ^ 21 + x3 * 2 ^ 16 + x4 * 2 ^ 11

/-- A word with the fields at bits 10, 21, 11 over its fixed bits. -/
def pk10_21_11 (b x0 x1 x2 : Nat) : Nat := b + x0 * 2 ^ 10 + x1 * 2 ^ 21 + x2 * 2 ^ 11

/-- A word with the fields at bits 10, 21, 16 over its fixed bits. -/
def pk10_21_16 (b x0 x1 x2 : Nat) : Nat := b + x0 * 2 ^ 10 + x1 * 2 ^ 21 + x2 * 2 ^ 16

/-- A word with the fields at bits 10, 16, 11 over its fixed bits. -/
def pk10_16_11 (b x0 x1 x2 : Nat) : Nat := b + x0 * 2 ^ 10 + x1 * 2 ^ 16 + x2 * 2 ^ 11

/-- A word with the fields at bits 10, 21 over its fixed bits. -/
def pk10_21 (b x0 x1 : Nat) : Nat := b + x0 * 2 ^ 10 + x1 * 2 ^ 21

/-- A word with the fields at bits 4, 0, 10, 21, 16 over its fixed bits. -/
def pk4_0_10_21_16 (b x0 x1 x2 x3 x4 : Nat) : Nat := b + x0 * 2 ^ 4 + x1 + x2 * 2 ^ 10 + x3 * 2 ^ 21 + x4 * 2 ^ 16

/-- A word with the fields at bits 4, 0, 10, 21, 16, 11 over its fixed bits. -/
def pk4_0_10_21_16_11 (b x0 x1 x2 x3 x4 x5 : Nat) : Nat := b + x0 * 2 ^ 4 + x1 + x2 * 2 ^ 10 + x3 * 2 ^ 21 + x4 * 2 ^ 16 + x5 * 2 ^ 11

/-- A word with the fields at bits 4, 0, 2, 10, 21, 16, 11 over its fixed bits. -/
def pk4_0_2_10_21_16_11 (b x0 x1 x2 x3 x4 x5 x6 : Nat) : Nat := b + x0 * 2 ^ 4 + x1 + x2 * 2 ^ 2 + x3 * 2 ^ 10 + x4 * 2 ^ 21 + x5 * 2 ^ 16 + x6 * 2 ^ 11

/-- A word with the fields at bits 21 over its fixed bits. -/
def pk21 (b x0 : Nat) : Nat := b + x0 * 2 ^ 21

/-- A word with the fields at bits 0, 10, 16, 11 over its fixed bits. -/
def pk0_10_16_11 (b x0 x1 x2 x3 : Nat) : Nat := b + x0 + x1 * 2 ^ 10 + x2 * 2 ^ 16 + x3 * 2 ^ 11

/-- A word with the fields at bits 0, 10, 21, 16 over its fixed bits. -/
def pk0_10_21_16 (b x0 x1 x2 x3 : Nat) : Nat := b + x0 + x1 * 2 ^ 10 + x2 * 2 ^ 21 + x3 * 2 ^ 16

/-- A word with the fields at bits 10, 11, 21, 16 over its fixed bits. -/
def pk10_11_21_16 (b x0 x1 x2 x3 : Nat) : Nat := b + x0 * 2 ^ 10 + x1 * 2 ^ 11 + x2 * 2 ^ 21 + x3 * 2 ^ 16

/-- A word with the fields at bits 18, 13 over its fixed bits. -/
def pk18_13 (b x0 x1 : Nat) : Nat := b + x0 * 2 ^ 18 + x1 * 2 ^ 13

/-- A word with the fields at bits 13 over its fixed bits. -/
def pk13 (b x0 : Nat) : Nat := b + x0 * 2 ^ 13

/-- A word with the fields at bits 18 over its fixed bits. -/
def pk18 (b x0 : Nat) : Nat := b + x0 * 2 ^ 18

/-- A word with the fields at bits 18, 13, 0 over its fixed bits. -/
def pk18_13_0 (b x0 x1 x2 : Nat) : Nat := b + x0 * 2 ^ 18 + x1 * 2 ^ 13 + x2

/-- A word with the fields at bits 13, 8 over its fixed bits. -/
def pk13_8 (b x0 x1 : Nat) : Nat := b + x0 * 2 ^ 13 + x1 * 2 ^ 8

/-- A word with the fields at bits 13, 0 over its fixed bits. -/
def pk13_0 (b x0 x1 : Nat) : Nat := b + x0 * 2 ^ 13 + x1

/-- A word with the fields at bits 1, 3, 15, 10 over its fixed bits. -/
def pk1_3_15_10 (b x0 x1 x2 x3 : Nat) : Nat := b + x0 * 2 ^ 1 + x1 * 2 ^ 3 + x2 * 2 ^ 15 + x3 * 2 ^ 10

/-- A word with the fields at bits 16, 28 over its fixed bits. -/
def pk16_28 (b x0 x1 : Nat) : Nat := b + x0 * 2 ^ 16 + x1 * 2 ^ 28

/-- A word with the fields at bits 1, 3, 15 over its fixed bits. -/
def pk1_3_15 (b x0 x1 x2 : Nat) : Nat := b + x0 * 2 ^ 1 + x1 * 2 ^ 3 + x2 * 2 ^ 15

/-- A word with the fields at bits 28, 0 over its fixed bits. -/
def pk28_0 (b x0 x1 : Nat) : Nat := b + x0 * 2 ^ 28 + x1

/-- A word with the fields at bits 16, 24 over its fixed bits. -/
def pk16_24 (b x0 x1 : Nat) : Nat := b + x0 * 2 ^ 16 + x1 * 2 ^ 24

/-- A word with the fields at bits 24, 0 over its fixed bits. -/
def pk24_0 (b x0 x1 : Nat) : Nat := b + x0 * 2 ^ 24 + x1

/-- A word with the fields at bits 3 over its fixed bits. -/
def pk3 (b x0 : Nat) : Nat := b + x0 * 2 ^ 3

/-- A word with the fields at bits 28, 24 over its fixed bits. -/
def pk28_24 (b x0 x1 : Nat) : Nat := b + x0 * 2 ^ 28 + x1 * 2 ^ 24

/-- A word with the fields at bits 0 over its fixed bits. -/
def pk0 (b x0 : Nat) : Nat := b + x0

/-- A word with the fields at bits 28 over its fixed bits. -/
def pk28 (b x0 : Nat) : Nat := b + x0 * 2 ^ 28

/-- A word with the fields at bits 1, 3, 4, 15, 10 over its fixed bits. -/
def pk1_3_4_15_10 (b x0 x1 x2 x3 x4 : Nat) : Nat := b + x0 * 2 ^ 1 + x1 * 2 ^ 3 + x2 * 2 ^ 4 + x3 * 2 ^ 15 + x4 * 2 ^ 10

/-- A word with the fields at bits 2, 3, 0 over its fixed bits. -/
def pk2_3_0 (b x0 x1 x2 : Nat) : Nat := b + x0 * 2 ^ 2 + x1 * 2 ^ 3 + x2

/-- A word with the fields at bits 28, 24, 20 over its fixed bits. -/
def pk28_24_20 (b x0 x1 x2 : Nat) : Nat := b + x0 * 2 ^ 28 + x1 * 2 ^ 24 + x2 * 2 ^ 20

/-- A word with the fields at bits 0, 8, 15, 10 over its fixed bits. -/
def pk0_8_15_10 (b x0 x1 x2 x3 : Nat) : Nat := b + x0 + x1 * 2 ^ 8 + x2 * 2 ^ 15 + x3 * 2 ^ 10

/-- A word with the fields at bits 15, 10 over its fixed bits. -/
def pk15_10 (b x0 x1 : Nat) : Nat := b + x0 * 2 ^ 15 + x1 * 2 ^ 10

/-- A word with the fields at bits 15 over its fixed bits. -/
def pk15 (b x0 : Nat) : Nat := b + x0 * 2 ^ 15

/-- A word with the fields at bits 0, 15, 10 over its fixed bits. -/
def pk0_15_10 (b x0 x1 x2 : Nat) : Nat := b + x0 + x1 * 2 ^ 15 + x2 * 2 ^ 10

/-- The first and second word of an instruction, from the encoding tables; a step without an encoding has none. -/
def encodeWords : Instr → Option (Nat × Option Nat)
  | .add rd rs1 rs2 => some (pk21_16_11 0x4000000 rd.toNat rs1.toNat rs2.toNat, none)
  | .sub rd rs1 rs2 => some (pk21_16_11 0x4000001 rd.toNat rs1.toNat rs2.toNat, none)
  | .and rd rs1 rs2 => some (pk21_16_11 0x4000002 rd.toNat rs1.toNat rs2.toNat, none)
  | .or rd rs1 rs2 => some (pk21_16_11 0x4000003 rd.toNat rs1.toNat rs2.toNat, none)
  | .xor rd rs1 rs2 => some (pk21_16_11 0x4000004 rd.toNat rs1.toNat rs2.toNat, none)
  | .andn rd rs1 rs2 => some (pk21_16_11 0x4000005 rd.toNat rs1.toNat rs2.toNat, none)
  | .orn rd rs1 rs2 => some (pk21_16_11 0x4000006 rd.toNat rs1.toNat rs2.toNat, none)
  | .sll rd rs1 rs2 => some (pk21_16_11 0x4000007 rd.toNat rs1.toNat rs2.toNat, none)
  | .srl rd rs1 rs2 => some (pk21_16_11 0x4000008 rd.toNat rs1.toNat rs2.toNat, none)
  | .sra rd rs1 rs2 => some (pk21_16_11 0x4000009 rd.toNat rs1.toNat rs2.toNat, none)
  | .rol rd rs1 rs2 => some (pk21_16_11 0x400000a rd.toNat rs1.toNat rs2.toNat, none)
  | .ror rd rs1 rs2 => some (pk21_16_11 0x400000b rd.toNat rs1.toNat rs2.toNat, none)
  | .slt rd rs1 rs2 => some (pk21_16_11 0x400000c rd.toNat rs1.toNat rs2.toNat, none)
  | .sltn rd rs1 rs2 => some (pk21_16_11 0x400000d rd.toNat rs1.toNat rs2.toNat, none)
  | .min rd rs1 rs2 => some (pk21_16_11 0x400000e rd.toNat rs1.toNat rs2.toNat, none)
  | .max rd rs1 rs2 => some (pk21_16_11 0x400000f rd.toNat rs1.toNat rs2.toNat, none)
  | .minn rd rs1 rs2 => some (pk21_16_11 0x4000010 rd.toNat rs1.toNat rs2.toNat, none)
  | .maxn rd rs1 rs2 => some (pk21_16_11 0x4000011 rd.toNat rs1.toNat rs2.toNat, none)
  | .czeq rd rs1 rs2 => some (pk21_16_11 0x4000012 rd.toNat rs1.toNat rs2.toNat, none)
  | .czne rd rs1 rs2 => some (pk21_16_11 0x4000013 rd.toNat rs1.toNat rs2.toNat, none)
  | .clz rd rs1 => some (pk21_16 0x4000014 rd.toNat rs1.toNat, none)
  | .ctz rd rs1 => some (pk21_16 0x4000015 rd.toNat rs1.toNat, none)
  | .popc rd rs1 => some (pk21_16 0x4000016 rd.toNat rs1.toNat, none)
  | .bswap rd rs1 => some (pk21_16 0x4000017 rd.toNat rs1.toNat, none)
  | .sextb rd rs1 => some (pk21_16 0x4000018 rd.toNat rs1.toNat, none)
  | .sexth rd rs1 => some (pk21_16 0x4000019 rd.toNat rs1.toNat, none)
  | .sextw rd rs1 => some (pk21_16 0x400001a rd.toNat rs1.toNat, none)
  | .zextw rd rs1 => some (pk21_16 0x400001b rd.toNat rs1.toNat, none)
  | .addw rd rs1 rs2 => some (pk21_16_11 0x400001c rd.toNat rs1.toNat rs2.toNat, none)
  | .subw rd rs1 rs2 => some (pk21_16_11 0x400001d rd.toNat rs1.toNat rs2.toNat, none)
  | .sllw rd rs1 rs2 => some (pk21_16_11 0x400001e rd.toNat rs1.toNat rs2.toNat, none)
  | .srlw rd rs1 rs2 => some (pk21_16_11 0x400001f rd.toNat rs1.toNat rs2.toNat, none)
  | .sraw rd rs1 rs2 => some (pk21_16_11 0x4000020 rd.toNat rs1.toNat rs2.toNat, none)
  | .addi rd rs1 imm => some (pk21_16_0 0x8000000 rd.toNat rs1.toNat imm.toNat, none)
  | .andi rd rs1 imm => some (pk21_16_0 0xc000000 rd.toNat rs1.toNat imm.toNat, none)
  | .ori rd rs1 imm => some (pk21_16_0 0x10000000 rd.toNat rs1.toNat imm.toNat, none)
  | .xori rd rs1 imm => some (pk21_16_0 0x14000000 rd.toNat rs1.toNat imm.toNat, none)
  | .slli rd rs1 sh => some (pk21_16_0 0x18000000 rd.toNat rs1.toNat sh.toNat, none)
  | .srli rd rs1 sh => some (pk21_16_0 0x18001000 rd.toNat rs1.toNat sh.toNat, none)
  | .srai rd rs1 sh => some (pk21_16_0 0x18002000 rd.toNat rs1.toNat sh.toNat, none)
  | .addwi rd rs1 imm => some (pk21_16_0 0x18003000 rd.toNat rs1.toNat imm.toNat, none)
  | .slti rd rs1 imm => some (pk21_16_0 0x1c000000 rd.toNat rs1.toNat imm.toNat, none)
  | .sltni rd rs1 imm => some (pk21_16_0 0x1c008000 rd.toNat rs1.toNat imm.toNat, none)
  | .lui rd imm => some (pk21_0 0x20000000 rd.toNat imm.toNat, none)
  | .auipc rd imm => some (pk21_0 0x24000000 rd.toNat imm.toNat, none)
  | .fadd fmt rm rd rs1 rs2 => some (pk0_3_21_16_11 0x28000000 fmt.code rm.code rd.toNat rs1.toNat rs2.toNat, none)
  | .fsub fmt rm rd rs1 rs2 => some (pk0_3_21_16_11 0x28000040 fmt.code rm.code rd.toNat rs1.toNat rs2.toNat, none)
  | .fmul fmt rm rd rs1 rs2 => some (pk0_3_21_16_11 0x28000080 fmt.code rm.code rd.toNat rs1.toNat rs2.toNat, none)
  | .fdiv fmt rm rd rs1 rs2 => some (pk0_3_21_16_11 0x280000c0 fmt.code rm.code rd.toNat rs1.toNat rs2.toNat, none)
  | .fsqrt fmt rm rd rs1 => some (pk0_3_21_16 0x28000100 fmt.code rm.code rd.toNat rs1.toNat, none)
  | .fma fmt rm rd rs1 rs2 => some (pk0_3_21_16_11 0x28000140 fmt.code rm.code rd.toNat rs1.toNat rs2.toNat, none)
  | .fms fmt rm rd rs1 rs2 => some (pk0_3_21_16_11 0x28000180 fmt.code rm.code rd.toNat rs1.toNat rs2.toNat, none)
  | .fnma fmt rm rd rs1 rs2 => some (pk0_3_21_16_11 0x280001c0 fmt.code rm.code rd.toNat rs1.toNat rs2.toNat, none)
  | .fnms fmt rm rd rs1 rs2 => some (pk0_3_21_16_11 0x28000200 fmt.code rm.code rd.toNat rs1.toNat rs2.toNat, none)
  | .fmin fmt rd rs1 rs2 => some (pk0_21_16_11 0x28000240 fmt.code rd.toNat rs1.toNat rs2.toNat, none)
  | .fmax fmt rd rs1 rs2 => some (pk0_21_16_11 0x28000280 fmt.code rd.toNat rs1.toNat rs2.toNat, none)
  | .feq fmt rd rs1 rs2 => some (pk0_21_16_11 0x280002c0 fmt.code rd.toNat rs1.toNat rs2.toNat, none)
  | .flt fmt rd rs1 rs2 => some (pk0_21_16_11 0x28000300 fmt.code rd.toNat rs1.toNat rs2.toNat, none)
  | .fle fmt rd rs1 rs2 => some (pk0_21_16_11 0x28000340 fmt.code rd.toNat rs1.toNat rs2.toNat, none)
  | .fclass fmt rd rs1 => some (pk0_21_16 0x28000380 fmt.code rd.toNat rs1.toNat, none)
  | .fsgnj fmt rd rs1 rs2 => some (pk0_21_16_11 0x280003c0 fmt.code rd.toNat rs1.toNat rs2.toNat, none)
  | .fsgnjn fmt rd rs1 rs2 => some (pk0_21_16_11 0x28000400 fmt.code rd.toNat rs1.toNat rs2.toNat, none)
  | .fsgnjx fmt rd rs1 rs2 => some (pk0_21_16_11 0x28000440 fmt.code rd.toNat rs1.toNat rs2.toNat, none)
  | .fcvtToFloat fmt rm src rd rs1 => some (pk0_3_11_21_16 0x28000480 fmt.code rm.code src.code rd.toNat rs1.toNat, none)
  | .fcvtToInt fmt rm dst rd rs1 => some (pk0_3_11_21_16 0x280004c0 fmt.code rm.code dst.code rd.toNat rs1.toNat, none)
  | .mul rd rs1 rs2 => some (pk21_16_11 0x2c000000 rd.toNat rs1.toNat rs2.toNat, none)
  | .mulh rd rs1 rs2 => some (pk21_16_11 0x2c000001 rd.toNat rs1.toNat rs2.toNat, none)
  | .mulhn rd rs1 rs2 => some (pk21_16_11 0x2c000002 rd.toNat rs1.toNat rs2.toNat, none)
  | .mulhsn rd rs1 rs2 => some (pk21_16_11 0x2c000003 rd.toNat rs1.toNat rs2.toNat, none)
  | .mulw rd rs1 rs2 => some (pk21_16_11 0x2c000004 rd.toNat rs1.toNat rs2.toNat, none)
  | .div rd rs1 rs2 => some (pk21_16_11 0x2c000008 rd.toNat rs1.toNat rs2.toNat, none)
  | .divn rd rs1 rs2 => some (pk21_16_11 0x2c000009 rd.toNat rs1.toNat rs2.toNat, none)
  | .rem rd rs1 rs2 => some (pk21_16_11 0x2c00000a rd.toNat rs1.toNat rs2.toNat, none)
  | .remn rd rs1 rs2 => some (pk21_16_11 0x2c00000b rd.toNat rs1.toNat rs2.toNat, none)
  | .divw rd rs1 rs2 => some (pk21_16_11 0x2c00000c rd.toNat rs1.toNat rs2.toNat, none)
  | .ld size rd rs1 imm => some (pk13_21_16_0 0x30000000 size.code rd.toNat rs1.toNat imm.toNat, none)
  | .st size rs2 rs1 imm => some (pk13_21_16_0 0x34000000 size.code rs2.toNat rs1.toNat imm.toNat, none)
  | .amo op order width scope rd rs1 rs2 => some (pk7_5_3_0_21_16_11 0x38000000 op.code order.code width.code scope.code rd.toNat rs1.toNat rs2.toNat, none)
  | .cas order width scope rd rs1 rs2 => some (pk5_3_0_21_16_11 0x38000480 order.code width.code scope.code rd.toNat rs1.toNat rs2.toNat, none)
  | .cas2 order scope rd rs1 rs2 => some (pk5_0_21_16_11 0x38000510 order.code scope.code rd.toNat rs1.toNat rs2.toNat, none)
  | .ldaq width scope rd rs1 => some (pk3_0_21_16 0x380005a0 width.code scope.code rd.toNat rs1.toNat, none)
  | .strl width scope rs1 rs2 => some (pk3_0_16_11 0x38000640 width.code scope.code rs1.toNat rs2.toNat, none)
  | .fence kind scope => some (pk10_7 0x3c000000 kind.code scope.code, none)
  | .fenceSv => some (0x3c001000, none)
  | .fenceVs => some (0x3c002000, none)
  | .fenceI => some (0x3c003000, none)
  | .ipref rs1 imm => some (pk16_0 0x3c004000 rs1.toNat imm.toNat, none)
  | .dpref rs1 imm => some (pk16_0 0x3c005000 rs1.toNat imm.toNat, none)
  | .beq rs1 rs2 off => some (pk21_16_0 0x40000000 rs1.toNat rs2.toNat off.toNat, none)
  | .bne rs1 rs2 off => some (pk21_16_0 0x40002000 rs1.toNat rs2.toNat off.toNat, none)
  | .blt rs1 rs2 off => some (pk21_16_0 0x40004000 rs1.toNat rs2.toNat off.toNat, none)
  | .bge rs1 rs2 off => some (pk21_16_0 0x40006000 rs1.toNat rs2.toNat off.toNat, none)
  | .bltn rs1 rs2 off => some (pk21_16_0 0x40008000 rs1.toNat rs2.toNat off.toNat, none)
  | .bgen rs1 rs2 off => some (pk21_16_0 0x4000a000 rs1.toNat rs2.toNat off.toNat, none)
  | .jal rd imm => some (pk21_0 0x44000000 rd.toNat imm.toNat, none)
  | .jalr rd rs1 imm => some (pk21_16_0 0x48000000 rd.toNat rs1.toNat imm.toNat, none)
  | .jtW xi xn size => some (pk21_16_0 0x4c000000 xi.toNat xn.toNat size.toNat, none)
  | .jtD xi xn size => some (pk21_16_0 0x4c002000 xi.toNat xn.toNat size.toNat, none)
  | .bstrip rs1 rs2 off => some (pk21_16_0 0x50000000 rs1.toNat rs2.toNat off.toNat, none)
  | .ecall => some (0x54000000, none)
  | .ebreak => some (0x54000001, none)
  | .trapret => some (0x54000002, none)
  | .yield => some (0x54000003, none)
  | .widf rd rs1 level => some (pk21_16_11 0x54000004 rd.toNat rs1.toNat level.toNat, none)
  | .ctlr rd addr => some (pk21_0 0x58000000 rd.toNat addr.toNat, none)
  | .ctlw rd rs1 addr => some (pk21_16_0 0x58004000 rd.toNat rs1.toNat addr.toNat, none)
  | .ctls rd rs1 addr => some (pk21_16_0 0x58008000 rd.toNat rs1.toNat addr.toNat, none)
  | .ctlc rd rs1 addr => some (pk21_16_0 0x5800c000 rd.toNat rs1.toNat addr.toNat, none)
  | .evpop rd rs1 => some (pk21_16 0x5c000000 rd.toNat rs1.toNat, none)
  | .evwait rd rs1 => some (pk21_16 0x5c000001 rd.toNat rs1.toNat, none)
  | .slotassign rd rs1 => some (pk21_16 0x5c000002 rd.toNat rs1.toNat, none)
  | .slotevict rd rs1 rs2 => some (pk21_16_11 0x5c000003 rd.toNat rs1.toNat rs2.toNat, none)
  | .cqpush rd rs1 => some (pk21_16 0x5c000004 rd.toNat rs1.toNat, none)
  | .tlbinv rs1 rs2 => some (pk16_11 0x5c000005 rs1.toNat rs2.toNat, none)
  | .vsetvli rd rs1 vtype => some (pk21_16_0 0x70000000 rd.toNat rs1.toNat vtype.toNat, none)
  | .vsetvl rd rs1 rs2 => some (pk21_16_9 0x70004000 rd.toNat rs1.toNat rs2.toNat, none)
  | .msetmvl rd rs1 => some (pk21_16 0x70008000 rd.toNat rs1.toNat, none)
  | .vstream vd rs1 k => some (pk21_16_9 0x7000c000 vd.toNat rs1.toNat k.toNat, none)
  | .vunstream k => some (pk9 0x7000d000 k.toNat, none)
  | .vadd k vm vd s1 vs2 => some (pk2_10_21_16_11 0x74000000 k.code vm.toNat vd.toNat s1.toNat vs2.toNat, none)
  | .vsub k vm vd s1 vs2 => some (pk2_10_21_16_11 0x74000010 k.code vm.toNat vd.toNat s1.toNat vs2.toNat, none)
  | .vrsub k vm vd s1 vs2 => some (pk2_10_21_16_11 0x74000020 k.code vm.toNat vd.toNat s1.toNat vs2.toNat, none)
  | .vmul k vm vd s1 vs2 => some (pk2_10_21_16_11 0x74000030 k.code vm.toNat vd.toNat s1.toNat vs2.toNat, none)
  | .vmulh k vm vd s1 vs2 => some (pk2_10_21_16_11 0x74000040 k.code vm.toNat vd.toNat s1.toNat vs2.toNat, none)
  | .vmulhn k vm vd s1 vs2 => some (pk2_10_21_16_11 0x74000050 k.code vm.toNat vd.toNat s1.toNat vs2.toNat, none)
  | .vdiv k vm vd s1 vs2 => some (pk2_10_21_16_11 0x74000060 k.code vm.toNat vd.toNat s1.toNat vs2.toNat, none)
  | .vdivn k vm vd s1 vs2 => some (pk2_10_21_16_11 0x74000070 k.code vm.toNat vd.toNat s1.toNat vs2.toNat, none)
  | .vrem k vm vd s1 vs2 => some (pk2_10_21_16_11 0x74000080 k.code vm.toNat vd.toNat s1.toNat vs2.toNat, none)
  | .vremn k vm vd s1 vs2 => some (pk2_10_21_16_11 0x74000090 k.code vm.toNat vd.toNat s1.toNat vs2.toNat, none)
  | .vmin k vm vd s1 vs2 => some (pk2_10_21_16_11 0x740000a0 k.code vm.toNat vd.toNat s1.toNat vs2.toNat, none)
  | .vmax k vm vd s1 vs2 => some (pk2_10_21_16_11 0x740000b0 k.code vm.toNat vd.toNat s1.toNat vs2.toNat, none)
  | .vminn k vm vd s1 vs2 => some (pk2_10_21_16_11 0x740000c0 k.code vm.toNat vd.toNat s1.toNat vs2.toNat, none)
  | .vmaxn k vm vd s1 vs2 => some (pk2_10_21_16_11 0x740000d0 k.code vm.toNat vd.toNat s1.toNat vs2.toNat, none)
  | .vand k vm vd s1 vs2 => some (pk2_10_21_16_11 0x740000e0 k.code vm.toNat vd.toNat s1.toNat vs2.toNat, none)
  | .vor k vm vd s1 vs2 => some (pk2_10_21_16_11 0x740000f0 k.code vm.toNat vd.toNat s1.toNat vs2.toNat, none)
  | .vxor k vm vd s1 vs2 => some (pk2_10_21_16_11 0x74000100 k.code vm.toNat vd.toNat s1.toNat vs2.toNat, none)
  | .vsll k vm vd s1 vs2 => some (pk2_10_21_16_11 0x74000110 k.code vm.toNat vd.toNat s1.toNat vs2.toNat, none)
  | .vsrl k vm vd s1 vs2 => some (pk2_10_21_16_11 0x74000120 k.code vm.toNat vd.toNat s1.toNat vs2.toNat, none)
  | .vsra k vm vd s1 vs2 => some (pk2_10_21_16_11 0x74000130 k.code vm.toNat vd.toNat s1.toNat vs2.toNat, none)
  | .vnsrl k vm vd s1 vs2 => some (pk2_10_21_16_11 0x74000140 k.code vm.toNat vd.toNat s1.toNat vs2.toNat, none)
  | .vnsra k vm vd s1 vs2 => some (pk2_10_21_16_11 0x74000150 k.code vm.toNat vd.toNat s1.toNat vs2.toNat, none)
  | .vwadd k vm vd s1 vs2 => some (pk2_10_21_16_11 0x74000160 k.code vm.toNat vd.toNat s1.toNat vs2.toNat, none)
  | .vwaddn k vm vd s1 vs2 => some (pk2_10_21_16_11 0x74000170 k.code vm.toNat vd.toNat s1.toNat vs2.toNat, none)
  | .vwmul k vm vd s1 vs2 => some (pk2_10_21_16_11 0x74000180 k.code vm.toNat vd.toNat s1.toNat vs2.toNat, none)
  | .vwmuln k vm vd s1 vs2 => some (pk2_10_21_16_11 0x74000190 k.code vm.toNat vd.toNat s1.toNat vs2.toNat, none)
  | .vsadd k vm vd s1 vs2 => some (pk2_10_21_16_11 0x740001a0 k.code vm.toNat vd.toNat s1.toNat vs2.toNat, none)
  | .vsaddn k vm vd s1 vs2 => some (pk2_10_21_16_11 0x740001b0 k.code vm.toNat vd.toNat s1.toNat vs2.toNat, none)
  | .vssub k vm vd s1 vs2 => some (pk2_10_21_16_11 0x740001c0 k.code vm.toNat vd.toNat s1.toNat vs2.toNat, none)
  | .vssubn k vm vd s1 vs2 => some (pk2_10_21_16_11 0x740001d0 k.code vm.toNat vd.toNat s1.toNat vs2.toNat, none)
  | .vmacc k vm vd s1 vs2 => some (pk2_10_21_16_11 0x740001e0 k.code vm.toNat vd.toNat s1.toNat vs2.toNat, none)
  | .vnmsac k vm vd s1 vs2 => some (pk2_10_21_16_11 0x740001f0 k.code vm.toNat vd.toNat s1.toNat vs2.toNat, none)
  | .vmerge k vd s1 vs2 => some (pk2_21_16_11 0x74000200 k.code vd.toNat s1.toNat vs2.toNat, none)
  | .vmv k vd s1 => some (pk2_21_16 0x74000610 k.code vd.toNat s1.toNat, none)
  | .vcmp c k vm vd s1 vs2 => some (pk4_2_10_21_16_11 0x74000000 c.code k.code vm.toNat vd.toNat s1.toNat vs2.toNat, none)
  | .vfadd k alt vm vd s1 vs2 => some (pk2_0_10_21_16_11 0x78000000 k.code alt.toNat vm.toNat vd.toNat s1.toNat vs2.toNat, none)
  | .vfsub k alt vm vd s1 vs2 => some (pk2_0_10_21_16_11 0x78000010 k.code alt.toNat vm.toNat vd.toNat s1.toNat vs2.toNat, none)
  | .vfrsub k alt vm vd s1 vs2 => some (pk2_0_10_21_16_11 0x78000020 k.code alt.toNat vm.toNat vd.toNat s1.toNat vs2.toNat, none)
  | .vfmul k alt vm vd s1 vs2 => some (pk2_0_10_21_16_11 0x78000030 k.code alt.toNat vm.toNat vd.toNat s1.toNat vs2.toNat, none)
  | .vfdiv k alt vm vd s1 vs2 => some (pk2_0_10_21_16_11 0x78000040 k.code alt.toNat vm.toNat vd.toNat s1.toNat vs2.toNat, none)
  | .vfrdiv k alt vm vd s1 vs2 => some (pk2_0_10_21_16_11 0x78000050 k.code alt.toNat vm.toNat vd.toNat s1.toNat vs2.toNat, none)
  | .vfsqrt alt vm vd vs2 => some (pk0_10_21_11 0x78000060 alt.toNat vm.toNat vd.toNat vs2.toNat, none)
  | .vfrece alt vm vd vs2 => some (pk0_10_21_11 0x78000070 alt.toNat vm.toNat vd.toNat vs2.toNat, none)
  | .vfrsqe alt vm vd vs2 => some (pk0_10_21_11 0x78000080 alt.toNat vm.toNat vd.toNat vs2.toNat, none)
  | .vfexp2 alt vm vd vs2 => some (pk0_10_21_11 0x78000090 alt.toNat vm.toNat vd.toNat vs2.toNat, none)
  | .vflog2 alt vm vd vs2 => some (pk0_10_21_11 0x780000a0 alt.toNat vm.toNat vd.toNat vs2.toNat, none)
  | .vfmacc k alt vm vd s1 vs2 => some (pk2_0_10_21_16_11 0x780000b0 k.code alt.toNat vm.toNat vd.toNat s1.toNat vs2.toNat, none)
  | .vfnmacc k alt vm vd s1 vs2 => some (pk2_0_10_21_16_11 0x780000c0 k.code alt.toNat vm.toNat vd.toNat s1.toNat vs2.toNat, none)
  | .vfmsac k alt vm vd s1 vs2 => some (pk2_0_10_21_16_11 0x780000d0 k.code alt.toNat vm.toNat vd.toNat s1.toNat vs2.toNat, none)
  | .vfnmsac k alt vm vd s1 vs2 => some (pk2_0_10_21_16_11 0x780000e0 k.code alt.toNat vm.toNat vd.toNat s1.toNat vs2.toNat, none)
  | .vfmin k alt vm vd s1 vs2 => some (pk2_0_10_21_16_11 0x780000f0 k.code alt.toNat vm.toNat vd.toNat s1.toNat vs2.toNat, none)
  | .vfmax k alt vm vd s1 vs2 => some (pk2_0_10_21_16_11 0x78000100 k.code alt.toNat vm.toNat vd.toNat s1.toNat vs2.toNat, none)
  | .vfsgnj k alt vm vd s1 vs2 => some (pk2_0_10_21_16_11 0x78000110 k.code alt.toNat vm.toNat vd.toNat s1.toNat vs2.toNat, none)
  | .vfclass alt vm vd vs2 => some (pk0_10_21_11 0x78000120 alt.toNat vm.toNat vd.toNat vs2.toNat, none)
  | .vfcvt code salt dalt vm vd vs2 => some (pk16_0_1_10_21_11 0x78000130 code.toNat salt.toNat dalt.toNat vm.toNat vd.toNat vs2.toNat, none)
  | .vfsgnjN k alt vm vd s1 vs2 => some (pk2_0_10_21_16_11 0x78000140 k.code alt.toNat vm.toNat vd.toNat s1.toNat vs2.toNat, none)
  | .vfsgnjX k alt vm vd s1 vs2 => some (pk2_0_10_21_16_11 0x78000150 k.code alt.toNat vm.toNat vd.toNat s1.toNat vs2.toNat, none)
  | .vfcmp c k alt vm vd s1 vs2 => some (pk4_2_0_10_21_16_11 0x78000000 c.code k.code alt.toNat vm.toNat vd.toNat s1.toNat vs2.toNat, none)
  | .vlmul vm vd vs1 vs2 => some (pk10_21_16_11 0x7c000000 vm.toNat vd.toNat vs1.toNat vs2.toNat, none)
  | .vldot vm vd vs1 vs2 => some (pk10_21_16_11 0x7c000010 vm.toNat vd.toNat vs1.toNat vs2.toNat, none)
  | .vlcvt fromLg alt vm vd vs2 => some (pk0_1_10_21_11 0x7c000020 fromLg.toNat alt.toNat vm.toNat vd.toNat vs2.toNat, none)
  | .vlscale k vm vd s1 vs2 => some (pk2_10_21_16_11 0x7c000030 k.code vm.toNat vd.toNat s1.toNat vs2.toNat, none)
  | .vredsum vm vd vs1 vs2 => some (pk10_21_16_11 0x80000000 vm.toNat vd.toNat vs1.toNat vs2.toNat, none)
  | .vredmin vm vd vs1 vs2 => some (pk10_21_16_11 0x80000010 vm.toNat vd.toNat vs1.toNat vs2.toNat, none)
  | .vredmax vm vd vs1 vs2 => some (pk10_21_16_11 0x80000020 vm.toNat vd.toNat vs1.toNat vs2.toNat, none)
  | .vredminn vm vd vs1 vs2 => some (pk10_21_16_11 0x80000030 vm.toNat vd.toNat vs1.toNat vs2.toNat, none)
  | .vredmaxn vm vd vs1 vs2 => some (pk10_21_16_11 0x80000040 vm.toNat vd.toNat vs1.toNat vs2.toNat, none)
  | .vredand vm vd vs1 vs2 => some (pk10_21_16_11 0x80000050 vm.toNat vd.toNat vs1.toNat vs2.toNat, none)
  | .vredor vm vd vs1 vs2 => some (pk10_21_16_11 0x80000060 vm.toNat vd.toNat vs1.toNat vs2.toNat, none)
  | .vredxor vm vd vs1 vs2 => some (pk10_21_16_11 0x80000070 vm.toNat vd.toNat vs1.toNat vs2.toNat, none)
  | .vfredsum alt vm vd vs1 vs2 => some (pk0_10_21_16_11 0x80000080 alt.toNat vm.toNat vd.toNat vs1.toNat vs2.toNat, none)
  | .vfredosum alt vm vd vs1 vs2 => some (pk0_10_21_16_11 0x80000090 alt.toNat vm.toNat vd.toNat vs1.toNat vs2.toNat, none)
  | .vfredmin alt vm vd vs1 vs2 => some (pk0_10_21_16_11 0x800000a0 alt.toNat vm.toNat vd.toNat vs1.toNat vs2.toNat, none)
  | .vfredmax alt vm vd vs1 vs2 => some (pk0_10_21_16_11 0x800000b0 alt.toNat vm.toNat vd.toNat vs1.toNat vs2.toNat, none)
  | .vslideup k vm vd s1 vs2 => some (pk2_10_21_16_11 0x80000100 k.code vm.toNat vd.toNat s1.toNat vs2.toNat, none)
  | .vslidedn k vm vd s1 vs2 => some (pk2_10_21_16_11 0x80000110 k.code vm.toNat vd.toNat s1.toNat vs2.toNat, none)
  | .vslide1up k vm vd s1 vs2 => some (pk2_10_21_16_11 0x80000120 k.code vm.toNat vd.toNat s1.toNat vs2.toNat, none)
  | .vslide1dn k vm vd s1 vs2 => some (pk2_10_21_16_11 0x80000130 k.code vm.toNat vd.toNat s1.toNat vs2.toNat, none)
  | .vgather k vm vd s1 vs2 => some (pk2_10_21_16_11 0x80000140 k.code vm.toNat vd.toNat s1.toNat vs2.toNat, none)
  | .vcompress vd vs1 vs2 => some (pk21_16_11 0x80000550 vd.toNat vs1.toNat vs2.toNat, none)
  | .vrotl k vm vd s1 vs2 => some (pk2_10_21_16_11 0x80000160 k.code vm.toNat vd.toNat s1.toNat vs2.toNat, none)
  | .vmvxs vm rd vs2 => some (pk10_21_11 0x80000170 vm.toNat rd.toNat vs2.toNat, none)
  | .vmvsx vm vd rs1 => some (pk10_21_16 0x80000184 vm.toNat vd.toNat rs1.toNat, none)
  | .vxq vm vd vs2 => some (pk10_21_11 0x800001c0 vm.toNat vd.toNat vs2.toNat, none)
  | .vxqw vm vs1 vs2 => some (pk10_16_11 0x800001d0 vm.toNat vs1.toNat vs2.toNat, none)
  | .vscan op vm vd vs1 vs2 => some (pk0_10_21_16_11 0x800001e0 op.code vm.toNat vd.toNat vs1.toNat vs2.toNat, none)
  | .vmand vd vs1 vs2 => some (pk21_16_11 0x84000400 vd.toNat vs1.toNat vs2.toNat, none)
  | .vmor vd vs1 vs2 => some (pk21_16_11 0x84000410 vd.toNat vs1.toNat vs2.toNat, none)
  | .vmxor vd vs1 vs2 => some (pk21_16_11 0x84000420 vd.toNat vs1.toNat vs2.toNat, none)
  | .vmandn vd vs1 vs2 => some (pk21_16_11 0x84000430 vd.toNat vs1.toNat vs2.toNat, none)
  | .vmnand vd vs1 vs2 => some (pk21_16_11 0x84000440 vd.toNat vs1.toNat vs2.toNat, none)
  | .vmpop vm rd vs2 => some (pk10_21_11 0x84000080 vm.toNat rd.toNat vs2.toNat, none)
  | .vmfirst vm rd vs2 => some (pk10_21_11 0x84000090 vm.toNat rd.toNat vs2.toNat, none)
  | .viota vm vd vs2 => some (pk10_21_11 0x840000a0 vm.toNat vd.toNat vs2.toNat, none)
  | .vid vm vd => some (pk10_21 0x840000b0 vm.toNat vd.toNat, none)
  | .vle eew hint vm vd rs1 => some (pk4_0_10_21_16 0x88000000 eew.code hint.code vm.toNat vd.toNat rs1.toNat, none)
  | .vlse eew hint vm vd rs1 rs2 => some (pk4_0_10_21_16_11 0x88000080 eew.code hint.code vm.toNat vd.toNat rs1.toNat rs2.toNat, none)
  | .vlxe eew hint vm vd rs1 vs2 => some (pk4_0_10_21_16_11 0x88000100 eew.code hint.code vm.toNat vd.toNat rs1.toNat vs2.toNat, none)
  | .vleff eew hint vm vd rs1 => some (pk4_0_10_21_16 0x88000180 eew.code hint.code vm.toNat vd.toNat rs1.toNat, none)
  | .vlsc eew hint vm vd rs1 rs2 => some (pk4_0_10_21_16_11 0x88000200 eew.code hint.code vm.toNat vd.toNat rs1.toNat rs2.toNat, none)
  | .vse eew hint vm vs3 rs1 => some (pk4_0_10_21_16 0x8c000000 eew.code hint.code vm.toNat vs3.toNat rs1.toNat, none)
  | .vsse eew hint vm vs3 rs1 rs2 => some (pk4_0_10_21_16_11 0x8c000080 eew.code hint.code vm.toNat vs3.toNat rs1.toNat rs2.toNat, none)
  | .vsxe eew hint vm vs3 rs1 vs2 => some (pk4_0_10_21_16_11 0x8c000100 eew.code hint.code vm.toNat vs3.toNat rs1.toNat vs2.toNat, none)
  | .vssc eew hint vm vs3 rs1 rs2 => some (pk4_0_10_21_16_11 0x8c000200 eew.code hint.code vm.toNat vs3.toNat rs1.toNat rs2.toNat, none)
  | .vamo op order width vm vd rs1 vs2 => some (pk4_0_2_10_21_16_11 0x90000000 op.code order.code width.code vm.toNat vd.toNat rs1.toNat vs2.toNat, none)
  | .vwait c order width vm vd rs1 vs2 => some (pk4_0_2_10_21_16_11 0x90000100 c.code order.code width.code vm.toNat vd.toNat rs1.toNat vs2.toNat, none)
  | .vrrs op order width vm vd rs1 vs2 => some (pk4_0_2_10_21_16_11 0x90000200 op.code order.code width.code vm.toNat vd.toNat rs1.toNat vs2.toNat, none)
  | .lbr c ra rb off => some (pk13_21_16_0 0x94000000 c.code ra.toNat rb.toNat off.toNat, none)
  | .vsplit va off => some (pk21_0 0x9400c000 va.toNat off.toNat, none)
  | .vjoin => some (0x9400e000, none)
  | .mzero ac => some (pk21 0x98000400 ac.toNat, none)
  | .mhold ty vm vs1 vs2 => some (pk0_10_16_11 0x98000010 ty.code vm.toNat vs1.toNat vs2.toNat, none)
  | .mop ty vm ac vs1 vs2 => some (pk0_10_21_16_11 0x98000020 ty.code vm.toNat ac.toNat vs1.toNat vs2.toNat, none)
  | .mops ty vm ac vs1 vs2 => some (pk0_10_21_16_11 0x98000030 ty.code vm.toNat ac.toNat vs1.toNat vs2.toNat, none)
  | .mhmul ty vm ac vs1 => some (pk0_10_21_16 0x98000040 ty.code vm.toNat ac.toNat vs1.toNat, none)
  | .mrd vm ac vd rs1 => some (pk10_11_21_16 0x9800005b vm.toNat ac.toNat vd.toNat rs1.toNat, none)
  | .mwr vm ac vd rs1 => some (pk10_11_21_16 0x9800006b vm.toNat ac.toNat vd.toNat rs1.toNat, none)
  | .tdef tn ra => some (pk18_13 0xf8000000 tn.toNat ra.toNat, none)
  | .tshape ra => some (pk13 0xf8400000 ra.toNat, none)
  | .tfree tn => some (pk18 0xf8800000 tn.toNat, none)
  | .twait tn ra g => some (pk18_13_0 0xf8c00000 tn.toNat ra.toNat g.toNat, none)
  | .tchk tn ra g => some (pk18_13_0 0xf9000000 tn.toNat ra.toNat g.toNat, none)
  | .tacq tn va => some (pk18_13 0xf9400000 tn.toNat va.toNat, none)
  | .tsignal ra rb => some (pk13_8 0xf9800000 ra.toNat rb.toNat, none)
  | .tsignalAdd ra rb => some (pk13_8 0xf9800001 ra.toNat rb.toNat, none)
  | .tbar ra b => some (pk13_0 0xf9c00000 ra.toNat b.toNat, none)
  | .tend => some (0xfa000000, none)
  | .tlaunch ra rb => some (pk13_8 0xfa400000 ra.toNat rb.toNat, none)
  | .tld hint ev ty td ra rb => some (pk1_3_15_10 0xfc100000 hint.code ev.toNat ra.toNat rb.toNat, some (pk16_28 0x0 ty.code td.toNat))
  | .tldPb hint ev td ra gen => some (pk1_3_15 0xfc100001 hint.code ev.toNat ra.toNat, some (pk28_0 0x0 td.toNat gen.toNat))
  | .tst hint ev ty ta ra rb => some (pk1_3_15_10 0xfc200000 hint.code ev.toNat ra.toNat rb.toNat, some (pk16_24 0x0 ty.code ta.toNat))
  | .tstPb hint ev ta ra gen => some (pk1_3_15 0xfc200001 hint.code ev.toNat ra.toNat, some (pk24_0 0x0 ta.toNat gen.toNat))
  | .tcpy ev td ta => some (pk3 0xfc300000 ev.toNat, some (pk28_24 0x0 td.toNat ta.toNat))
  | .tcpyPb hint ev ra gen => some (pk1_3_15 0xfc300001 hint.code ev.toNat ra.toNat, some (pk0 0x0 gen.toNat))
  | .tzero ev td => some (pk3 0xfc400000 ev.toNat, some (pk28 0x0 td.toNat))
  | .tcoll hint ev op td ta ra rb => some (pk1_3_4_15_10 0xfc500000 hint.code ev.toNat op.code ra.toNat rb.toNat, some (pk28_24 0x0 td.toNat ta.toNat))
  | .tmma z out ac td ta tb => some (pk2_3_0 0xfc800000 z.toNat out.toNat ac.toNat, some (pk28_24_20 0x0 td.toNat ta.toNat tb.toNat))
  | .tmmas z out ac td ta tb => some (pk2_3_0 0xfc900000 z.toNat out.toNat ac.toNat, some (pk28_24_20 0x0 td.toNat ta.toNat tb.toNat))
  | .tmmv z out ac td ta tb => some (pk2_3_0 0xfca00000 z.toNat out.toNat ac.toNat, some (pk28_24_20 0x0 td.toNat ta.toNat tb.toNat))
  | .tmap len two td ta tb ra rb => some (pk0_8_15_10 0xfcc00000 len.toNat two.toNat ra.toNat rb.toNat, some (pk28_24_20 0x0 td.toNat ta.toNat tb.toNat))
  | .tred len two td ta tb ra rb => some (pk0_8_15_10 0xfcd00000 len.toNat two.toNat ra.toNat rb.toNat, some (pk28_24_20 0x0 td.toNat ta.toNat tb.toNat))
  | .tsend ta ra rb c => some (pk15_10 0xfd000000 ra.toNat rb.toNat, some (pk24_0 0x0 ta.toNat c.toNat))
  | .trecv td ra c => some (pk15 0xfd100000 ra.toNat, some (pk28_0 0x0 td.toNat c.toNat))
  | .tdiscard ra rb => some (pk15_10 0xfd400000 ra.toNat rb.toNat, some (0x0))
  | .fbias flush ra rb tag => some (pk0_15_10 0xfd800000 flush.toNat ra.toNat rb.toNat, some (pk0 0x0 tag.toNat))
  | .fstat ra sel => some (pk15 0xfd900000 ra.toNat, some (pk0 0x0 sel.toNat))
  | .launchQueueEnable _ => none
  | .launchQueueDisable _ => none
  | .tailWordNotice _ => none
  | .launchRecordConsume _ => none
  | .launchCompletion _ => none
  | .completionHeadAdvance _ _ => none
  | .dispatchPlace _ _ _ => none
  | .agingTick _ => none
  | .preemptSend _ _ => none
  | .eventRecordPost _ => none
  | .stewardPlacement _ => none
  | .stewardPreempt _ => none
  | .parkTimeout _ => none
  | .stewardReplay _ => none
  | .stewardTlaunch _ => none
  | .stewardFence _ => none
  | .evictionComplete _ => none
  | .evwaitTimeout _ => none
  | .vwaitTimeout _ => none
  | .tileCommit _ => none
  | .roomAllocate _ => none
  | .instanceRelease _ => none
  | .branchMispredictSquash _ => none
  | .microOpIssue _ _ => none
  | .chunkComplete _ _ _ => none
  | .failedWriteRecord _ _ => none
  | .storeAck _ => none
  | .loadReply _ => none
  | .requestResend _ _ _ => none
  | .pathReport _ _ _ _ => none
  | .sliceRequestAdmit _ _ => none
  | .columnLineFill _ _ => none
  | .watchNotice => none
  | .watchPoll _ => none
  | .windowPortAccess _ => none
  | .denNaming _ _ => none
  | .bisnpResponse _ _ => none
  | .snoopTimeout _ => none
  | .hostMemRequest _ _ => none
  | .hostCacheSnoop _ _ => none
  | .hostLineGrant _ _ _ => none
  | .baseRead _ _ => none
  | .baseWrite _ _ => none
  | .baseDiscard _ _ => none
  | .baseSector _ _ _ _ => none
  | .baseCompletion _ => none
  | .sectorDecodeDone _ => none
  | .settleGo _ _ => none
  | .settleComplete _ => none
  | .acctlClear _ => none
  | .acdumpGo _ => none
  | .acdumpComplete _ => none
  | .hacctlClear _ => none
  | .hacdumpGo _ => none
  | .hacdumpComplete _ => none
  | .fctlWrite _ => none
  | .ferryTurnStart => none
  | .ferryDrainEnd => none
  | .ferryQuietEnd => none
  | .ferryCheckEnd _ => none
  | .planEntryExpire => none
  | .flitReceive _ _ => none
  | .flitReplayTimeout _ => none
  | .laneLockLoss _ => none
  | .drainTimeout => none
  | .retrainEnd _ _ => none
  | .crossroadsSlot _ => none
  | .remoteChunkRequest _ _ => none
  | .porterCommandStart _ _ => none
  | .copyComplete _ _ => none
  | .streamRefill _ _ => none
  | .streamInboundWrite _ => none
  | .pctlWrite _ _ => none
  | .porterWatchdog _ => none
  | .porterFirmwareTrap _ => none
  | .icacheFill _ _ => none
  | .pageWalkStart _ _ => none
  | .pageWalkEntryRead _ _ => none
  | .bar0Access _ _ => none
  | .driverQueueEnable _ => none
  | .faultQueueHeadAdvance _ => none
  | .replayCommandRetry => none
  | .replayCommandAbort => none
  | .invalidationCommand => none
  | .invalidationDone _ => none
  | .hostLinkRetrain _ => none
  | .hostLinkDown _ => none
  | .linkDownTimeout _ => none
  | .stewardServiceTimeout _ => none
  | .unitFence _ _ => none
  | .hresetWarm => none
  | .functionLevelReset => none
  | .warmResetComplete => none
  | .coldReset _ => none
  | .hretireWrite _ => none
  | .healthLogEnable => none
  | .thermalThrottle _ _ => none
  | .thermalShutdown => none
  | .spdmGetMeasurements => none
  | .registerWrite _ _ => none
  | .reservedEncoding _ _ => none
  | .hostLinkUp _ _ _ => none
  | .powerLoss => none
  | .dispatcherOrHealthFault => none
  | .porterDatapathPrimitive _ _ _ => none
  | .thermalThrottleEnd _ _ => none

/-- The bytes of an instruction in memory: each word little-endian, the first at the lower address (R67). -/
def encode (i : Instr) : List Byte :=
  match encodeWords i with
  | some (w, some v) => leBytes 4 w ++ leBytes 4 v
  | some (w, none) => leBytes 4 w
  | none => []

/-- The length of an instruction in bytes: 8 for a long form, 4 for a single word, 0 for a step without encoding. -/
def Instr.length (i : Instr) : Nat := (encode i).length

end Sys2Proof
end

