-- ==== Sys2Proof/Config.lean ====
section
/-! DEFINITION. What the spec leaves open, as free values (opaque, with no value anyone can see), and the fixed
figures of the part. Log entries name each free value. -/
namespace Sys2Proof.Config

/-- A fresh free value each time it is drawn: the argument is the draw counter of State (log 3). -/
opaque freeWord : Nat → Word
/-- The choice among several agents or victims, where the spec fixes no order: draw counter (log 3). -/
opaque choice : Nat → Nat
/-- Core clocks that pass in a step, beyond the one the model counts (log 3). -/
opaque elapsed : Nat → Nat
/-- Set of the Sett table that a lookup key selects (R354, R363: placement is not architectural; log 27). -/
opaque settSet : Nat → Nat
/-- Hash of a den's contents (R354: the function is not architectural; log 27). -/
opaque denHash : Nat → BitVec 48
/-- ctl.coreid of a Steward: the spec gives the field layout for cores only (log 10). -/
opaque stewardCoreId : BitVec 5 → Word
/-- The transcript of a SPDM measurement response (R505), from the request's number, the bundle's version, the fuses and
the Porter images loaded: its layout is not given (log 58). -/
opaque transcript : Nat → BitVec 32 → Nat × Nat × BitVec 32 → List (Nat × BitVec 16 × BitVec 16) → BitVec 512
/-- A signature over a transcript (R505) by the ML-DSA-65 identity key (true) or the Ed25519 one (log 58). -/
opaque sign : Bool → BitVec 512 → Word
/-- Offset in BAR2 of the base of the HDM decoder, and what the other CXL component registers of a port read (R481): their
layout is not given (log 55). -/
opaque hdmOffset : Nat
opaque componentReg : Nat → Nat → Byte
/-- The bundle that the boot ROM finds where no COLD_RESET names one (R504): the keys of its signatures, its version
(log 58). -/
opaque bundle : Nat → Nat × Nat × BitVec 32
/-- HBM contents after a cold reset: undefined (R503, log 1). -/
opaque coldHbm : Nat → List (Nat × BitVec 8)
/-- The start delay of a Ferry turn, the time of a test beat and other device times the spec bounds only (log 59). -/
opaque delay : Nat → Nat

/-- Size of an image's tile region in units of 64 bytes, from the bytes of its instances: its layout is private (R237,
log 42). -/
opaque tileRegion : Nat → Nat

/-- Clocks of the 1.05 GHz core clock in a microsecond (R8, R15). -/
def usClocks : Nat := 1050
/-- Clocks in a millisecond. -/
def msClocks : Nat := 1050000
/-- Physical base of die W HBM (R23). -/
def hbmW : Nat := 0x5000000000
/-- End of HBM (R23). -/
def hbmEnd : Nat := 0xA000000000
/-- CXL window to host memory (R23). -/
def cxlBase : Nat := 0x8000000000000
/-- End of the CXL window. -/
def cxlEnd : Nat := 0xFF00000000000
/-- Core windows (R23, R25). -/
def coreWin : Nat := 0xFF00000000000
/-- Cluster windows. -/
def clusterWin : Nat := 0xFF00010000000
/-- Device window. -/
def deviceWin : Nat := 0xFF00012000000
/-- End of the device window. -/
def deviceEnd : Nat := 0xFF00012100000

/-- The descriptor of a command in the ring of its Porter's firmware (R269): the spec gives no layout (log 41). -/
opaque ringDesc : List Nat → List (BitVec 256) → List (BitVec 1024) → Nat → Nat → BitVec 512

end Sys2Proof.Config
end

