-- ==== Sys2Proof/Machine/State.lean ====
section
/-! DEFINITION. The state of one Cielamel Y2: everything the spec names, as plain data. Tables are lists keyed by
number, in rising order, that list only what differs from their default. -/
namespace Sys2Proof.Machine

/-- A sparse table: keys in rising order; a key that is not listed holds the table's default. -/
abbrev Tbl (α : Type) := List (Nat × α)

/-- Why the machine cannot step. -/
inductive Fault where
  /-- The module is shut down (R503, R506): raised by every step but a cold reset. Safe: nothing runs. -/
  | poweredOff
  deriving DecidableEq, Repr

/-- Why the model gives an instruction no meaning. -/
inductive Refusal where
  /-- An instruction the model does not give a meaning: raised by its arm of exec only. Safe. -/
  | notModelled (mnemonic : String)
  deriving DecidableEq, Repr

/-- Trap causes (R105). -/
inductive Cause where
  | illegal | illreg | priv | align | noprogress | fetchpf | loadpf | storepf | access | rsvbit | ordkind
  | tileshape | rooms | chunkabandon | decode | paramtorn | slotcoll | libovf | fptrap | ecall | ebreak | fenced
  deriving DecidableEq, Repr

/-- A trap on its way: the cause, and what the fault record and the trap registers get (R106, R233). -/
structure Trap where
  cause : Cause
  va : Word := 0
  vaValid : Bool := false
  level : Nat := 0
  tile : Option (TName × BitVec 16 × BitVec 16) := none
  elem : Option (BitVec 32) := none
  /-- Element index field of the record where flags[1] is 0 (reasons of R159, R248, R275). -/
  reason : BitVec 32 := 0
  tval : Word := 0
  tcoord : Word := 0
  /-- What the faulting access was for (R489), and its source (0 block, 1 copy, 2 TLAUNCH, 3 Dispatcher). -/
  acc : Access := .load
  /-- Instruction VA where it is not the pc of the trapping instruction (R173, R508). -/
  at? : Option Word := none
  deriving DecidableEq, Repr

/-- A hart: a block in a slot, or a Steward (R38, R147). -/
inductive HartId where
  | block (sl : SlotId)
  | steward (k : ClusterId)
  deriving DecidableEq, Repr

/-- One entry of the strip tracker (R220); the list that holds them is most recently used first. -/
structure StripEntry where
  addr : Word
  last : Word
  strike : Bool
  deriving DecidableEq, Repr

/-- The registers of a hart (R99, R100), reset values as at block placement. -/
structure Hart where
  pc : Word := 0
  x : Vector Word 32 := Vector.replicate 32 0
  vl : Word := 0
  vtype : BitVec 6 := 0x10
  vstart : BitVec 12 := 0
  mvl : BitVec 8 := 0
  tshape : BitVec 48 := 0
  fcsr : BitVec 17 := 0
  tvec : Word := 0
  xpc : Word := 0
  tcause : BitVec 8 := 0
  tval : Word := 0
  tcoord : Word := 0
  sett : BitVec 2 := 1
  setthit : Word := 0
  settmiss : Word := 0
  settkill : Word := 0
  instret : Word := 0
  resync : Word := 0
  tracker : List StripEntry := []
  /-- x registers that hold the result of a forcing instruction (R40). -/
  forced : List Reg := []
  /-- ctl.vl was last written by a VLEFF (R40). -/
  vlForced : Bool := false
  deriving DecidableEq, Repr

/-- A translation held in a TLB (R442): its VA range is [base, base + 2^size); a merged entry has size 16 and the
PTE of the leaf that was walked (R440). -/
structure TlbEntry where
  ctx : BitVec 16
  base : Nat
  size : Nat
  /-- Physical address of `base`. -/
  pa : Nat
  pte : Word
  /-- PA of the leaf entry, for the D bit (R441). -/
  ptePA : Nat
  level : Nat
  deriving DecidableEq, Repr

/-- A walk-cache entry (R442): the table of `level` reached by `key` = VA with the lower fields removed. -/
structure WalkEntry where
  ctx : BitVec 16
  level : Nat
  key : Nat
  pa : Nat
  deriving DecidableEq, Repr

/-- A walk in flight (R443, R445). -/
structure Walk where
  req : WalkReq
  level : Nat
  table : Nat
  big : Bool
  /-- A TLBINV has marked it: its result is not installed (R447). -/
  marked : Bool
  deriving DecidableEq, Repr

/-- What a granule carries beside its bytes (R406, R410, R412, R425, R452). -/
structure Gran where
  ctr : BitVec 16 := 0
  owned : Bool := false
  zero : Bool := false
  bad : Bool := false
  media : Bool := false
  /-- What the base die holds of it, its bytes and whether they are uncorrectable, while its slice holds newer bytes in a
  dirty line (R408, R459). -/
  below : Option (BitVec 256 × Bool) := none
  deriving DecidableEq, Repr

/-- A back-invalidate snoop (R412, R484). -/
structure Snoop where
  line : Nat
  inv : Bool
  answered : Bool
  /-- Clock at which the device access waiting on it ends with FENCED. -/
  deadline : Nat
  failed : Bool
  /-- Who waits for it: a core, or an agent by its source number (`waiterOf`). -/
  who : Nat
  deriving DecidableEq, Repr

/-- The fault record (R106), reserved bytes left out. -/
structure FaultRec where
  cause : BitVec 8 := 0
  tile : Option (TName × BitVec 16 × BitVec 16) := none
  elem : Option (BitVec 32) := none
  va : Word := 0
  vaValid : Bool := false
  level : BitVec 8 := 0
  core : BitVec 8 := 0
  slot : BitVec 8 := 0
  iva : Word := 0
  wid : Word := 0
  token : Word := 0
  deriving DecidableEq, Repr

/-- A launch record (R135) as read, its status word apart. -/
structure LaunchRec where
  major : BitVec 8 := 2
  minor : BitVec 8 := 0
  helm : Bool := false
  restartable : Bool := false
  child : Bool := false
  priority : BitVec 2 := 0
  home : Bool := false
  widths : List (BitVec 8) := [0, 0, 0, 0, 0, 0]
  lanesMin : BitVec 8 := 1
  lanesMax : BitVec 8 := 1
  nvreg : BitVec 8 := 8
  acc : BitVec 8 := 0
  rooms : BitVec 16 := 0
  entry : Word := 0
  tiles : Word := 0
  exslots : Word := 0
  porterfw : BitVec 16 := 0xFFFF
  barriers : BitVec 16 := 0
  after : Option (QId × BitVec 32) := none
  args : List Word := [0, 0, 0, 0, 0, 0, 0, 0]
  deriving DecidableEq, Repr

/-- An event record (R144). -/
structure EventRec where
  typ : BitVec 8
  core : BitVec 8 := 0xFF
  slot : BitVec 8 := 0xFF
  queue : BitVec 8 := 0
  number : BitVec 32 := 0
  wid : Word := 0
  a : Word := 0
  b : Word := 0
  deriving DecidableEq, Repr

/-! ### Tiles (spec/06_innkeeper.md, spec/09_porters.md, spec/10_crossroads.md) -/

/-- A tile shape record (R157): its 32 bytes, byte 0 in the low bits. -/
abbrev TileRec := BitVec 256

/-- State of a dependency-table entry's producer (R165). -/
inductive PState where | speculative | committed | finished | squashed
  deriving DecidableEq, Repr

/-- One entry of the tile dependency table (R165). `id` is the model's own name of the entry; the readers column is
the number of unfinished instructions that name `id`. -/
structure Entry where
  id : Nat
  name : TName
  inst : Nat
  fixed : Bool
  /-- First chunk of the core's scratchpad; none before its room is allocated (R399). -/
  first : Option Nat
  chunks : Nat
  /-- Reorder-buffer index of the writer while it is uncommitted. -/
  producer : BitVec 6 := 0
  pstate : PState
  ready : BitVec 256
  abandoned : BitVec 256
  current : Bool
  deriving DecidableEq, Repr

/-- A tile operand as an instruction captured it at decode: its record, and the entry it names (none: a fixed tile
with no writer since placement, or a remote tile). -/
structure TileRef where
  name : TName
  shape : TileRec
  entry : Option Nat
  deriving DecidableEq, Repr

/-- A parameter block as read (R245): its 128 bytes, byte 0 in the low bits. -/
abbrev PBlock := BitVec 1024

/-- What a long-form tile instruction does, with its register operands read (R242, R276, R409, spec/14). -/
inductive TileOp where
  | load (hint : Hint) (ev : Bool) (mty : Ty) (base step : Word)
  | loadPb (hint : Hint) (ev : Bool) (va : Word) (gen : BitVec 16)
  | store (hint : Hint) (ev : Bool) (mty : Ty) (base step : Word)
  | storePb (hint : Hint) (ev : Bool) (va : Word) (gen : BitVec 16)
  | copy (ev : Bool)
  | copyPb (hint : Hint) (ev : Bool) (va : Word) (gen : BitVec 16)
  | zero (ev : Bool)
  | coll (hint : Hint) (ev : Bool) (op : CollOp) (hdr : Word) (par : Word)
  /-- TMMA (kind 0), TMMAS (1), TMMV (2), with the ctl.tshape and ctl.fcsr captured at decode. -/
  | mma (kind : BitVec 2) (z out : Bool) (ac : Acc) (shape : BitVec 48)
  | map (red : Bool) (len : BitVec 8) (two : Bool) (fn : Word) (arg : Word)
  | send (cores : BitVec 8) (slots : Word) (ch : BitVec 4)
  | recv (src : BitVec 3) (ch : BitVec 4)
  | discard (va n : Word)
  deriving DecidableEq, Repr

/-- A decoded tile instruction (R156, R169): what it captured, and how far a committed one has run. -/
structure TileInstr where
  id : Nat
  pc : Word
  op : TileOp
  td : Option TileRef := none
  ta : Option TileRef := none
  tb : Option TileRef := none
  /-- Parameter blocks read at commit. -/
  pbs : List PBlock := []
  /-- Next strip of matrix work, next element of TMAP or TRED, next chunk of a send (R188). -/
  next : Nat := 0
  /-- VA ranges it accesses in memory: start, bytes (R172). -/
  ranges : List (Word × Nat) := []
  deriving DecidableEq, Repr

/-- Phase of a TCOLL (R264). -/
inductive CollPhase where | waitPrev | write | waitAll | combine | depart
  deriving DecidableEq, Repr

/-- Who gave a command to a Porter (R240). -/
inductive CmdSrc where
  | tile
  | refill (kq : BitVec 3)
  deriving DecidableEq, Repr

/-- A Porter command (R240, R256, R261). -/
structure Cmd where
  id : Nat
  slot : SlotId
  /-- The block's own cluster, which its events go to (R263). -/
  home : ClusterId
  src : CmdSrc
  instr : TileInstr
  started : Bool := false
  /-- Chunks (of a TLD: destination chunks; of a TST or TCPY.pb: 512-byte units) not yet done. -/
  todo : List Nat := []
  /-- Elements of the chunk or unit in progress that have been performed (R261), and which it is. -/
  skip : Nat := 0
  part : Nat := 0
  /-- Mask areas written (R251, R255), and signals performed (R257). -/
  masks : Nat := 0
  signals : Nat := 0
  phase : CollPhase := .waitPrev
  /-- Cause that stopped it (R261). -/
  stopped : Option Cause := none
  /-- Parked at a page fault: replay token, chunk, VA. -/
  park : Option (Word × Nat × Word) := none
  /-- Place of its descriptor in the ring of its Porter's firmware (R269). -/
  ring : Nat := 0
  deriving DecidableEq, Repr

/-- An open or bound receive posting (R277, R278). -/
structure Posting where
  slot : SlotId
  ch : BitVec 4
  src : BitVec 3
  instr : Nat
  /-- The TSEND that has bound it: its slot and instruction. -/
  sender : Option (SlotId × Nat) := none
  deriving DecidableEq, Repr

/-- A cluster barrier (R184). -/
structure Barrier where
  n : Nat := 0
  arrivals : Nat := 0
  gen : Nat := 0
  deriving DecidableEq, Repr

/-! ### Lane engine (spec/11 - spec/13) -/

/-- Chain state of a slot (R317, R352): Q and its element width, H, C, Cin, S. -/
structure Chain where
  q : BitVec 32768 := 0
  h : BitVec 4096 := 0
  qsew : BitVec 2 := 2
  c : Word := 0
  cin : Word := 0
  s : Word := 0
  deriving DecidableEq, Repr

/-- Held-mode and matrix state of a slot (R376): W holds element (r, j) at bit 32 (128 r + j), S the scale of group g
and column j at bit 8 (128 g + j). -/
structure MatState where
  fmt : Option Ty := none
  hr : Nat := 0
  w : BitVec 524288 := 0
  s : BitVec 4096 := BitVec.ofNat 4096 ((2 ^ 4096 - 1) / 255 * 127)
  sr : Vector Nat 4 := Vector.replicate 4 0
  so : Nat := 0
  last : Option (Reg × Acc × Ty) := none
  deriving DecidableEq, Repr

/-- A write into a stream inbound queue that waits for its frame (R336): the writing block and the failed write that it is
if it is never performed, its command where a Porter made it (cluster, command), offset, bytes. -/
structure HeldWrite where
  writer : Option SlotId
  fail : FailedWrite
  cmd : Option (Nat × Nat) := none
  off : Nat := 0
  bytes : List Byte := []
  /-- Made through a page of ordering kind UN (R211, R415). -/
  un : Bool := false
  /-- Made through a page of ordering kind SO (R206, R415). -/
  so : Bool := false
  /-- A FENCE.SV has passed it: the block's tile instructions from this number on, and its later vector accesses, wait for
  it (R214). -/
  sv : Option Nat := none
  deriving DecidableEq, Repr

/-- A stream queue (R332 - R337). -/
structure Stream where
  bound : Bool := false
  /-- Bound inside a call, to a register of the frame (R346). -/
  inCall : Bool := false
  reg : Reg := 0
  base : Word := 0
  estride : Word := 0
  count : Word := 0
  eew : BitVec 2 := 0
  hint : BitVec 2 := 0
  /-- VA of the descriptor. -/
  desc : Word := 0
  pos : Word := 0
  /-- Elements read so far by refills, in order. -/
  filled : Word := 0
  push : Bool := false
  ended : Bool := false
  endCause : BitVec 8 := 0
  frame : BitVec 3 := 0
  /-- 4,096 bytes of queue and their written bits. In pull mode element n stands at byte n x size mod 4,096. -/
  data : BitVec 32768 := 0
  written : BitVec 4096 := 0
  held : List HeldWrite := []
  /-- Tile instructions of the slot below this number are older than the VSTREAM (R335). -/
  after : Nat := 0
  deriving DecidableEq, Repr, Inhabited

/-- Lane threads between VSPLIT and VJOIN (R339 - R343). -/
structure Threads where
  split : Word
  join : Word
  /-- Per lane: its PC, and whether it has reached VJOIN. -/
  lanes : List (Nat × Word × Bool)
  /-- The lane whose instruction comes next. -/
  cur : Nat
  mask : List Nat
  /-- Where the block's stream stands already, where the VSPLIT was resumed from a flight list (R353). -/
  after : Option Word := none
  deriving DecidableEq, Repr

/-- What a sleeping block waits on (R42, R155). -/
inductive Wait where
  | none
  /-- TWAIT: entry, chunk set. -/
  | twait (entry : Option Nat) (chunks : BitVec 256)
  /-- VWAIT: deadline; per flag its PA, bytes, condition and expected value. -/
  | vwait (deadline : Option Nat) (flags : List (Nat × Nat × WCond × Nat))
  /-- TBAR: barrier, generation at arrival. -/
  | tbar (b : BitVec 4) (gen : Nat)
  | tlaunch (rec : Word) (ra : Reg) (status : Option Word)
  | tsend | trecv | tcoll
  deriving DecidableEq, Repr

/-- A call of a lane function (R346): its strip of `n` elements from position `lo` of line `line`, the function's
address and words, and the block's own registers, which stand aside. -/
structure Call where
  instr : TileInstr
  fn : Word
  words : Nat
  line : Nat
  lo : Nat
  n : Nat
  saved : Hart
  savedV : Vector VReg 32
  savedNaming : BitVec 32
  savedNamed : BitVec 32
  savedWait : Wait
  /-- The block's own stream sleeps; its wait is recorded met (R155). -/
  asleep : Bool := false
  savedMet : Bool := false
  deriving DecidableEq, Repr

/-- A parked access (R153, R446). -/
structure Park where
  token : Word
  acc : Access
  va : Word
  since : Nat
  deriving DecidableEq, Repr

/-- States of a slot (R150). -/
inductive Run where | empty | running | asleep | parked | evicting
  deriving DecidableEq, Repr

/-- An entry of the flight list of a restored image (R351, R353). -/
structure Flight where
  va : Word
  word : BitVec 32
  start : BitVec 12
  vl : BitVec 16
  a : Word
  b : Word
  vtype : BitVec 6
  frm : BitVec 3
  vxrm : BitVec 2
  /-- Slide offset and stream row of a matrix entry (R396, R397). -/
  so : Nat := 0
  row : Nat := 0
  deriving DecidableEq, Repr

/-- A block slot (R16, R150). -/
structure Slot where
  run : Run := .empty
  resumed : Bool := false
  cause : BitVec 8 := 0
  ctx : BitVec 16 := 0
  queue : QId := 0
  number : BitVec 32 := 0
  recVA : Word := 0
  lrec : LaunchRec := {}
  wid : Word := 0
  widw : BitVec 48 := 0
  roomFirst : Nat := 0
  roomChunks : Nat := 0
  accMask : BitVec 4 := 0
  level : BitVec 2 := 0
  since : Nat := 0
  /-- Clock at which the block came to its level (R43). -/
  reached : Nat := 0
  hart : Hart := {}
  vregs : Vector VReg 32 := Vector.replicate 32 0
  /-- Registers written and not named yet, and registers whose den carries a name (R354, R355). -/
  naming : BitVec 32 := 0xFFFFFFFF
  named : BitVec 32 := 0
  chain : Chain := {}
  mat : MatState := {}
  tiles : Vector TileRec 16 := Vector.replicate 16 0
  nextInst : Vector (Fin 3) 16 := Vector.replicate 16 0
  entries : List Entry := []
  rob : Option TileInstr := none
  work : List TileInstr := []
  nextId : Nat := 0
  failed : Option FailedWrite := none
  failedIsVector : Bool := false
  streams : Vector Stream 8 := Vector.replicate 8 {}
  threads : Option Threads := none
  call : Option Call := none
  flight : List Flight := []
  /-- The instruction under way comes from the flight list: it pops no stream (R353). -/
  flying : Bool := false
  park : Option Park := none
  /-- Instructions after the PC that an eviction under way may yet find issued and not completed (R349). -/
  inFlight : Nat := 0
  /-- The functions and the region of a resumed block have yet to be fetched into the lane instruction buffer again
  (R343, R345). -/
  needLib : Bool := false
  /-- v3 - v7 of the frame between calls of one TMAP or TRED (R346). -/
  carry : List VReg := []
  /-- A stop fault of committed tile work, taken at the oldest unretired instruction (R508). -/
  stop : Option Trap := none
  wait : Wait := .none
  met : Bool := false
  /-- Image address of an eviction under way (R151, R187). -/
  evict : Option Word := none
  /-- Stopped by a trap delivered to the Steward, until the firmware ends it (R234). -/
  halted : Bool := false
  /-- The initial tile records have yet to be read (R160). -/
  needTiles : Bool := false
  /-- A parameter block read once, whose first granule is yet to be read again (R248): its address, its bytes. -/
  pbRead : List (Word × PBlock × Bool) := []
  /-- The start index at which the word under way stops for an eviction (R349). -/
  cut : Option Nat := none
  deriving DecidableEq, Repr

/-- What the tile region of an image holds (R188), by the image's context and address: its layout is private to the
device, so the model keeps its contents and no bytes. Beside R188's list: the frame of a call with its PC, what the
streams' bytes in the vector region have no place for, and failed writes. -/
structure TileImage where
  ctx : BitVec 16
  va : Word
  tiles : Vector TileRec 16
  nextInst : Vector (Fin 3) 16
  entries : List Entry
  /-- Bytes of the renamable instances, by entry, and of the fixed tiles, by name. -/
  rooms : List (Nat × List Byte)
  fixed : List (TName × List Byte)
  work : List TileInstr
  cmds : List Cmd
  nextId : Nat
  wait : Wait
  met : Bool
  /-- The wait of a frame asleep in VWAIT (R331, R348). -/
  frameWait : Wait := .none
  frameMet : Bool := false
  carry : List VReg
  /-- A call under way and its frame's scalar state. -/
  call : Option (Call × Hart)
  streams : List Stream
  failed : Option FailedWrite
  failedIsVector : Bool
  needTiles : Bool
  deriving DecidableEq, Repr

/-- One lane group of the lane allocation table (R290). -/
structure LaneEnt where
  owner : Option (BitVec 2) := none
  borrower : Option (BitVec 2) := none
  strip : Bool := false
  enabled : Bool := true
  deriving DecidableEq, Repr, Inhabited

/-- An instruction-cache line (R224). -/
structure ICLine where
  set : BitVec 8
  pa : Nat
  data : BitVec 512
  deriving DecidableEq, Repr

/-- What the key of a Sett entry holds beside its kind (R361): context, the word with its register-number fields 0,
the configuration, the sources' contents (R355: equal names mean equal contents), the scalar operands. -/
structure SettKey where
  ctx : BitVec 16
  word : BitVec 32
  vtype : BitVec 6
  lanes : Nat
  vl : Nat
  frm : Nat
  vxrm : Nat
  srcs : List (Option VReg)
  scalars : List Word
  deriving DecidableEq, Repr

/-- A Sett table entry (R360): kind 0 operation, 1 scratchpad load, 2 CONST load; the list that holds the entries is
most recently used first. -/
structure SettEntry where
  kind : BitVec 2
  key : SettKey
  first : Nat
  last : Nat
  slot : BitVec 2
  stamp : BitVec 16
  result : VReg
  /-- fflags and vxsat raised by the original execution. -/
  flags : BitVec 6
  deriving DecidableEq, Repr

/-- A named den (R354, R355): its context, contents and collision index. -/
structure Den where
  ctx : BitVec 16
  val : VReg
  index : Nat
  deriving DecidableEq, Repr

/-- Words held in the lane instruction buffer: their context, address, and whether a call's function (R345). -/
structure LaneCode where
  ctx : BitVec 16
  addr : Word
  fn : Bool
  words : List (BitVec 32)
  deriving DecidableEq, Repr

/-- A remote chunk latched in the operand buffer of a slot's micro-operation (R282, R394): the instruction it is of, the
owning core, the chunk of its scratchpad, its bytes. -/
structure OpChunk where
  slot : SlotId
  instr : Nat
  owner : Nat
  chunk : Nat
  data : BitVec 4096
  deriving DecidableEq, Repr

/-- A core (R16). -/
structure Core where
  fused : Bool := false
  fenced : Bool := false
  lanes : Vector LaneEnt 16 := Vector.replicate 16 {}
  icache : List ICLine := []
  /-- Outstanding IPREFs and DPREFs (R227, R228): the line, the slot that asked, and the port of a line in host memory. -/
  fills : List (LineFill × SlotId × Nat) := []
  hints : List (Nat × SlotId) := []
  itlb : List TlbEntry := []
  dtlb : List TlbEntry := []
  sett : List SettEntry := []
  /-- Dens that carry a name (R355). -/
  dens : List Den := []
  stamp : Vector (BitVec 16) 4 := Vector.replicate 4 0
  /-- The lane instruction buffer: lane functions and VSPLIT regions held (R339, R345). -/
  lib : List LaneCode := []
  postings : List Posting := []
  opbuf : List OpChunk := []
  /-- Issue pointer and consecutive issues left, per engine: lane, matrix, copy, exchange (R174). -/
  issue : Vector (BitVec 2 × Nat) 4 := Vector.replicate 4 (0, 1)
  /-- Slots that forfeit their next turn, per engine (YIELD, R221). -/
  forfeit : List (Engine × BitVec 2) := []
  deriving DecidableEq, Repr

/-- A block sent to a Steward and not placed: new, or evicted with an image (R142, R152). -/
structure Pending where
  queue : QId
  number : BitVec 32
  wid : Word
  recVA : Word
  level : BitVec 2
  since : Nat
  /-- Clock at which the block came to its level (R43). -/
  reached : Nat := 0
  image : Option Word := none
  token : Word := 0
  /-- A REPLAY matched its token, or it carries none. -/
  ready : Bool := true
  /-- VA and kind of the access it parked on, and whether an abort has ended that access (R490). -/
  parked : Option (Word × Access) := none
  aborted : Bool := false
  /-- The TLAUNCH of the block, where it is the read of its record that parked (R153, R154). -/
  child : Option EventRec := none
  /-- The Steward has taken its PLACE or EVICTED record. -/
  seen : Bool := false
  /-- Core and first room chunk that an evicted block of a group stood at (R189). -/
  stood : Option (Nat × Nat) := none
  deriving DecidableEq, Repr

/-- A Porter's registers and commands (R240, R249, R267). -/
structure Porter where
  run : Bool := true
  /-- run was cleared while commands were outstanding: it takes effect when none is (R267). -/
  stopping : Bool := false
  custom : Bool := false
  ctx : BitVec 16 := 0
  image : BitVec 16 := 0xFFFF
  halted : Bool := false
  fwops : BitVec 8 := 0
  cmds : List Cmd := []
  /-- Parameter blocks cached: context, block VA, block; most recent first. -/
  pbcache : List (BitVec 16 × Word × PBlock) := []
  fenced : Bool := false
  rr : BitVec 3 := 0
  idleSince : Nat := 0
  deriving DecidableEq, Repr

/-- A bound TSEND and its next chunk (R278). -/
structure Send where
  slot : SlotId
  instr : Nat
  dests : BitVec 8
  mask : Word
  ch : BitVec 4
  next : Nat
  /-- Issued through the exchange port (R174). -/
  issued : Bool := false
  deriving DecidableEq, Repr

/-- Crossroads of a cluster (R273, R278, R282, R284). -/
structure Crossroads where
  frame : Nat := 0
  sends : List Send := []
  barriers : Vector Barrier 16 := Vector.replicate 16 {}
  remote : List RemoteReq := []
  /-- Core whose remote requests were served last (R282). -/
  rr : BitVec 3 := 7
  deriving DecidableEq, Repr

/-- A Steward: its hart and its wait (R147, R148). -/
structure Steward where
  hart : Hart := {}
  /-- Runs code placed in its local memory; otherwise the vendor firmware's decisions are steps (log 6). -/
  code : Bool := false
  stopped : Bool := false
  /-- EVWAIT: destination register and deadline. -/
  wait : Option (Reg × Option Nat) := none
  deriving DecidableEq, Repr

/-- A cluster (R17). -/
structure Cluster where
  steward : Steward := {}
  fenced : Bool := false
  head : Word := 0
  tail : Word := 0
  /-- Event records that sources hold while the queue is full (R146). -/
  held : List EventRec := []
  pending : List Pending := []
  /-- TLAUNCHes whose record's read is to be tried again (R153, R154). -/
  again : List EventRec := []
  stlb : List TlbEntry := []
  porter : Porter := {}
  xr : Crossroads := {}
  service : Nat := 0
  deriving DecidableEq, Repr

/-! ### Dispatcher, fabric and ports -/

/-- A launch queue (R131, R132, R510). -/
structure Queue where
  enabled : Bool := false
  status : BitVec 8 := 0
  ring : Nat := 0
  log2 : Nat := 4
  priority : BitVec 2 := 0
  ctx : BitVec 16 := 0
  hostTail : Bool := false
  tailVA : Word := 0
  headVA : Word := 0
  cring : Nat := 0
  clog2 : Nat := 4
  ctailVA : Word := 0
  cheadVA : Word := 0
  head : Word := 0
  /-- The tail word as last read. -/
  tail : Word := 0
  /-- A read of the tail word waits, so that it is to be made again (R133). -/
  reread : Bool := false
  ctail : Word := 0
  chead : Word := 0
  /-- The words that an enable sets to 0 are yet to be written (R132). -/
  setup : Bool := false
  /-- Last acceptance number given, and how many records have been consumed since the enable. -/
  number : BitVec 32 := 0
  consumed : Nat := 0
  park : Option (Word × Word × Access) := none
  deriving DecidableEq, Repr

/-- A consumed launch whose completion record is not written yet (R135 - R139, R154). -/
structure Launch where
  queue : QId
  number : BitVec 32
  recVA : Word
  ctx : BitVec 16
  lrec : LaunchRec
  refused : Option (BitVec 8) := none
  /-- Dependences met (R138); otherwise the launch waited for. -/
  ready : Bool := false
  waits : Option (QId × BitVec 32) := none
  /-- Blocks sent so far, in ascending work identifier, and blocks that came back to the Dispatcher. -/
  sent : Nat := 0
  back : List Word := []
  /-- Those of `back` that have an image. -/
  images : List Pending := []
  /-- Level of each block of `back`, since when it waits there, and when it came to it (R43). -/
  backAge : List (Word × BitVec 2 × Nat × Nat) := []
  level : BitVec 2 := 0
  since : Nat := 0
  ended : Word := 0
  faulted : Word := 0
  unrun : Word := 0
  rerun : Word := 0
  /-- Work identifiers of the blocks counted in `rerun`: each counts once (R499). -/
  rerunIds : List Word := []
  children : Word := 0
  openChildren : Nat := 0
  /-- The first fault record, 64 bytes. -/
  fault : Option (List Byte) := none
  ctxfeat : Bool := false
  fencedpart : Bool := false
  parent : Option (QId × BitVec 32) := none
  depth : Nat := 0
  deriving DecidableEq, Repr

/-- The Dispatcher (R131 - R141, R511). -/
structure Disp where
  queues : Tbl Queue := []
  launches : List Launch := []
  rr : Vector QId 4 := Vector.replicate 4 0
  /-- Queue whose launch had a block placed last, per level (R43). -/
  placeRr : Vector QId 4 := Vector.replicate 4 0
  /-- Last PREEMPT sent: unit (queue, number, first block), level, clock. -/
  preempts : List (QId × BitVec 32 × Nat × BitVec 2 × Nat) := []
  /-- CQPUSH summaries received (R151). -/
  summaries : List (ClusterId × BitVec 512) := []
  deriving DecidableEq, Repr

/-- An answer on its way back to a source (R403, R406): sequence number, tag or none, data. -/
structure Reply where
  src : Nat
  seq : BitVec 16
  tag : Option (BitVec 16)
  data : List Byte
  fault : Option Cause
  deriving DecidableEq, Repr

/-- A source's copy of an unanswered request (R403). -/
structure Unanswered where
  slice : SliceId
  req : Request
  resends : Nat
  deadline : Nat
  reported : Bool
  deriving DecidableEq, Repr

/-- A slice (R401 - R408, R426, R429). -/
structure Slice where
  fenced : Bool := false
  /-- Column lines held, most recent first, by line address (PA of the first granule). -/
  resident : List Nat := []
  dirty : List Nat := []
  /-- Dirty lines whose last write came from a host port (R450). -/
  hostDirty : List Nat := []
  /-- Next sequence number expected of each source. -/
  expected : Tbl (BitVec 16) := []
  /-- Kept acknowledgements. -/
  kept : List Reply := []
  ingress : List Request := []
  /-- Admitted requests that wait in the ingress queue for a miss-status entry, or behind one to their granule (R407). -/
  waiting : List Request := []
  /-- Lines being filled, with the requests that wait for them. -/
  mshr : List (Nat × List Request) := []
  replies : List Reply := []
  deriving DecidableEq, Repr

/-- An access-counter table (R462, R492). -/
structure Counters where
  en : Bool := false
  dev : Bool := false
  host : Bool := false
  sample : BitVec 4 := 0
  /-- Frame, device count, host count, in entry order. -/
  entries : List (Nat × BitVec 16 × BitVec 16) := []
  ticks : Nat := 0
  buffer : BitVec 40 := 0
  busy : Bool := false
  /-- The buffer that the dump under way goes to. -/
  target : BitVec 40 := 0
  /-- A clear that waits for the dump under way. -/
  clearAfter : Bool := false
  deriving DecidableEq, Repr

/-- A completion of a base die (R450), for a slice; of its write queue or its read queue. -/
structure BaseDone where
  tag : Nat
  data : BitVec 256
  ctr : BitVec 16
  zero : Bool
  /-- The fault that takes the data's place, and the reason of R456 for a sector. -/
  err : Option (Cause × BitVec 4)
  slice : Nat
  write : Bool
  deriving DecidableEq, Repr

/-- A base die (R449 - R463). -/
structure BaseDie where
  decoded : BitVec 32 := 0
  errors : BitVec 16 := 0
  reason : BitVec 4 := 0
  errPA : Nat := 0
  ac : Counters := {}
  /-- Stripes waiting for a decode, with the (tag, column) pairs they answer. -/
  sectors : List (Nat × List (Nat × BitVec 4)) := []
  /-- Decoded sectors, most recent first. -/
  buffer : List (Nat × BitVec 4096) := []
  /-- Stripes written while their decode was in flight, with the bytes that it has read (R460). -/
  stale : List (Nat × List Byte) := []
  /-- SECTOR requests that found the sector queue full and that their slices hold: tag, stripe, column (R458). -/
  heldSectors : List (Nat × Nat × BitVec 4) := []
  done : List BaseDone := []
  deriving DecidableEq, Repr

/-- A SETTLE register (R461). -/
structure Settle where
  base : BitVec 40 := 0
  pages : BitVec 12 := 0
  /-- The range of the settle under way: its first byte and its bytes. -/
  range : Option (Nat × Nat) := none
  deriving DecidableEq, Repr

/-- State of a Ferry crossing (R470, R474 - R477). -/
inductive XState where | active | turning | retraining | removed
  deriving DecidableEq, Repr

/-- A Ferry crossing (R474 - R477): the transmitter's retry buffer with its link sequences, the link sequence that the
receiver expects, and the clocks of CRC failures, replays, retrains. -/
structure Xing where
  dir : Bool := true
  rotation : Bool := true
  state : XState := .active
  spares : Nat := 0
  retrains : Nat := 0
  crcTimes : List Nat := []
  replayTimes : List Nat := []
  retrainTimes : List Nat := []
  txSeq : BitVec 16 := 0
  rxSeq : BitVec 16 := 0
  retry : List (BitVec 16 × Flit) := []
  /-- Clock of the last acknowledgement, replay, or flit sent into an empty retry buffer (R476). -/
  acked : Nat := 0
  deriving DecidableEq, Repr

/-- A plan entry of the Ferry (R468). -/
structure Plan where
  target : Nat
  tag : BitVec 16
  accepted : Nat
  deriving DecidableEq, Repr

/-- The Ferry controller (R464 - R479). -/
structure Ferry where
  rest : BitVec 6 := 24
  hold : Bool := false
  helm : Option (QId × BitVec 32) := none
  firstPlaced : List (QId × BitVec 32) := []
  plan : List Plan := []
  restPlan : Bool := false
  lastTag : BitVec 16 := 0
  /-- A turn: crossing, new direction, step, clock it began. -/
  turn : Option (XingId × Bool × Nat × Nat) := none
  lastTurnEnd : Nat := 0
  /-- Clock since which the controller has had what it serves: the head entry or the rest plan (R472). -/
  headAt : Nat := 0
  turns : BitVec 32 := 0
  expired : BitVec 16 := 0
  retrains : BitVec 16 := 0
  /-- Flits of removed crossings that wait for room on another crossing of their direction (R477). -/
  orphans : List (Bool × Flit) := []
  xings : Vector Xing 48 := Vector.ofFn fun c => { dir := decide (c.val < 24) }
  deriving DecidableEq, Repr

/-- A driver queue or the health log (R488). -/
structure DrvQ where
  /-- The descriptor as last written, 64 bytes. -/
  desc : BitVec 512 := 0
  enabled : Bool := false
  ring : Nat := 0
  log2 : Nat := 4
  tailPA : Nat := 0
  headPA : Nat := 0
  donePA : Nat := 0
  tail : Word := 0
  head : Word := 0
  /-- The words that an enable sets to 0 are yet to be written (R488). -/
  setup : Bool := false
  /-- Entries the queue cannot take yet (R489, R512). -/
  held : List (List Byte) := []
  deriving DecidableEq, Repr

/-- A block that has written a dirty host line (R486): its slot, launch and work identifier, and the failed write that it
is if the line is lost. -/
structure HostWriter where
  slot : SlotId
  queue : QId
  number : BitVec 32
  wid : Word
  fail : FailedWrite
  deriving DecidableEq, Repr

/-- A line of a host-line cache (R402, R413): while it is dirty, the bytes that the host still has of it, and who wrote
it. -/
structure HostLine where
  line : Nat
  owned : Bool
  dirty : Bool
  before : List Byte := []
  /-- Order counters of its two granules, kept while the line is held (R406). -/
  ctrs : BitVec 16 × BitVec 16 := (0, 0)
  writers : List HostWriter := []
  deriving DecidableEq, Repr

/-- A host port (R480 - R492). -/
structure Port where
  up : Bool := true
  rate : BitVec 2 := 3
  width : BitVec 2 := 3
  retrains : Nat := 0
  downSince : Nat := 0
  fenced : Bool := false
  hwinEnable : Bool := false
  hwinLimit : BitVec 39 := 0
  lines : List HostLine := []
  hac : Counters := {}
  /-- Answers to host requests: address, data or none for an error or unsupported request. -/
  replies : List (Nat × Option (List Byte)) := []
  /-- CXL.mem requests that wait behind others at their granule (R405, R412). -/
  waiting : List HostReq := []
  /-- Base of the host physical range that the HDM decoder maps to HBM (R481, R482). -/
  hdmBase : Word := 0
  deriving DecidableEq, Repr

/-- The three driver queues and the invalidation in progress (R487 - R491). -/
structure Driver where
  fault : DrvQ := {}
  replay : DrvQ := {}
  inval : DrvQ := {}
  /-- Clusters that have not retired the TLBINV, rs1, rs2, sequence number. -/
  pending : Option (List ClusterId × Word × Word × Word) := none
  /-- The queue was enabled again while the request was in progress (R512). -/
  orphan : Bool := false
  lastDone : Option Word := none
  /-- Bytes lost with a port's host-line cache that are still to be written again (R487): the queue, the
  address, the bytes. -/
  rewrite : List (DriverQ × Nat × List Byte) := []
  deriving DecidableEq, Repr

/-- The fuses that boot reads (R503, R504): the two keys and the least version; which cores are fused off stands with them
(`Core.fused`). -/
structure Fuses where
  ed25519 : Nat := 0
  mldsa : Nat := 0
  minimum : BitVec 32 := 0
  deriving DecidableEq, Repr

/-- A SPDM response (R505): its transcript, and the two signatures over it. -/
structure Measured where
  transcript : BitVec 512
  mldsa : Word
  ed25519 : Word
  deriving DecidableEq, Repr

/-- The health controller (R493 - R507). -/
structure Health where
  log : DrvQ := {}
  jValid : Bool := false
  jBase : BitVec 29 := 0
  busy : Bool := false
  boot : BitVec 2 := 0
  bootFail : BitVec 6 := 0
  version : BitVec 32 := 0
  cap : BitVec 11 := 1600
  now : BitVec 11 := 0
  junction : BitVec 8 := 0
  inlet : BitVec 8 := 0
  slow : Bool := false
  tooHot : Bool := false
  slowdown : Nat := 0
  traceOn : Bool := false
  traceSlice : BitVec 7 := 0
  traceDie : Bool := false
  /-- Acknowledgements traced so far. -/
  traceCount : Nat := 0
  /-- Trace records, 32 bytes each, newest first, at most 1,024. -/
  trace : List (BitVec 256) := []
  retired : List Nat := []
  fenced : List UnitCode := []
  /-- Correctable events: unit, clocks at which they were counted. -/
  counts : List (UnitCode × List Nat) := []
  /-- Reads that met uncorrectable data in HBM (R493): each granule once, the clock of the last. -/
  badReads : List (Nat × Nat) := []
  msix : List (BitVec 6) := []
  /-- Units to be fenced, with the log's cause and count, once a warm reset completes (R498). -/
  deferred : List (UnitCode × BitVec 8 × BitVec 16) := []
  /-- SPDM measurement requests answered, and the last answer (R505). -/
  measured : Nat := 0
  answer : Option Measured := none
  deriving DecidableEq, Repr

/-- Whether the module runs (R503, R506). -/
inductive Power where | on | off
  deriving DecidableEq, Repr

/-- Something on its way to a watcher (R414). -/
structure Notice where
  who : Watcher
  pa : Nat
  deriving DecidableEq, Repr

/-- A watch (R414): its granule, and whether it found the table full and polls. -/
structure Watch where
  who : Watcher
  gran : Nat
  /-- The ordering point whose table it stands in. -/
  point : Nat
  polls : Bool
  deriving DecidableEq, Repr

/-- One Cielamel Y2. -/
structure State where
  grade640S : Bool := false
  fuses : Fuses := {}
  /-- Bytes that are not 0, in rising order of physical address. -/
  mem : List Host.Cell := []
  gran : Tbl Gran := []
  clock : Nat := 0
  free : Nat := 0
  /-- Steps and inputs taken before anything else, in order. -/
  agenda : List Instr := []
  /-- Whose instruction comes next; `engineTurn` puts an engine step before it. -/
  cur : HartId := .block 0
  engineTurn : Bool := true
  /-- The words of the instruction under way, first word in the low half. -/
  ir : BitVec 64 := 0
  power : Power := .on
  /-- Clock of the last core reset, for ctl.cycle (R100). -/
  resetAt : Nat := 0
  slots : Tbl Slot := []
  cores : Tbl Core := []
  clusters : Tbl Cluster := []
  disp : Disp := {}
  /-- SC sequence counter and its mirror (R327, R497). -/
  ticket : Word := 0
  tokenNext : Word := 1
  ctxEnable : Bool := false
  ctxBase : BitVec 40 := 0
  /-- Per die: cached context entries, walk caches, walks. -/
  ctxCache : Tbl (List (BitVec 16 × Nat)) := []
  walkCaches : Tbl (List WalkEntry) := []
  walks : Tbl (List Walk) := []
  /-- Per die: misses that wait for a walker, in arrival order, and the cluster, 16 for the Dispatcher, served last (R445). -/
  walkQueue : Tbl (List WalkReq) := []
  walkTurn : Tbl Nat := []
  watches : List Watch := []
  notices : List Notice := []
  snoops : List Snoop := []
  /-- Writes of Porters and the Dispatcher to registers (R28), performed as the step that made them ends: source, address,
  bytes. -/
  regWrites : List (Nat × Nat × List Byte) := []
  unanswered : List Unanswered := []
  slices : Tbl Slice := []
  bases : Tbl BaseDie := []
  settle : Tbl Settle := []
  ferry : Ferry := {}
  ports : Tbl Port := []
  drv : Driver := {}
  health : Health := {}
  /-- Tile regions of images, whose layout is private (R237). -/
  savedTiles : List TileImage := []
  deriving DecidableEq, Repr

/-- The machine right after a cold reset, its boot ROM still to verify a bundle: R503, R507; the values the spec does not
give are those of log 5. -/
def State.reset : State := {}

end Sys2Proof.Machine
end

