-- ==== Sys2Proof/Machine/Access.lean ====
section
/-! DEFINITION. The parts of State by name, the physical map (R19, R23 - R30, R449), and the access of one granule
at its ordering point (R401 - R414, R424 - R426). -/
namespace Sys2Proof.Machine

/-! ### Parts of the state -/

def State.slot (s : State) (sl : SlotId) : Slot := Tbl.get {} s.slots sl.toNat
def State.setSlot (s : State) (sl : SlotId) (v : Slot) : State := { s with slots := Tbl.set s.slots sl.toNat v }
def State.modSlot (s : State) (sl : SlotId) (f : Slot → Slot) : State := s.setSlot sl (f (s.slot sl))
def State.core (s : State) (c : Nat) : Core := Tbl.get {} s.cores c
def State.setCore (s : State) (c : Nat) (v : Core) : State := { s with cores := Tbl.set s.cores c v }
def State.modCore (s : State) (c : Nat) (f : Core → Core) : State := s.setCore c (f (s.core c))
def State.cluster (s : State) (k : Nat) : Cluster := Tbl.get {} s.clusters k
def State.setCluster (s : State) (k : Nat) (v : Cluster) : State := { s with clusters := Tbl.set s.clusters k v }
def State.modCluster (s : State) (k : Nat) (f : Cluster → Cluster) : State := s.setCluster k (f (s.cluster k))
def State.slice (s : State) (i : Nat) : Slice := Tbl.get {} s.slices i
def State.modSlice (s : State) (i : Nat) (f : Slice → Slice) : State :=
  { s with slices := Tbl.set s.slices i (f (s.slice i)) }
def State.base (s : State) (b : Nat) : BaseDie := Tbl.get {} s.bases b
def State.modBase (s : State) (b : Nat) (f : BaseDie → BaseDie) : State :=
  { s with bases := Tbl.set s.bases b (f (s.base b)) }
def State.port (s : State) (p : Nat) : Port := Tbl.get {} s.ports p
def State.modPort (s : State) (p : Nat) (f : Port → Port) : State :=
  { s with ports := Tbl.set s.ports p (f (s.port p)) }
def State.granule (s : State) (g : Nat) : Gran := Tbl.get {} s.gran g
def State.modGran (s : State) (g : Nat) (f : Gran → Gran) : State :=
  { s with gran := Tbl.set s.gran g (f (s.granule g)) }
def State.setMem (s : State) (m : Memory) : State := { s with mem := m }

/-- The core of a slot, its number in the core, its cluster (R14, R31). -/
def slotCore (sl : SlotId) : Nat := sl.toNat / 4
def slotNum (sl : SlotId) : Nat := sl.toNat % 4
def slotOf (core n : Nat) : SlotId := BitVec.ofNat 10 (core * 4 + n)
def coreCluster (c : Nat) : Nat := c / 8
def slotCluster (sl : SlotId) : Nat := sl.toNat / 32
def clusterDie (k : Nat) : Nat := k / 16

/-- Draw a free value (log 3). -/
def State.draw (s : State) : State := { s with free := s.free + 1 }

/-- One of several, freely chosen (log 3); the only one where there is one. -/
def pick {α : Type} (n : Nat) : List α → Option α
  | [] => none
  | [a] => some a
  | l => l[Config.choice n % l.length]?

/-! ### The physical map -/

/-- What a physical address names (R23, R25). -/
inductive Region where
  | hbm (die : Nat)
  | host (h : Nat)
  | core (c : Nat) (off : Nat)
  | cluster (k : Nat) (off : Nat)
  | device (off : Nat)
  | reserved
  deriving DecidableEq, Repr

/-- R23. -/
def regionOf (pa : Nat) : Region :=
  if pa < Config.hbmW then .hbm 0
  else if pa < Config.hbmEnd then .hbm 1
  else if pa < Config.cxlBase then .reserved
  else if pa < Config.cxlEnd then .host (pa - Config.cxlBase)
  else if pa < Config.clusterWin then .core ((pa - Config.coreWin) / 0x100000) ((pa - Config.coreWin) % 0x100000)
  else if pa < Config.deviceWin then
    .cluster ((pa - Config.clusterWin) / 0x100000) ((pa - Config.clusterWin) % 0x100000)
  else if pa < Config.deviceEnd then .device (pa - Config.deviceWin)
  else .reserved

/-- Parts of a core window (R26). -/
inductive WinPart where
  | scratch (off : Nat) | acc (off : Nat) | stream (slot k : Nat) (off : Nat) | ctl (slot : Nat) (off : Nat)
  deriving DecidableEq, Repr

/-- R26. -/
def winPart (off : Nat) : WinPart :=
  if off < 0x80000 then .scratch off
  else if off < 0xC0000 then .acc (off - 0x80000)
  else if off < 0xE0000 then .stream ((off - 0xC0000) / 0x8000) ((off - 0xC0000) / 0x1000 % 8) ((off - 0xC0000) % 0x1000)
  else .ctl ((off - 0xE0000) / 0x8000) ((off - 0xE0000) % 0x8000)

/-- Base of a core window (R25). -/
def coreBase (c : Nat) : Nat := Config.coreWin + c * 0x100000
/-- Base of a cluster window (R25). -/
def clusterBase (k : Nat) : Nat := Config.clusterWin + k * 0x100000
/-- PA of a scratchpad byte (R26). -/
def scratchPA (c off : Nat) : Nat := coreBase c + off
/-- PA of the FP32 element (row, col) of a physical accumulator (R27). -/
def accPA (c n row col : Nat) : Nat := coreBase c + 0x80000 + n * 0x10000 + (row * 128 + col) * 4

/-- The die of an HBM address. -/
def hbmDie (pa : Nat) : Nat := if pa < Config.hbmW then 0 else 1
/-- Slice number of an HBM granule: die x 80 + column x 5 + slice (R19). -/
def sliceOf (pa : Nat) : Nat := hbmDie pa * 80 + pa / 32 % 16 * 5 + pa / 512 % 5
/-- Stripe number within the die's HBM range (R449). -/
def stripeIn (pa : Nat) : Nat := (pa - hbmDie pa * Config.hbmW) / 512
/-- Base die of an HBM granule: die x 5 + stack (R449, R461). -/
def baseOf (pa : Nat) : Nat := hbmDie pa * 5 + stripeIn pa % 5
/-- Channel of an HBM granule: die x 160 + stack x 32 + channel (R449). -/
def channelOf (pa : Nat) : Nat :=
  hbmDie pa * 160 + stripeIn pa % 5 * 32 + pa / 32 % 16 * 2 + stripeIn pa / 5 % 2
/-- The PA of the first granule of the column line that holds a granule (R19). -/
def lineOf (pa : Nat) : Nat :=
  let q := pa / 512
  (q / 20 * 20 + q % 5) * 512 + pa % 512 / 32 * 32

/-- Unit codes (R495). -/
def unitCode (kind die index : Nat) : UnitCode := BitVec.ofNat 32 (kind + die * 16 + index * 32)
def coreCode (c : Nat) : UnitCode := unitCode 1 (c / 128) (c % 128)
def stewardCode (k : Nat) : UnitCode := unitCode 2 (k / 16) (k % 16)
def porterCode (k : Nat) : UnitCode := unitCode 3 (k / 16) (k % 16)
def sliceCode (i : Nat) : UnitCode := unitCode 4 (i / 80) (i % 80)
def channelCode (c : Nat) : UnitCode := unitCode 5 (c / 160) (c % 160)
def xingCode (c : Nat) : UnitCode := unitCode 6 0 c
def portCode (p : Nat) : UnitCode := unitCode 7 p p

/-- A port carries accesses when it is neither fenced nor down (R486, R487). -/
def State.portUp (s : State) (p : Nat) : Bool := (s.port p).up && !(s.port p).fenced

/-- The port that carries an access whose leaf names port p: the other one where p does not serve (R486). -/
def State.routePort (s : State) (p : Nat) : Option Nat :=
  if s.portUp p then some p else if s.portUp (1 - p) then some (1 - p) else none

/-- First host address that a port does not reach (R485): 0 while the window is closed. -/
def State.hwinLimit (s : State) (p : Nat) : Nat :=
  if (s.port p).hwinEnable then (s.port p).hwinLimit.toNat * 4096 else 0

/-! ### Exceptions of an access -/

/-- An instruction that does not complete at this step: it traps, or it waits and is tried again. -/
inductive Exc where
  | trap (t : Trap)
  | stall
  deriving DecidableEq, Repr

/-- A computation over the machine's state. -/
abbrev M := EStateM Exc State

def trap {α : Type} (t : Trap) : M α := throw (.trap t)
def stall {α : Type} : M α := throw .stall
/-- A fault of an access at a virtual address (R205). -/
def accessFault {α : Type} (c : Cause) (va : Word) (level : Nat) (acc : Access) : M α :=
  trap { cause := c, va := va, vaValid := true, level := level, acc := acc }

/-! ### One granule at its ordering point -/

/-- Who makes an access, for sequence numbers and the trace (R403); numbers are log 12. -/
abbrev Source := Nat
def corePort (c plane : Nat) : Source := c * 16 + plane
def porterSrc (k : Nat) : Source := 4096 + k
def stewardSrc (k : Nat) : Source := 4128 + k
def dispatcherSrc : Source := 4160
def portSrc (p : Nat) : Source := 4161 + p
def healthSrc : Source := 4163

/-- Whether a granule's path meets a fenced unit (R426): an HBM channel, or the owning core of a window. -/
def State.pathFenced (s : State) (pa : Nat) : Bool :=
  match regionOf pa with
  | .hbm _ => s.health.fenced.contains (channelCode (channelOf pa))
  | .core c _ => (s.core c).fenced
  | .host _ => (s.port 0).fenced && (s.port 1).fenced
  | _ => false

/-- Whether an address is one that no access may reach (R3, R23, R485, R507): the ACCESS row of R205. -/
def State.unreachable (s : State) (pa : Nat) (home : Nat) : Bool :=
  match regionOf pa with
  | .hbm _ => s.health.retired.contains (channelOf pa)
  | .host h => decide (s.hwinLimit ((s.routePort home).getD home) ≤ h)
  | .core c _ => (s.core c).fused
  | .reserved => true
  | _ => false

/-- A granule's place in its channel (R449). -/
def channelAddr (pa : Nat) : Nat := stripeIn pa / 10 * 32

/-- The metadata of a granule says that HBM cannot correct it; one marked zero-on-read is not read there (R452). -/
def Gran.lost (g : Gran) : Bool := g.media && !g.zero

/-- Uncorrectable data in a granule (R424, R425, R452). -/
def State.corrupt (s : State) (pa : Nat) : Bool := (s.granule (pa / 32)).bad || (s.granule (pa / 32)).lost

/-- What the base die holds of granule number g: its bytes, and whether they are uncorrectable (R408, R451, R459). -/
def State.dram (s : State) (g : Nat) : List Byte × Bool :=
  match (s.granule g).below with
  | some (v, lost) => (bytesOfNat 32 v.toNat, lost)
  | none => (Memory.bytes s.mem (g * 32) 32, (s.granule g).lost)

/-- Clocks of 24 hours. -/
def dayClocks : Nat := 24 * 60 * 60 * 1000 * Config.msClocks

/-- A read of a granule has met uncorrectable data in HBM, if it has: it counts against its channel (R493). -/
def State.badRead (s : State) (pa : Nat) : State :=
  if (s.granule (pa / 32)).lost then
    let old := s.health.badReads.filter fun e => e.1 != pa / 32 && decide (s.clock < e.2 + dayClocks)
    { s with health := { s.health with badReads := (pa / 32, s.clock) :: old } }
  else s

/-- A count of one request in an access-counter table (R462): the sampling counter runs on at every request (log 16), and a new
frame takes the lowest free entry, the model's choice (log 91). -/
def Counters.count (c : Counters) (frame : Nat) (hostOrigin : Bool) : Counters :=
  let t := c.ticks + 1
  if !c.en || !(if hostOrigin then c.host else c.dev) || t % 2 ^ c.sample.toNat ≠ 0 then { c with ticks := t }
  else
    let inc (v : BitVec 16) : BitVec 16 := if v = 0xFFFF then v else v + 1
    let sat (n : Nat) : BitVec 16 := BitVec.ofNat 16 (Nat.min n 0xFFFF)
    if c.entries.any (fun e => e.1 == frame) then
      { c with ticks := t
               entries := c.entries.map fun e =>
                 if e.1 == frame then (if hostOrigin then (e.1, e.2.1, inc e.2.2) else (e.1, inc e.2.1, e.2.2)) else e }
    else
      let fresh (n : Nat) : Nat × BitVec 16 × BitVec 16 := if hostOrigin then (frame, 0, sat n) else (frame, sat n, 0)
      if c.entries.length < 1024 then { c with ticks := t, entries := c.entries ++ [fresh 1] }
      else
        let sum (e : Nat × BitVec 16 × BitVec 16) : Nat := e.2.1.toNat + e.2.2.toNat
        let least := c.entries.foldl (fun m e => Nat.min m (sum e)) 0x20000
        let i := c.entries.findIdx (fun e => sum e == least)
        { c with ticks := t, entries := setAt c.entries i (fresh (least + 1)) }

/-- A request performed at a base die is counted (R462). -/
def State.baseCount (s : State) (pa : Nat) (hostOrigin : Bool) : State :=
  s.modBase (baseOf pa) fun b => { b with ac := b.ac.count (pa / 65536) hostOrigin }

/-- The bytes that the base die holds of a stripe. -/
def State.dramStripe (s : State) (stripe : Nat) : List Byte := (List.range 16).flatMap fun g => (s.dram (stripe * 16 + g)).1

/-- A WRITE to a stripe, about to be performed at its base die (R460): its buffered sector is dropped; a decode of it under
way, in one of the four units, keeps the bytes that it has read. -/
def State.overDecode (s : State) (stripe : Nat) : State :=
  s.modBase (baseOf (stripe * 512)) fun b =>
    { b with buffer := b.buffer.filter (fun e => e.1 != stripe)
             stale := if (b.sectors.take 4).any (fun e => e.1 == stripe) && !b.stale.any (fun e => e.1 == stripe)
               then (stripe, s.dramStripe stripe) :: b.stale else b.stale }

/-- A WRITE or DISCARD of a granule reaches the base die. -/
def State.baseStore (s : State) (pa : Nat) (hostOrigin : Bool) : State :=
  (s.baseCount pa hostOrigin).overDecode (pa / 512)

/-- The four granules of a column line (R19). -/
def lineGranules (l : Nat) : List Nat := [l, l + 2560, l + 5120, l + 7680]

/-- A column line is read from its base die: four READs (R450, log 16). -/
def State.fillReads (s : State) (l : Nat) (hostOrigin : Bool) : State :=
  (lineGranules l).foldl (fun s g => s.baseCount g hostOrigin) s

/-- A dirty column line is written back: four WRITEs, of origin 1 where a host port wrote the line last (R450, log 16). It
stays resident and clean. Granules with uncorrectable data cannot be written back (R425). -/
def State.writeBack (s : State) (i l : Nat) : State :=
  let host := (s.slice i).hostDirty.contains l
  let s := ((lineGranules l).filter fun g => !(s.granule (g / 32)).bad).foldl (fun s g =>
    (s.baseStore g host).modGran (g / 32) fun x => { x with below := none }) s
  s.modSlice i fun x => { x with dirty := x.dirty.filter (· != l), hostDirty := x.hostDirty.filter (· != l) }

/-- A line that a write has made dirty, and whether a host port made that write. -/
def Slice.soil (x : Slice) (l : Nat) (hostOrigin : Bool) : Slice :=
  { x with dirty := if x.dirty.contains l then x.dirty else l :: x.dirty
           hostDirty := if hostOrigin then (if x.hostDirty.contains l then x.hostDirty else l :: x.hostDirty)
                        else x.hostDirty.filter (· != l) }

/-- What an access does to the slice's array (R407, R408): allocation under hint normal, recency, write-back of the
victim; a bypass hit invalidates a clean line, and a bypass write to one goes to the base die (log 80). The victim is a free
choice (R401). -/
def State.sliceTouch (s : State) (pa : Nat) (hint : Hint) (write whole hostOrigin : Bool) : State :=
  let i := sliceOf pa
  let l := lineOf pa
  let sl := s.slice i
  let hit := sl.resident.contains l
  let dirty := sl.dirty.contains l
  if sl.fenced then (if write then s.baseStore pa hostOrigin else s.baseCount pa hostOrigin)
  else if hit then
    match hint with
    | .normal =>
      s.modSlice i fun x =>
        let x := { x with resident := l :: x.resident.filter (· != l) }
        if write then x.soil l hostOrigin else x
    | .noalloc =>
      if write then s.modSlice i fun x => x.soil l hostOrigin else s
    | .bypass =>
      if dirty then (if write then s.modSlice i fun x => x.soil l hostOrigin else s)
      else (if write then s.baseStore pa hostOrigin else s).modSlice i fun x =>
        { x with resident := x.resident.filter (· != l) }
  else
    match hint with
    | .normal =>
      let s := if write && whole then s else s.fillReads l hostOrigin
      let s := s.modSlice i fun x =>
        let x := { x with resident := l :: x.resident }
        if write then x.soil l hostOrigin else x
      if (s.slice i).resident.length ≤ 65536 then s
      else
        let v := ((s.slice i).resident.getD (Config.choice s.free % 65536) l)
        let s := if (s.slice i).dirty.contains v then s.writeBack i v else s
        s.draw.modSlice i fun x => { x with resident := x.resident.filter (· != v) }
    | _ => if write then s.baseStore pa hostOrigin else s.baseCount pa hostOrigin

/-- One trace record (R507): source, sequence number, tag, duplicate flag, PA, time. -/
def traceRec (src : Source) (seq tag : BitVec 16) (dup : Bool) (pa time : Nat) : BitVec 256 :=
  BitVec.ofNat 256 (src % 65536 + seq.toNat * 2 ^ 16 + tag.toNat * 2 ^ 32 + (if dup then 2 ^ 48 else 0)
    + pa * 2 ^ 64 + time % 2 ^ 64 * 2 ^ 128)

/-- An acknowledgement of the selected slice overwrites the oldest trace record (R507). -/
def State.traceAck (s : State) (slice : Nat) (src : Source) (seq tag : BitVec 16) (dup : Bool) (pa : Nat) : State :=
  if s.health.traceOn && slice == (if s.health.traceDie then 80 else 0) + s.health.traceSlice.toNat then
    let h := s.health
    let rec_ := traceRec src seq tag dup pa s.clock
    { s with health := { h with trace := (rec_ :: h.trace).take 1024, traceCount := h.traceCount + 1 } }
  else s

/-- Notices to the watchers of a granule that has been written (R414); a watch that polls gets none. -/
def State.notify (s : State) (g : Nat) : State :=
  { s with notices := s.notices ++
      (s.watches.filter (fun w => w.gran == g && !w.polls)).map (fun w => Notice.mk w.who (g * 32)) }

/-- Notices to the watchers of a range of bytes that has been written (R45, R414). -/
def State.notifyRange (s : State) (pa n : Nat) : State :=
  let ws := s.watches.filter fun w => !w.polls && decide (pa / 32 ≤ w.gran) && decide (w.gran * 32 < pa + n)
  { s with notices := s.notices ++ ws.map fun w => Notice.mk w.who (w.gran * 32) }

/-- The order counters of a range's granules rise (R406). -/
def State.countRange (s : State) (pa n : Nat) : State :=
  (List.range' (pa / 32) ((pa + n + 31) / 32 - pa / 32)).foldl (fun s g => s.modGran g fun x => { x with ctr := x.ctr + 1 }) s

/-- The ordering point of a granule, as a number: a slice, a host-line cache, a window port (R401). -/
def State.orderPoint (s : State) (home pa : Nat) : Nat :=
  match regionOf pa with
  | .hbm _ => sliceOf pa
  | .host _ => 160 + (s.routePort home).getD home
  | .core c _ => 200 + c
  | _ => 1000

/-- Watch entries of an ordering point (R414). -/
def watchCap (point : Nat) : Nat := if point < 160 then 4096 else if point < 200 then 512 else 64

/-- Register a watch (R414): where the table is full, the watcher polls. -/
def State.addWatch (s : State) (who : Watcher) (home pa : Nat) : State :=
  let g := pa / 32
  if s.watches.any fun w => w.who == who && w.gran == g then s
  else
    let p := s.orderPoint home pa
    let n := (s.watches.filter fun w => w.point == p && !w.polls).length
    { s with watches := s.watches ++ [⟨who, g, p, decide (watchCap p ≤ n)⟩] }

/-- Cancel the watches of a watcher (R414). -/
def State.dropWatches (s : State) (who : Watcher) : State :=
  { s with watches := s.watches.filter (fun w => w.who != who), notices := s.notices.filter (fun n => n.who != who) }

/-- Cancel the watches of a watcher but those of some granules. -/
def State.dropWatchesBut (s : State) (who : Watcher) (keep : List Nat) : State :=
  { s with watches := s.watches.filter (fun w => w.who != who || keep.contains w.gran)
           notices := s.notices.filter (fun n => n.who != who || keep.contains (n.pa / 32)) }

/-- A write into scratchpad bytes kills the Sett load entries of that core that overlap their chunk (R30, R368), and
each kill counts in ctl.settkill of the slot that made the entry (R372). -/
def State.settKillChunk (s : State) (c chunk : Nat) : State :=
  let es := (s.core c).sett
  let hit (e : SettEntry) : Bool := e.kind == 1 && decide (e.first ≤ chunk) && decide (chunk ≤ e.last)
  let dead := es.filter hit
  if dead.isEmpty then s
  else
    let s := s.modCore c fun x => { x with sett := x.sett.filter (fun e => !hit e) }
    dead.foldl (fun s e => s.modSlot (slotOf c e.slot.toNat) fun x =>
      if (s.core c).stamp[e.slot.toNat]! == e.stamp then
        { x with hart := { x.hart with settkill := x.hart.settkill + 1 } } else x) s

/-- The slice's sequence number of a request of a source, and the next one (R403, R429). -/
def State.nextSeq (s : State) (slice : Nat) (src : Source) : BitVec 16 × State :=
  let n := Tbl.get 0 (s.slice slice).expected src
  (n, s.modSlice slice fun x => { x with expected := Tbl.set x.expected src (n + 1) })

/-- A line leaves a port's cache: those who watch it, whose watch rests on the line, are told (R413, R414). -/
def State.dropLine (s : State) (p line : Nat) : State :=
  if (s.port p).lines.any fun y => y.line == line then
    (s.modPort p fun x => { x with lines := x.lines.filter fun y => y.line != line }).notifyRange (line * 64) 64
  else s

/-- A CXL.cache request of a port for host memory is counted, under the frame of its address (R492). -/
def State.hostCount (s : State) (p pa : Nat) (write : Bool) : State :=
  s.modPort p fun x => { x with hac := x.hac.count ((pa - Config.cxlBase) / 65536) write }

/-- A port's cache holds 32,768 lines (R402): where a new one is one too many, another leaves, a free choice (log 3). -/
def State.trimLines (s : State) (p : Nat) : State :=
  if (s.port p).lines.length ≤ 32768 then s
  else match (s.port p).lines[1 + Config.choice s.free % 32768]? with
    | some y =>
      let s := if y.dirty then s.hostCount p (y.line * 64) true else s
      s.draw.dropLine p y.line
    | none => s

/-- What the host's coherence does to the other port's copy of a line that a port gets (R402, R413): to be written, the copy
goes; to be read, it stays, shared and clean. Its dirty data goes back to the host. -/
def State.otherPort (s : State) (p line : Nat) (own : Bool) : State :=
  let q := 1 - p
  if !(s.port q).lines.any fun y => y.line == line then s
  else if own then s.dropLine q line
  else s.modPort q fun x => { x with lines := x.lines.map fun y => if y.line == line then { line := line, owned := false, dirty := false, ctrs := y.ctrs } else y }

/-- The line of a host address in a port's cache (R402, R413); a line that is not held is asked for, which counts
in the port's counters (R492); its granules' counters start at 0 (R406). -/
def State.hostTouch (s : State) (home pa : Nat) (write : Bool) : State :=
  let p := (s.routePort home).getD home
  let l := pa / 64
  let have? := (s.port p).lines.find? (fun x => x.line == l)
  let upd (owned dirty : Bool) (s : State) : State := s.modPort p fun x =>
    let old := have?.filter fun y => y.dirty
    let e : HostLine :=
      { line := l, owned := owned, dirty := dirty || old.isSome
        before := match old with | some y => y.before | none => if dirty then Memory.bytes s.mem (l * 64) 64 else []
        ctrs := match have? with | some y => y.ctrs | none => (0, 0)
        writers := match old with | some y => y.writers | none => [] }
    { x with lines := e :: x.lines.filter (fun y => y.line != l) }
  let upd (owned dirty : Bool) (s : State) : State := (upd owned dirty s).trimLines p
  let ask (s : State) : State := (s.otherPort p l write).hostCount p pa write
  match have? with
  | some x => if write then (if x.owned then upd true true s else upd true true (ask s)) else s
  | none => upd write write (ask s)

/-- A source is a host port (R462). -/
def fromHost (src : Source) : Bool := src == portSrc 0 || src == portSrc 1

/-- A read performed at a granule's ordering point: the array, recency and counters (R405, R408). -/
def State.didRead (s : State) (src : Source) (home pa : Nat) (hint : Hint) : State :=
  match regionOf pa with
  | .hbm _ =>
    let (_, s) := s.nextSeq (sliceOf pa) src
    s.sliceTouch pa hint false false (fromHost src)
  | .host _ => s.hostTouch home pa false
  | _ => s

/-- What a write does to a granule beside its place in the fabric: the bytes; the order counter rises (R406), a
zero-on-read mark clears (R410), a whole write ends a bad granule (R425), and so does any write of one that reads as zero
(R452). -/
def State.putGranule (s : State) (pa : Nat) (bs : List Byte) : State :=
  let whole := bs.length == 32
  (s.setMem (Memory.putAll s.mem pa bs)).modGran (pa / 32) fun x =>
    { x with ctr := x.ctr + 1, zero := false, bad := x.bad && !whole, media := x.lost && !whole }

/-- A granule of a line that is dirty is yet to be written back: the base die holds what it held (R408, R459). -/
def State.keepBelow (s : State) (pa : Nat) (old : List Byte × Bool) : State :=
  if (s.slice (sliceOf pa)).dirty.contains (lineOf pa) then
    s.modGran (pa / 32) fun x => { x with below := some (BitVec.ofNat 256 (natOfBytes old.1), old.2) }
  else s

/-- A write of HBM performed at its slice as request `seq` of its source (R405 - R408); watchers are told (R414). -/
def State.sliceWrite (s : State) (src : Source) (seq : BitVec 16) (pa : Nat) (hint : Hint) (bs : List Byte) : State :=
  let old := s.dram (pa / 32)
  let s := ((s.sliceTouch pa hint true (bs.length == 32) (fromHost src)).putGranule pa bs).keepBelow pa old
  (s.traceAck (sliceOf pa) src seq (s.granule (pa / 32)).ctr false pa).notify (pa / 32)

/-- A granule discarded at its slice as request `seq` of its source (R410): it reads as zero, in its line too, its queued
write-back is cancelled, and a DISCARD goes to the base die; no line is allocated. -/
def State.sliceDiscard (s : State) (src : Source) (seq : BitVec 16) (pa : Nat) : State :=
  let s := ((s.baseStore pa (fromHost src)).putGranule pa (List.replicate 32 0)).modGran (pa / 32) fun x =>
    { x with zero := true, below := none }
  (s.traceAck (sliceOf pa) src seq (s.granule (pa / 32)).ctr false pa).notify (pa / 32)

/-- The counter of a host granule rises, in the line that its port holds (R406). -/
def State.hostCtr (s : State) (home pa : Nat) : State :=
  s.modPort ((s.routePort home).getD home) fun x => { x with lines := x.lines.map fun y =>
    if y.line == pa / 64 then
      { y with ctrs := if pa / 32 % 2 = 0 then (y.ctrs.1 + 1, y.ctrs.2) else (y.ctrs.1, y.ctrs.2 + 1) } else y }

/-- Bytes written at a granule's ordering point, as one access: they lie within one granule. Sett entries that overlap a
scratchpad chunk die (R368); watchers are told (R414). -/
def State.performWrite (s : State) (src : Source) (home pa : Nat) (hint : Hint) (bs : List Byte) : State :=
  match regionOf pa with
  | .hbm _ =>
    let (seq, s) := s.nextSeq (sliceOf pa) src
    s.sliceWrite src seq pa hint bs
  | .host _ =>
    let s := (s.hostTouch home pa true).hostCtr home pa
    (s.setMem (Memory.putAll s.mem pa bs)).notify (pa / 32)
  | .core c off =>
    let s := s.putGranule pa bs
    (match winPart off with
      | .scratch o => s.settKillChunk c (o / 512)
      | _ => s).notify (pa / 32)
  | _ => (s.putGranule pa bs).notify (pa / 32)

/-- A block's write to host memory is remembered with the dirty line that holds it (R486). -/
def State.noteHost (s : State) (home pa : Nat) (sl : SlotId) (f : FailedWrite) : State :=
  match regionOf pa with
  | .host _ =>
    let x := s.slot sl
    s.modPort ((s.routePort home).getD home) fun p =>
      { p with lines := p.lines.map fun y =>
          if y.line == pa / 64 then { y with writers := y.writers ++ [⟨sl, x.queue, x.number, x.wid, f⟩] } else y }
  | _ => s

/-- The host line of an HBM granule is marked as held by the host (R412). -/
def State.hostOwned (s : State) (pa : Nat) : Bool :=
  match regionOf pa with | .hbm _ => (s.granule (pa / 32)).owned | _ => false

/-- A port can send one more back-invalidate snoop: 256 are outstanding at most (R480). -/
def State.snoopRoom (s : State) (pa : Nat) : Bool :=
  decide ((s.snoops.filter fun x => !x.answered && !x.failed && hbmDie (x.line * 64) == hbmDie pa).length < 256)

/-- Who a snoop belongs to: the core of a core's port, else the source. -/
def waiterOf (src : Source) : Nat := if src < 4096 then src / 16 else src

/-- A SETTLE of a die, as the one that snoops (R461): no access of its own follows. -/
def settleWaiter (d : Nat) : Nat := 5000 + d

/-- A snoop still holds its line's place for an access of `me` or of another (R412, R484): a failed one for the access that
waited only, an answered one until 1 ms after it was sent (log 81). -/
def Snoop.holds (x : Snoop) (me clock : Nat) : Bool :=
  if x.failed then x.who == me else !(x.answered && decide (x.deadline ≤ clock))

/-- The snoop a device access needs before it (R412): an answered one of its own lets it go on; a failed one ends it with
FENCED (R484); another's holds it back, as does one in flight; otherwise one is sent, as soon as its port can, and the access
waits. `inv` for a write. -/
def snoopFor (src : Source) (pa : Nat) (inv : Bool) : M (Option Cause) := do
  let s ← get
  let l := pa / 64
  let me := waiterOf src
  match s.snoops.find? (fun x => x.line == l && x.holds me s.clock) with
  | some x =>
    if x.failed then
      set { s with snoops := eraseFirst (fun y => y == x) s.snoops }
      return some .fenced
    else if x.answered && x.who == me then
      if x.inv || !inv then return none
      set { s with snoops := eraseFirst (fun y => y == x) s.snoops }
    stall
  | none =>
    if !s.hostOwned pa then return none
    if s.snoopRoom pa then
      set { s with snoops := s.snoops ++ [Snoop.mk l inv false (s.clock + Config.msClocks) false me] }
    stall

/-- Admitted requests wait at a slice for a granule, in a line's list or in its ingress queue (R407). -/
def State.queuedAt (s : State) (pa : Nat) : Bool :=
  match regionOf pa with
  | .hbm _ =>
    let x := s.slice (sliceOf pa)
    let here (r : Request) : Bool := r.pa / 32 == pa / 32
    x.mshr.any (fun e => e.2.any here) || x.waiting.any here
  | _ => false

/-- What an access waits for at its granule's ordering point: those that arrived before it (R405), then the snoop that it
needs (R412). -/
def snoopGate (src : Source) (pa : Nat) (inv : Bool) : M (Option Cause) := do
  if (← get).queuedAt pa then stall
  snoopFor src pa inv

/-- Nothing holds an access of a source at a granule's ordering point: no admitted request waits there (R405), no snoop of its
line holds its place and the host does not hold the line (R412). -/
def State.gateOpen (s : State) (src : Source) (pa : Nat) : Bool :=
  !s.queuedAt pa && (s.snoops.find? fun x => x.line == pa / 64 && x.holds (waiterOf src) s.clock).isNone && !s.hostOwned pa

/-- Answered and failed snoops of a waiter that is gone hold nothing any more. -/
def State.dropSnoops (s : State) (who : Nat) : State :=
  { s with snoops := s.snoops.filter fun x => !(x.who == who && (x.answered || x.failed)) }

/-- Answered snoops are used up once the access they stood for is performed. -/
def State.snoopDone (s : State) (pa : Nat) : State :=
  { s with snoops := s.snoops.filter (fun x => !(x.line == pa / 64 && x.answered)) }

end Sys2Proof.Machine
end

