-- ==== Sys2Proof/Machine/Queues.lean ====
section
/-! DEFINITION. Fault records (R106), event queues (R143 - R146), the driver queues and the health log
(R487 - R489, R507, R512). -/
namespace Sys2Proof.Machine

/-- Codes of R105. -/
def Cause.code : Cause → BitVec 8
  | .illegal => 0x01 | .illreg => 0x02 | .priv => 0x03 | .align => 0x04 | .noprogress => 0x05
  | .fetchpf => 0x08 | .loadpf => 0x09 | .storepf => 0x0A | .access => 0x0B | .rsvbit => 0x0C | .ordkind => 0x0D
  | .tileshape => 0x10 | .rooms => 0x11 | .chunkabandon => 0x12 | .decode => 0x13 | .paramtorn => 0x14
  | .slotcoll => 0x15 | .libovf => 0x16 | .fptrap => 0x18 | .ecall => 0x19 | .ebreak => 0x1A | .fenced => 0x1C

/-- Where R105 delivers a cause. -/
inductive Delivery where | tvec | steward | park
  deriving DecidableEq, Repr

/-- R105. -/
def Cause.delivery : Cause → Delivery
  | .illegal | .align | .noprogress | .fptrap | .ebreak => .tvec
  | .fetchpf | .loadpf | .storepf => .park
  | _ => .steward

/-- The 64 bytes of a fault record (R106). `reason` stands in the element index field where flags[1] is 0. -/
def FaultRec.bytes (f : FaultRec) (reason : BitVec 32 := 0) : List Byte :=
  let t := f.tile.getD (0, 0, 0)
  let flags : Nat := (if f.tile.isSome then 1 else 0) + (if f.elem.isSome then 2 else 0)
    + (if f.vaValid then 4 else 0) + (if f.level ≠ 0 then 8 else 0)
  [f.cause, BitVec.ofNat 8 flags, f.core, f.slot, f.level, 0, 0, 0]
    ++ bytesOfNat 8 f.iva.toNat ++ bytesOfNat 8 f.wid.toNat ++ bytesOfNat 8 f.va.toNat
    ++ [BitVec.ofNat 8 t.1.toNat, 0] ++ bytesOfNat 2 t.2.1.toNat ++ bytesOfNat 2 t.2.2.toNat ++ [0, 0]
    ++ bytesOfNat 4 (f.elem.getD reason).toNat ++ bytesOfNat 4 0 ++ bytesOfNat 8 f.token.toNat ++ bytesOfNat 8 0

/-- The 32 bytes of an event record (R144). -/
def EventRec.bytes (e : EventRec) : List Byte :=
  [e.typ, e.core, e.slot, e.queue] ++ bytesOfNat 4 e.number.toNat ++ bytesOfNat 8 e.wid.toNat
    ++ bytesOfNat 8 e.a.toNat ++ bytesOfNat 8 e.b.toNat

/-- An event record read back from its 32 bytes (R144). -/
def EventRec.ofBytes (bs : List Byte) : EventRec :=
  let at_ (o n : Nat) : Nat := natOfBytes ((bs.drop o).take n)
  { typ := BitVec.ofNat 8 (at_ 0 1), core := BitVec.ofNat 8 (at_ 1 1), slot := BitVec.ofNat 8 (at_ 2 1)
    queue := BitVec.ofNat 8 (at_ 3 1), number := BitVec.ofNat 32 (at_ 4 4), wid := BitVec.ofNat 64 (at_ 8 8)
    a := BitVec.ofNat 64 (at_ 16 8), b := BitVec.ofNat 64 (at_ 24 8) }

/-- Records in a cluster's event queue (R143). -/
def Cluster.count (c : Cluster) : Nat := (c.tail - c.head).toNat

/-- PA of event record n (R143). -/
def eventPA (k : Nat) (n : Word) : Nat := clusterBase k + 0x40000 + n.toNat % 1024 * 32

/-- Whether an event queue can take a record now (R146): held records go first. -/
def State.eventRoom (s : State) (k : Nat) : Bool :=
  (s.cluster k).held.isEmpty && decide ((s.cluster k).count < 1024)

/-- A record put at the tail of an event queue (R143 - R146). A queue that was empty starts its service time
(R493). -/
def State.pushEvent (s : State) (k : Nat) (e : EventRec) : State :=
  let c := s.cluster k
  let s := s.setMem (Memory.putAll s.mem (eventPA k c.tail) e.bytes)
  s.setCluster k { c with tail := c.tail + 1, service := if c.count = 0 then s.clock else c.service }

/-- A record posted by a source that may hold it: at the tail, or held while the queue is full (R146). -/
def State.postEvent (s : State) (k : Nat) (e : EventRec) : State :=
  if s.eventRoom k then s.pushEvent k e
  else s.modCluster k fun c => { c with held := c.held ++ [e] }

/-- An event of a block in a slot (R144, R145). -/
def State.slotEvent (s : State) (sl : SlotId) (typ : BitVec 8) (a b : Word) : EventRec :=
  let x := s.slot sl
  { typ := typ, core := BitVec.ofNat 8 (slotCore sl % 8), slot := BitVec.ofNat 8 (slotNum sl)
    queue := BitVec.ofNat 8 x.queue.toNat, number := x.number, wid := x.wid, a := a, b := b }

/-! ### Launches -/

/-- An unfinished launch by its queue and acceptance number; no two share both (log 47). -/
def State.launchOf (s : State) (q : QId) (n : BitVec 32) : Option Launch :=
  s.disp.launches.find? fun l => l.queue == q && l.number == n

def sameLaunch (q : QId) (n : BitVec 32) (l : Launch) : Bool := l.queue == q && l.number == n

def State.modLaunch (s : State) (q : QId) (n : BitVec 32) (f : Launch → Launch) : State :=
  { s with disp := { s.disp with launches := s.disp.launches.map fun l => if sameLaunch q n l then f l else l } }

/-- Launches with a block resident on a cluster or sent there (R274): queue, number, record. -/
def State.clusterLaunches (s : State) (k : Nat) : List (QId × BitVec 32 × LaunchRec) :=
  ((List.range 32).filterMap fun i =>
      let x := s.slot (BitVec.ofNat 10 (k * 32 + i))
      if x.run == .empty then none else some (x.queue, x.number, x.lrec))
  ++ (s.cluster k).pending.filterMap fun p => (s.launchOf p.queue p.number).map fun l => (p.queue, p.number, l.lrec)

/-- Crossroads slots, or barriers, that launches own on a cluster (R274). -/
def State.ownedSlots (s : State) (k : Nat) : Word :=
  (s.clusterLaunches k).foldl (fun o e => o ||| e.2.2.exslots) 0
def State.ownedBarriers (s : State) (k : Nat) : BitVec 16 :=
  (s.clusterLaunches k).foldl (fun o e => o ||| e.2.2.barriers) 0

/-! ### Driver queues -/

/-- The port that carries the health controller's accesses to host memory: port 0 while it serves (R485, R487). -/
def State.healthPort (s : State) : Option Nat := s.routePort 0

/-- Whether the device can reach n bytes at a physical address on a driver queue's behalf (R485, R512): none while it
must wait for a port, some cause where it cannot. -/
def State.devReach (s : State) (pa : Nat) : Option (Option Cause) :=
  match regionOf pa with
  | .hbm _ =>
    if s.health.retired.contains (channelOf pa) then some (some .access)
    else if s.health.fenced.contains (channelCode (channelOf pa)) then some (some .fenced)
    else if s.corrupt pa then some (some .decode) else some none
  | .host h =>
    match s.healthPort with
    | none => none
    | some p => if s.hwinLimit p ≤ h then some (some .access) else some none
  | _ => some (some .access)

/-- An access of n bytes by physical address on the device's own behalf is checked, granule by granule: it waits for a
port or a snoop (R412, R487), or ends with a cause at its address (R512). -/
def devCheck (store : Bool) : Nat → Nat → Nat → M Unit
  | 0, _, _ => return ()
  | f + 1, pa, n => do
    if n = 0 then return ()
    let k := Nat.min n (32 - pa % 32)
    let stop (c : Cause) : M Unit := do
      if !store then modify (·.badRead pa)
      trap { cause := c, va := BitVec.ofNat 64 pa, vaValid := true }
    match (← get).devReach pa with
    | none => stall
    | some (some c) => if store && k == 32 && c == .decode then pure () else stop c
    | some none => pure ()
    match ← snoopGate healthSrc pa store with
    | some c => stop c
    | none => devCheck store f (pa + k) (n - k)

/-- Write bytes by physical address, granule by granule, on the device's own behalf. -/
def State.devPut (s : State) (pa : Nat) (bs : List Byte) : Nat → State
  | 0 => s
  | f + 1 =>
    if bs.isEmpty then s
    else
      let n := Nat.min bs.length (32 - pa % 32)
      ((s.performWrite healthSrc 0 pa .normal (bs.take n)).snoopDone pa).devPut (pa + n) (bs.drop n) f

/-- Read an 8-byte word by physical address on the device's own behalf. -/
def devWord (pa : Nat) : M Word := do
  devCheck false 2 pa 8
  let s ← get
  set ((s.didRead healthSrc 0 pa .normal).snoopDone pa)
  return BitVec.ofNat 64 (Memory.nat s.mem pa 8)

/-- A health log entry of 32 bytes (R507): time in microseconds, unit code, cause, count, PA. -/
def logEntry (s : State) (unit : UnitCode) (cause : BitVec 8) (count : BitVec 16) (pa : Nat) : List Byte :=
  bytesOfNat 8 (s.clock / Config.usClocks) ++ bytesOfNat 4 unit.toNat ++ [cause, 0] ++ bytesOfNat 2 count.toNat
    ++ bytesOfNat 8 pa ++ bytesOfNat 8 0

/-- Write the oldest held entry of a device-produced queue, and its tail, once there is room (R489): none where nothing can
be written now. -/
def drvStep (q : DrvQ) (size : Nat) : M (Option DrvQ) := do
  if !q.enabled then return none
  if q.setup then
    devCheck true 2 q.tailPA 8
    modify fun s => s.devPut q.tailPA (bytesOfNat 8 0) 2
    return some { q with setup := false }
  match q.held with
  | [] => return none
  | e :: rest =>
    let full (q : DrvQ) : Bool := decide (2 ^ q.log2 ≤ (q.tail - q.head).toNat)
    let q ← if full q then (do return { q with head := ← devWord q.headPA }) else pure q
    if full q then return none
    let pa := q.ring + q.tail.toNat % 2 ^ q.log2 * size
    devCheck true 6 pa size
    devCheck true 2 q.tailPA 8
    let t := q.tail + 1
    modify fun s => (s.devPut pa e 6).devPut q.tailPA (bytesOfNat 8 t.toNat) 2
    return some { q with tail := t, held := rest }

/-- The enable bit of a driver queue's descriptor reads 0 (R512). -/
def DrvQ.off (q : DrvQ) : DrvQ := { q with enabled := false, desc := q.desc &&& ~~~(1#512 <<< 96) }

/-- Write the held entries of a device-produced queue in order (R489): the queue, and the PA it cannot reach (R512). -/
def State.drvFlush (s : State) (q : DrvQ) (size : Nat) : Nat → State × DrvQ × Option Nat
  | 0 => (s, q, none)
  | f + 1 =>
    match (drvStep q size).run s with
    | .ok none s => (s, q, none)
    | .ok (some q) s => s.drvFlush q size f
    | .error .stall s => (s, q, none)
    | .error (.trap t) s => (s, q.off, some t.va.toNat)

/-- Write out what the health log holds (R507). A log that cannot be reached is disabled (R512). -/
def State.flushLog (s : State) : State :=
  let (s, q, bad) := s.drvFlush s.health.log 32 (s.health.log.held.length + 2)
  let q := match bad with
    | some pa => { q with held := q.held ++ [logEntry s 0 11 0 pa] }
    | none => q
  { s with health := { s.health with log := q } }

/-- Add a health log entry (R507). -/
def State.logHealth (s : State) (unit : UnitCode) (cause : BitVec 8) (count : BitVec 16) (pa : Nat) : State :=
  let e := logEntry s unit cause count pa
  State.flushLog { s with health := { s.health with log := { s.health.log with held := s.health.log.held ++ [e] } } }

/-- Write out what the fault queue holds, while a port serves (R487); a queue that cannot be reached is disabled and logged with
cause 11. -/
def State.flushFaults (s : State) : State :=
  if s.healthPort.isNone then s else
  let (s, q, bad) := s.drvFlush s.drv.fault 128 (s.drv.fault.held.length + 2)
  let s := { s with drv := { s.drv with fault := q } }
  match bad with
  | some pa => s.logHealth 0 11 0 pa
  | none => s

/-- The access byte of a fault-queue entry (R489). -/
def accessCode : Access → BitVec 8
  | .fetch => 0 | .ipref => 0 | .load => 1 | .dpref => 1 | .store => 2

/-- A fault-queue entry (R489), held in order and written when the queue can take it. -/
def State.postFault (s : State) (f : FaultRec) (ctx : BitVec 16) (acc : Access) (source : BitVec 8) : State :=
  let e := f.bytes ++ bytesOfNat 2 ctx.toNat ++ [accessCode acc, source] ++ bytesOfNat 60 0
  State.flushFaults { s with drv := { s.drv with fault := { s.drv.fault with held := s.drv.fault.held ++ [e] } } }

/-- A fresh replay token: nonzero and unlike every one given before (R446). -/
def State.takeToken (s : State) : Word × State :=
  (s.tokenNext, { s with tokenNext := if s.tokenNext + 1 = 0 then 1 else s.tokenNext + 1 })

end Sys2Proof.Machine
end

