-- ==== Sys2Proof/Machine/Saddlebag.lean ====
section
/-! DEFINITION. Saddlebag's sector decoder (R454 - R458). -/
namespace Sys2Proof.Machine

/-- Why a sector does not decode (R456). -/
inductive SectorFail where | mode | length | underrun | overrun | repeat_ | crc | media
  deriving DecidableEq, Repr

/-- Reason codes of R456. -/
def SectorFail.code : SectorFail → BitVec 4
  | .mode => 1 | .length => 2 | .underrun => 3 | .overrun => 4 | .repeat_ => 5 | .crc => 6 | .media => 7

/-- One bit of the reflected Castagnoli CRC. -/
def crcBit (c : BitVec 32) : BitVec 32 := if c.getLsbD 0 then (c >>> 1) ^^^ 0x82F63B78 else c >>> 1

def crcBits : Nat → BitVec 32 → BitVec 32
  | 0, c => c
  | n + 1, c => crcBits n (crcBit c)

/-- CRC-32C of bytes in address order (R456). -/
def crc32c (bs : List Byte) : BitVec 32 :=
  ~~~(bs.foldl (fun c b => crcBits 8 (c ^^^ b.zeroExtend 32)) 0xFFFFFFFF)

/-- The tokens of a coded body (R455, R456): `rest` is the body still unread, `out` the bytes so far, newest first. -/
def tokens : Nat → List Byte → List Byte → Nat → Except SectorFail (List Byte)
  | 0, _, _, _ => .error .underrun
  | f + 1, rest, out, n =>
    if 512 ≤ n then (if rest.isEmpty then .ok out else .error .overrun)
    else match rest with
      | [] => .error .underrun
      | c :: body =>
        let v := c.toNat
        if v < 0x80 then
          if body.length < v + 1 then .error .underrun
          else if 512 < n + (v + 1) then .error .overrun
          else tokens f (body.drop (v + 1)) ((body.take (v + 1)).reverse ++ out) (n + (v + 1))
        else if v < 0xC0 then
          let k := v % 64 + 1
          if 512 < n + k then .error .overrun else tokens f body (List.replicate k 0 ++ out) (n + k)
        else match out with
          | z :: y :: x :: _ =>
            let k := v % 64 + 1
            if 512 < n + 3 * k then .error .overrun
            else tokens f body ((List.replicate k [z, y, x]).flatten ++ out) (n + 3 * k)
          | _ => .error .repeat_

/-- Decode a sector from the 512 bytes of its stripe (R456). `bad g` says granule g cannot be read: one up to the body's end
gives MEDIA before any token is decoded, an order that is the model's choice (log 90). -/
def decodeSector (stripe : List Byte) (bad : Nat → Bool) : Except SectorFail (List Byte) :=
  if bad 0 then .error .media
  else
    let len := natOfBytes (stripe.take 2)
    let mode := (stripe.getD 2 0).toNat
    let crc := BitVec.ofNat 32 (natOfBytes ((stripe.drop 4).take 4))
    if 2 < mode || stripe.getD 3 0 != 0 then .error .mode
    else if 504 < len || (mode == 0 && len ≠ 0) || (mode == 1 && len ≠ 4) then .error .length
    else if (List.range ((8 + len + 31) / 32)).any bad then .error .media
    else
      let body := (stripe.drop 8).take len
      let out : Except SectorFail (List Byte) := match mode with
        | 0 => .ok (List.replicate 512 0)
        | 1 => .ok (List.replicate 128 body).flatten
        | _ => (tokens 600 body [] 0).map List.reverse
      match out with
      | .error e => .error e
      | .ok bs => if crc32c bs == crc then .ok bs else .error .crc

/-- The bytes that a decode of a stripe reads: those that the base die holds, and no newer ones of a slice or of the host
(R459); a decode that a WRITE has met keeps those it has read (R460). -/
def State.storedImage (s : State) (stripe : Nat) : List Byte :=
  match (s.base (baseOf (stripe * 512))).stale.find? fun e => e.1 == stripe with
  | some e => e.2
  | none => s.dramStripe stripe

/-- A granule of a stripe that a base die cannot correct. -/
def State.imageLost (s : State) (stripe g : Nat) : Bool := (s.dram (stripe * 16 + g)).2

/-- What a decode of the stripe at a base die gives (R459). -/
def State.decodeStripe (s : State) (stripe : Nat) : Except SectorFail (List Byte) :=
  decodeSector (s.storedImage stripe) (s.imageLost stripe)

/-- The granules that a decode of a stripe reads: the first, and, where its header is in order, as far as its body
(R456). -/
def sectorReads (hdr : List Byte) : Nat :=
  let len := natOfBytes (hdr.take 2)
  let mode := (hdr.getD 2 0).toNat
  if 2 < mode || hdr.getD 3 0 != 0 || 504 < len || (mode == 0 && len ≠ 0) || (mode == 1 && len ≠ 4) then 1
  else (8 + len + 31) / 32

/-- A decode that meets a fenced channel ends with FENCED (R457); one that meets a retired channel with ACCESS (R507). -/
def State.sectorPath (s : State) (stripe : Nat) : Option Cause :=
  let n := if s.imageLost stripe 0 then 1 else sectorReads ((s.storedImage stripe).take 8)
  (List.range n).findSome? fun g =>
    if s.unreachable (stripe * 512 + g * 32) 0 then some .access
    else if s.pathFenced (stripe * 512 + g * 32) then some .fenced else none

/-- A decode that meets uncorrectable data has read its first such granule (R456, R493). -/
def State.sectorBad (s : State) (stripe : Nat) : State :=
  match (List.range 16).find? (s.imageLost stripe) with
  | some g => s.badRead (stripe * 512 + g * 32)
  | none => s

/-- A decode that ends at a base die: SBSTAT, SBERRPA, the buffer, and the count of R462 (R458, R460, R461). -/
def State.sectorDone (s : State) (stripe : Nat) (r : Except SectorFail (List Byte)) : State :=
  let pa := stripe * 512
  let s := match r with | .error .media => s.sectorBad stripe | _ => s
  (s.baseCount pa false).modBase (baseOf pa) fun b =>
    match r with
    | .ok bs =>
      let v := BitVec.ofNat 4096 (natOfBytes bs)
      let keep := if b.stale.any (fun e => e.1 == stripe) then b.buffer
        else ((stripe, v) :: b.buffer.filter (fun e => e.1 != stripe)).take 64
      { b with decoded := b.decoded + 1, buffer := keep, stale := b.stale.filter (fun e => e.1 != stripe) }
    | .error e =>
      { b with errors := if b.errors = 0xFFFF then b.errors else b.errors + 1
               reason := e.code, errPA := stripe, stale := b.stale.filter (fun e => e.1 != stripe) }

/-! ### The sector queue (R450, R457, R458) -/

def State.baseDone (s : State) (b : Nat) (d : BaseDone) : State := s.modBase b fun x => { x with done := x.done ++ [d] }

/-- The slice that asks for a column of a stripe. -/
def sectorSlice (stripe : Nat) (col : BitVec 4) : Nat := sliceOf (stripe * 512 + col.toNat * 32)

/-- The completion that answers a SECTOR request: the granule of its column, or what failed. -/
def sectorAnswer (stripe : Nat) (r : Except (Cause × BitVec 4) (List Byte)) (w : Nat × BitVec 4) : BaseDone :=
  let err := match r with | .error e => some e | .ok _ => none
  let data := match r with | .ok bs => BitVec.ofNat 256 (natOfBytes ((bs.drop (32 * w.2.toNat)).take 32)) | .error _ => 0
  ⟨w.1, data, 0, false, err, sectorSlice stripe w.2, false⟩

/-- A SECTOR request reaches its base die (R458): answered from the buffer, merged with a queued decode, or queued; with the
queue full its slice holds it. -/
def State.askSector (s : State) (b tag stripe : Nat) (col : BitVec 4) : State :=
  let x := s.base b
  match x.buffer.find? (fun e => e.1 == stripe) with
  | some e =>
    (s.modBase b fun x => { x with buffer := e :: x.buffer.filter fun y => y.1 != stripe }).baseDone b
      (sectorAnswer stripe (.ok (bytesOfNat 512 e.2.toNat)) (tag, col))
  | none =>
    if x.sectors.any fun e => e.1 == stripe then
      s.modBase b fun x => { x with sectors := x.sectors.map fun e => if e.1 == stripe then (stripe, e.2 ++ [(tag, col)]) else e }
    else if x.sectors.length < 32 then s.modBase b fun x => { x with sectors := x.sectors ++ [(stripe, [(tag, col)])] }
    else s.modBase b fun x => { x with heldSectors := x.heldSectors ++ [(tag, stripe, col)] }

/-- The requests that slices hold are sent again, as far as there is room (R458). -/
def State.heldAsk (s : State) (b : Nat) : State :=
  let l := (s.base b).heldSectors
  if l.isEmpty then s else l.foldl (fun s e => s.askSector b e.1 e.2.1 e.2.2) (s.modBase b fun x => { x with heldSectors := [] })

/-- A decode of a stripe ends (R457, R458): what it gives, and everyone who merged with it is answered. -/
def State.endDecode (s : State) (stripe : Nat) : Except (Cause × BitVec 4) (List Byte) × State :=
  let b := baseOf (stripe * 512)
  let who := ((s.base b).sectors.filter fun e => e.1 == stripe).flatMap (·.2)
  let (r, s) : Except (Cause × BitVec 4) (List Byte) × State := match s.sectorPath stripe with
    | some c => (.error (c, 0), s.modBase b fun x => { x with stale := x.stale.filter fun e => e.1 != stripe })
    | none =>
      let d := s.decodeStripe stripe
      (match d with | .ok bs => .ok bs | .error e => .error (.decode, e.code), s.sectorDone stripe d)
  let s := s.modBase b fun x => { x with sectors := x.sectors.filter fun e => e.1 != stripe }
  (r, (who.foldl (fun s w => s.baseDone b (sectorAnswer stripe r w)) s).heldAsk b)

/-- The decoded bytes of the sector that a read of a compressed page needs, or why it has none: from the buffer, by the decode
of its stripe that is queued or under way, or by one of its own, for which the queue needs room (R457, R458, R460). -/
def readSector (stripe : Nat) : M (Except Cause (List Byte)) := do
  let s ← get
  let b := baseOf (stripe * 512)
  match (s.base b).buffer.find? (fun e => e.1 == stripe) with
  | some e =>
    set (s.modBase b fun b => { b with buffer := e :: b.buffer.filter (fun x => x.1 != stripe) })
    return .ok (bytesOfNat 512 e.2.toNat)
  | none =>
    if !((s.base b).sectors.any fun e => e.1 == stripe) && decide (32 ≤ (s.base b).sectors.length) then stall
    let (r, s) := s.endDecode stripe
    set s
    return r.mapError (·.1)

/-- Bytes of a compressed page read within one granule, as a request of their source to its slice (R457). -/
def readCompressed (src : Source) (pa n : Nat) : M (Except Cause (List Byte)) := do
  modify fun s => (s.nextSeq (sliceOf pa) src).2
  match ← readSector (pa / 512) with
  | .ok bs => return .ok ((bs.drop (pa % 512)).take n)
  | .error c => return .error c

/-- Whether the sector that a read of a compressed page needs can be had (R457): the cause where it cannot. A decode that
fails here is the read's own; one that does not is left to the read. -/
def sectorCheck (pa : Nat) : M (Option Cause) := do
  let s ← get
  match (readSector (pa / 512)).run s with
  | .ok (.ok _) _ => return none
  | .ok (.error c) t => set t; return some c
  | .error _ _ => stall

end Sys2Proof.Machine
end

