-- ==== Sys2Proof/Machine/Translate.lean ====
section
/-! DEFINITION. The translation engine (spec/18_translation.md) and the checks of an access (R205, R24, R28, R439,
R453). -/
namespace Sys2Proof.Machine

/-- Who makes an access, for what it may reach of the on-chip registers (R28, R143, R267): a block hart, a Porter on a
block's behalf, a Steward, the Dispatcher. -/
inductive Maker where | block | copy | steward | dispatcher
  deriving DecidableEq, Repr

/-- What a translation is made for: the rows of R205, R28 and R453 that apply to it. -/
structure Use where
  acc : Access
  /-- Atomic, sequentially consistent or signalling access: ORDKIND on a UN page (R205). -/
  atomic : Bool := false
  /-- No on-chip window may be named (R28). -/
  noChip : Bool := false
  /-- May read a compressed page (R453). -/
  cmpOk : Bool := false
  who : Maker := .block
  /-- Its data is read before it may go on, so that uncorrectable data is a fault of the access (R209, R424). -/
  reads : Bool := acc == .load
  /-- An access of a vector instruction, which a FENCE.SV may hold back (R214). -/
  vector : Bool := false
  /-- It invalidates the host's copy of a granule (R412). -/
  inv : Bool := acc == .store
  deriving DecidableEq, Repr

def Use.isStore (u : Use) : Bool := u.acc == .store

/-- Where an access goes: physical address, leaf, level of the leaf, port of host memory. -/
structure Loc where
  pa : Nat
  pte : Word
  level : Nat
  home : Nat
  deriving DecidableEq, Repr

/-- Page fault cause of an access (R205, R225). -/
def pageFault : Access → Cause
  | .fetch | .ipref => .fetchpf
  | .load | .dpref => .loadpf
  | .store => .storepf

def pteV (p : Word) : Bool := p.getLsbD 0
def pteL (p : Word) : Bool := p.getLsbD 1
def pteT (p : Word) : Bool := p.getLsbD 2
def pteA (p : Word) : Bool := p.getLsbD 54
def pteDirty (p : Word) : Bool := p.getLsbD 55
def pteOrd (p : Word) : Nat := bits p.toNat 6 2
def pteMem (p : Word) : Nat := bits p.toNat 8 2
def pteCmp (p : Word) : Bool := p.getLsbD 11
def pteConst (p : Word) : Bool := p.getLsbD 10
def pteHome (p : Word) : Nat := bits p.toNat 52 1
def ptePA (p : Word) : Nat := bits p.toNat 12 40 * 4096

/-- The leaf permits the access: R, W or X, and no store to a CONST page (R439). -/
def ptePermits (p : Word) : Access → Bool
  | .load | .dpref => p.getLsbD 3
  | .store => p.getLsbD 4 && !pteConst p
  | .fetch | .ipref => p.getLsbD 5

/-- A set reserved bit (R437). `big` marks an entry of a 64 KiB table. -/
def pteReserved (level : Nat) (big : Bool) (p : Word) : Bool :=
  let v := p.toNat
  bits v 56 8 ≠ 0
  || (pteL p && 3 ≤ level)
  || (!pteL p && level == 1)
  || (pteT p && !(level == 2 && !pteL p))
  || (if pteL p then
        pteMem p == 3 || (pteCmp p && pteMem p ≠ 0) || (p.getLsbD 53 && !(level == 1 && !big))
        || (level == 2 && bits v 12 9 ≠ 0) || (big && bits v 12 4 ≠ 0)
      else bits v 3 9 ≠ 0 || bits v 52 4 ≠ 0)

/-- log2 of the range an entry of a level covers (R433). -/
def levelShift (level : Nat) (big : Bool) : Nat :=
  if level == 1 then (if big then 16 else 12) else 12 + 9 * (level - 1)

/-- Index of a VA at a level (R433). -/
def levelIndex (level : Nat) (big : Bool) (va : Nat) : Nat :=
  if level == 1 && big then va / 65536 % 32 else va / 2 ^ (12 + 9 * (level - 1)) % 512

/-- Why a maker may not reach a block-slot control register, a cluster window or the device window (R28, R143, R267): PRIV
for a block hart; ACCESS for a Porter and the Dispatcher in a cluster window outside the event queue and its registers
(log 65). -/
def ctlStop (who : Maker) (pa : Nat) : Option Cause :=
  let stop (open? : Bool) : Option Cause := match who with
    | .block => some .priv
    | .steward => none
    | .copy | .dispatcher => if open? then none else some .access
  match regionOf pa with
  | .cluster _ o => stop (decide (0x40000 ≤ o) && decide (o < 0x48018))
  | .device _ => stop true
  | .core _ o => match winPart o with | .ctl _ _ => stop true | _ => none
  | _ => none

/-- A load or store of a block hart that reaches a control register, a cluster window or the device window: PRIV, whatever
the page table permits (R28, log 65). -/
def privStop (s : State) (u : Use) (va : Word) (l : Loc) : Option Trap :=
  if (u.acc == .load || u.acc == .store) && ctlStop u.who l.pa == some .priv && !s.unreachable l.pa l.home then
    some { cause := .priv, va := va, vaValid := true, acc := u.acc }
  else none

/-- The ACCESS and FENCED rows of R205 for an access whose leaf and address are known, PRIV before them (R28). -/
def leafCheck (s : State) (u : Use) (va : Word) (l : Loc) : Option Trap :=
  let t (c : Cause) (lv : Nat) : Option Trap := some { cause := c, va := va, vaValid := true, level := lv, acc := u.acc }
  let reg := regionOf l.pa
  let memOk := match reg with
    | .hbm d => pteMem l.pte == 0 && pteHome l.pte == d
    | .host _ => pteMem l.pte == 1
    | .reserved => false
    | _ => pteMem l.pte == 2
  let chip := pteMem l.pte == 2
  let streamRead := match reg with
    | .core _ o => (match winPart o with | .stream _ _ _ => !u.isStore | _ => false)
    | _ => false
  match privStop s u va l with
  | some x => some x
  | none =>
    if !memOk || s.unreachable l.pa l.home then t .access l.level
    else if chip && (u.noChip || u.acc == .fetch || u.acc == .ipref || u.acc == .dpref) || streamRead then t .access l.level
    else if (ctlStop u.who l.pa).isSome then t .access l.level
    else if pteCmp l.pte && !u.cmpOk then t .access l.level
    else if s.pathFenced l.pa then t .fenced 0
    else none

/-- The ordering kind of the page is reserved, or is UN for an access of the ORDKIND row (R205). R225 and R227 list no
ORDKIND for a fetch or a hint (log 66). -/
def ordBad (u : Use) (p : Word) : Bool :=
  (u.acc == .load || u.acc == .store) && (pteOrd p == 3 || (pteOrd p == 2 && u.atomic))

/-- Who a translating agent makes accesses as. -/
def WalkSrcMaker : WalkSrc → Maker
  | .core _ => .block
  | .porter _ => .copy
  | .steward _ => .steward
  | .dispatcher => .dispatcher

/-! ### TLBs (R440, R442) -/

/-- A translation lookup in one TLB. -/
def tlbFind (l : List TlbEntry) (ctx : BitVec 16) (va : Nat) : Option TlbEntry :=
  l.find? fun e => e.ctx == ctx && decide (e.base ≤ va) && decide (va < e.base + 2 ^ e.size)

/-- Install an entry; where the TLB is full, which entry goes is not architectural: a free choice (log 3). -/
def tlbInstall (l : List TlbEntry) (cap pick : Nat) (e : TlbEntry) : List TlbEntry :=
  let l := e :: l.filter fun x => !(x.ctx == e.ctx && x.base == e.base && x.size == e.size)
  if l.length ≤ cap then l else l.eraseIdx (1 + pick % cap)

def tlbDrop (l : List TlbEntry) (e : TlbEntry) : List TlbEntry := l.filter (· != e)

/-- The core of a translating agent, and its cluster. -/
def WalkSrcCore : WalkSrc → Option Nat
  | .core c => some c.toNat
  | _ => none
def WalkSrcCluster : WalkSrc → Option Nat
  | .core c => some (coreCluster c.toNat)
  | .porter k => some k.toNat
  | .steward k => some k.toNat
  | .dispatcher => none
/-- The die whose walkers serve it (R445). -/
def WalkSrcDie (w : WalkSrc) : Nat := match WalkSrcCluster w with | some k => clusterDie k | none => 0

/-- Look a translation up: the core's TLB, then the shared TLB, which refills the core's (R443). -/
def State.tlbLookup (s : State) (src : WalkSrc) (itlb : Bool) (ctx : BitVec 16) (va : Nat) : Option TlbEntry × State :=
  let own := match WalkSrcCore src with
    | some c => tlbFind (if itlb then (s.core c).itlb else (s.core c).dtlb) ctx va
    | none => none
  match own with
  | some e => (some e, s)
  | none =>
    match WalkSrcCluster src with
    | none => (none, s)
    | some k =>
      match tlbFind (s.cluster k).stlb ctx va with
      | none => (none, s)
      | some e =>
        match WalkSrcCore src with
        | none => (some e, s)
        | some c => (some e, s.draw.modCore c fun x =>
            if itlb then { x with itlb := tlbInstall x.itlb 32 (Config.choice s.free) e }
            else { x with dtlb := tlbInstall x.dtlb 64 (Config.choice s.free) e })

/-- A merged entry (R440): only a 4 KiB leaf has the contiguous hint. -/
def TlbEntry.merged (e : TlbEntry) : Bool := e.size == 16 && e.pte.getLsbD 53

/-- The 4 KiB entry of a page of a merged entry. -/
def TlbEntry.page (e : TlbEntry) (va : Nat) : TlbEntry :=
  { e with base := va / 4096 * 4096, size := 12, pa := e.pa + (va / 4096 * 4096 - e.base) }

/-- Install a translation of an address in the shared TLB and the requesting core's TLB (R443). A merged entry may be
installed, or that of its page: a free choice (R440, log 3). -/
def State.tlbFill (s : State) (src : WalkSrc) (itlb : Bool) (e : TlbEntry) (va : Nat) : State :=
  let n := Config.choice s.free
  let e := if e.merged && decide (Config.choice (s.free + 1) % 2 = 0) then e.page va else e
  let s := s.draw.draw
  let s := match WalkSrcCluster src with
    | some k => s.modCluster k fun c => { c with stlb := tlbInstall c.stlb 4096 n e }
    | none => s
  match WalkSrcCore src with
  | some c => s.modCore c fun x =>
      if itlb then { x with itlb := tlbInstall x.itlb 32 n e } else { x with dtlb := tlbInstall x.dtlb 64 n e }
  | none => s

/-- Drop an entry from the TLBs that a source looks up (R439). -/
def State.tlbForget (s : State) (src : WalkSrc) (e : TlbEntry) : State :=
  let s := match WalkSrcCluster src with
    | some k => s.modCluster k fun c => { c with stlb := tlbDrop c.stlb e }
    | none => s
  match WalkSrcCore src with
  | some c => s.modCore c fun x => { x with itlb := tlbDrop x.itlb e, dtlb := tlbDrop x.dtlb e }
  | none => s

/-- Key of the walk cache that gives the table of a level (R442). -/
def walkKey (level va : Nat) : Nat := va / 2 ^ (12 + 9 * level)

/-- The deepest walk-cache hit: level and table (R443). -/
def State.walkHit (s : State) (die : Nat) (ctx : BitVec 16) (va : Nat) : Option (Nat × Nat) :=
  let l := Tbl.get [] s.walkCaches die
  let at_ (lv : Nat) : Option (Nat × Nat) :=
    (l.find? fun e => e.ctx == ctx && e.level == lv && e.key == walkKey lv va).map fun e => (lv, e.pa)
  match at_ 2 with
  | some r => some r
  | none => match at_ 3 with
    | some r => some r
    | none => at_ 4

/-- Install a walk-cache entry for the table of `level` (R443); 256 per level, the victim a free choice. -/
def State.walkInstall (s : State) (die : Nat) (ctx : BitVec 16) (va level pa : Nat) : State :=
  if level < 2 then s
  else
    let l := Tbl.get [] s.walkCaches die
    let e : WalkEntry := ⟨ctx, level, walkKey level va, pa⟩
    let l := l.filter (fun x => !(x.ctx == ctx && x.level == level && x.key == e.key))
    let same := l.filter (fun x => x.level == level)
    let l := if same.length < 256 then l
      else match same[Config.choice s.free % 256]? with
        | some v => l.filter (· != v)
        | none => l
    { s.draw with walkCaches := Tbl.set s.walkCaches die (e :: l) }

/-! ### The data of an access (R205, fourth row) -/

/-- The checks that an access makes at its ordering point before it is performed: a failed back-invalidate (R484) and, where
it reads, uncorrectable data (R424) or a sector that does not decode (R457). -/
def dataCheck (src : Source) (u : Use) (va : Word) (l : Loc) : M Unit := do
  match ← snoopGate src l.pa u.inv with
  | some c => accessFault c va 0 u.acc
  | none => pure ()
  if u.reads then
    if pteCmp l.pte then
      match ← sectorCheck l.pa with
      | some c => accessFault c va 0 u.acc
      | none => pure ()
    else if (← get).corrupt l.pa then
      modify (·.badRead l.pa)
      accessFault .decode va 0 u.acc

/-- The last two rows of R205 where the ordering kind stops the access: a fault of its data comes first. -/
def ordCheck (src : Source) (u : Use) (va : Word) (l : Loc) : M Unit := do
  if ordBad u l.pte then
    dataCheck src u va l
    modify fun s => s.snoopDone l.pa
    accessFault .ordkind va l.level u.acc

/-! ### Walks (R433 - R441) -/

/-- Read 8 bytes of a table at their granule's ordering point, or the cause that the read meets (R435, R439). -/
def walkRead (src : Source) (pa : Nat) : M (Except Cause Word) := do
  let s ← get
  if s.health.retired.contains (channelOf pa) then return .error .access
  if s.pathFenced pa then return .error .fenced
  if s.corrupt pa then
    set (s.badRead pa)
    return .error .decode
  match ← snoopGate src pa false with
  | some c => return .error c
  | none =>
    let s ← get
    set ((s.didRead src 0 pa .normal).snoopDone pa)
    return .ok (BitVec.ofNat 64 (Memory.nat s.mem pa 8))

/-- Every walk faults while the context table is not enabled or its base lies outside HBM (R434). -/
def ctxGate (va : Word) (u : Use) : M Unit := do
  let s ← get
  if !s.ctxEnable || decide (Config.hbmEnd ≤ s.ctxBase.toNat * 4096) then accessFault .access va 0 u.acc

/-- The root table of a context (R435): its cached entry, or a read of the context table. An entry past the end of HBM is read,
and a root outside it walked, with no fault of their own: the model's choice (log 83). -/
def walkRoot (src : Source) (die : Nat) (ctx : BitVec 16) (va : Word) (u : Use) : M Nat := do
  let s ← get
  let base := s.ctxBase.toNat * 4096
  match (Tbl.get [] s.ctxCache die).find? (fun e => e.1 == ctx) with
  | some e => return e.2
  | none =>
    match ← walkRead src (base + 8 * ctx.toNat) with
    | .error c => accessFault c va 0 u.acc
    | .ok e =>
      if !e.getLsbD 0 || bits e.toNat 1 11 ≠ 0 || bits e.toNat 52 12 ≠ 0 then accessFault .access va 0 u.acc
      let root := ptePA e
      modify fun s => { s with ctxCache := Tbl.set s.ctxCache die ((ctx, root) :: Tbl.get [] s.ctxCache die) }
      return root

/-- Set A, and D for a store, in a leaf by compare-and-swap at its ordering point (R441). -/
def setAD (src : Source) (pa : Nat) (p : Word) (va : Word) (level : Nat) (u : Use) : M Word := do
  let p' := p ||| (1#64 <<< 54) ||| (if u.isStore then 1#64 <<< 55 else 0)
  if p' == p then return p
  match ← snoopGate src pa true with
  | some c => accessFault c va level u.acc
  | none =>
    modify fun s => (s.performWrite src 0 pa .normal (bytesOfNat 8 p'.toNat)).snoopDone pa
    return p'

/-- The TLB entry of a leaf that has been read: merged where R440 lets it be. -/
def leafEntry (ctx : BitVec 16) (va : Nat) (level : Nat) (big : Bool) (p : Word) (at_ : Nat) : TlbEntry :=
  let sz := levelShift level big
  if level == 1 && !big && p.getLsbD 53 && bits p.toNat 12 4 == va / 4096 % 16 then
    { ctx := ctx, base := va / 65536 * 65536, size := 16, pa := ptePA p - 4096 * (va / 4096 % 16), pte := p
      ptePA := at_, level := level }
  else
    { ctx := ctx, base := va / 2 ^ sz * 2 ^ sz, size := sz, pa := ptePA p / 2 ^ sz * 2 ^ sz, pte := p
      ptePA := at_, level := level }

/-- Where an entry sends a VA. -/
def entryLoc (e : TlbEntry) (va : Nat) : Loc :=
  { pa := e.pa + (va - e.base), pte := e.pte, level := e.level, home := pteHome e.pte }

/-- A walk from a table of a level down (R439). The fuel is the number of levels. -/
def walkDown (src : Source) (die : Nat) (ctx : BitVec 16) (va : Word) (u : Use) :
    Nat → Nat → Nat → Bool → M TlbEntry
  | 0, level, _, _ => accessFault .access va level u.acc
  | fuel + 1, level, table, big => do
    let pa := table + 8 * levelIndex level big va.toNat
    match ← walkRead src pa with
    | .error c => accessFault c va level u.acc
    | .ok p =>
      if !pteV p then accessFault (pageFault u.acc) va level u.acc
      if pteL p && !pteReserved level big p then
        match privStop (← get) u va (entryLoc (leafEntry ctx va.toNat level big p pa) va.toNat) with
        | some t => trap t
        | none => pure ()
      if pteL p && level ≤ 2 && !ptePermits p u.acc then accessFault (pageFault u.acc) va level u.acc
      if pteReserved level big p then accessFault .rsvbit va level u.acc
      if pteL p then
        let e := leafEntry ctx va.toNat level big p pa
        match leafCheck (← get) u va (entryLoc e va.toNat) with
        | some t => trap t
        | none =>
          ordCheck src u va (entryLoc e va.toNat)
          let p' ← setAD src pa p va level u
          return { e with pte := p' }
      else
        if Config.hbmEnd ≤ ptePA p then accessFault .access va level u.acc
        modify fun s => s.walkInstall die ctx va.toNat (level - 1) (ptePA p)
        walkDown src die ctx va u fuel (level - 1) (ptePA p) (pteT p)

/-- The source number that a walk's reads carry; a core's are made through its port of plane 0, whatever column the entry lies
in, which the spec does not say (log 12). -/
def walkSource : WalkSrc → Source
  | .core c => corePort c.toNat 0
  | .porter k => porterSrc k.toNat
  | .steward k => stewardSrc k.toNat
  | .dispatcher => dispatcherSrc

/-- A whole walk (R443). -/
def walk (src : WalkSrc) (ctx : BitVec 16) (va : Word) (u : Use) : M TlbEntry := do
  let die := WalkSrcDie src
  ctxGate va u
  match (← get).walkHit die ctx va.toNat with
  | some (lv, table) => walkDown (walkSource src) die ctx va u 5 lv table false
  | none =>
    let root ← walkRoot (walkSource src) die ctx va u
    walkDown (walkSource src) die ctx va u 5 5 root false

/-- The leaf that the tables give an address, without a walk's effects: where its page lies and its ordering kind, for the
order of accesses that are not made yet (R172, R417). -/
def State.peekDown (s : State) (ctx : BitVec 16) (va : Nat) : Nat → Nat → Nat → Bool → Option Loc
  | 0, _, _, _ => none
  | fuel + 1, level, table, big =>
    let pa := table + 8 * levelIndex level big va
    let p := BitVec.ofNat 64 (Memory.nat s.mem pa 8)
    if !pteV p || pteReserved level big p then none
    else if pteL p then some (entryLoc (leafEntry ctx va level big p pa) va)
    else s.peekDown ctx va fuel (level - 1) (ptePA p) (pteT p)

def State.peek (s : State) (ctx : BitVec 16) (va : Nat) : Option Loc :=
  let e := BitVec.ofNat 64 (Memory.nat s.mem (s.ctxBase.toNat * 4096 + 8 * ctx.toNat) 8)
  if s.ctxEnable && e.getLsbD 0 then s.peekDown ctx va 5 5 (ptePA e) false else none

/-- The pieces of a VA range by page: VA, bytes, and where the page lies. -/
def State.pages (s : State) (ctx : BitVec 16) (va n : Nat) : List (Nat × Nat × Option Loc) :=
  (List.range ((va % 4096 + n + 4095) / 4096)).map fun i =>
    let a := Nat.max va (va / 4096 * 4096 + 4096 * i)
    (a, Nat.min (va + n) (va / 4096 * 4096 + 4096 * (i + 1)) - a, s.peek ctx a)

/-- A walk for the page of an address is in flight, or queued, at a die (R445). -/
def State.walkPending (s : State) (die : Nat) (ctx : BitVec 16) (va : Nat) : Bool :=
  let same (w : WalkReq) : Bool := w.ctx == ctx && w.va.toNat / 4096 == va / 4096
  (Tbl.get [] s.walks die).any (fun x => same x.req) || (Tbl.get [] s.walkQueue die).any same

/-- A miss (R443): it waits for a walk of its page that is under way, which serves both (R445, R448), else makes its own. -/
def walkMiss (src : WalkSrc) (itlb : Bool) (ctx : BitVec 16) (va : Word) (u : Use) : M Loc := do
  if (← get).walkPending (WalkSrcDie src) ctx va.toNat then stall
  let e ← walk src ctx va u
  modify (·.tlbFill src itlb e va.toNat)
  return entryLoc e va.toNat

/-- Translate an address and make the checks of R205 (R432, R439 - R443). -/
def translate (src : WalkSrc) (itlb : Bool) (ctx : BitVec 16) (va : Word) (u : Use) : M Loc := do
  if 2 ^ 57 ≤ va.toNat then accessFault .access va 0 u.acc
  let (hit, s) := (← get).tlbLookup src itlb ctx va.toNat
  set s
  match hit with
  | some e =>
    match privStop s u va (entryLoc e va.toNat) with
    | some t => trap t
    | none => pure ()
    if ptePermits e.pte u.acc && (pteDirty e.pte || !u.isStore) then
      match leafCheck (← get) u va (entryLoc e va.toNat) with
      | some t => trap t
      | none =>
        ordCheck (walkSource src) u va (entryLoc e va.toNat)
        return entryLoc e va.toNat
    else
      modify (·.tlbForget src e)
      walkMiss src itlb ctx va u
  | none => walkMiss src itlb ctx va u

end Sys2Proof.Machine
end

