-- ==== Sys2Proof/Machine/Ops.lean ====
section
/-! DEFINITION. The named operations over the current hart, its registers and memory: register access, program
counter, traps and their return, fetch, loads, stores and atomics. -/
namespace Sys2Proof.Machine

/-! ### The current hart -/

/-- The slot of the current hart; a Steward has none. -/
def State.curSlot (s : State) : Option SlotId :=
  match s.cur with | .block sl => some sl | .steward _ => none

/-- Registers of the current hart. -/
def State.hart (s : State) : Hart :=
  match s.cur with
  | .block sl => (s.slot sl).hart
  | .steward k => (s.cluster k.toNat).steward.hart

def State.setHart (s : State) (h : Hart) : State :=
  match s.cur with
  | .block sl => s.modSlot sl fun x => { x with hart := h }
  | .steward k => s.modCluster k.toNat fun c => { c with steward := { c.steward with hart := h } }

def State.modHart (s : State) (f : Hart → Hart) : State := s.setHart (f s.hart)

/-- The lane thread whose instruction is under way (R339): its lane. -/
def State.lane (s : State) : Option Nat :=
  match s.cur with
  | .block sl => (s.slot sl).threads.map (·.cur)
  | .steward _ => none

/-- Vector registers the current block has: the launch's NVREG, and v0 - v7 in a call's frame (R37, R346). -/
def State.nvreg (s : State) : Nat :=
  match s.cur with
  | .block sl => if (s.slot sl).call.isSome then 8 else (s.slot sl).lrec.nvreg.toNat
  | .steward _ => 0

/-- Element i of width w bits of a register's 4,096 bits (R298). -/
def elemOf (v : VReg) (w i : Nat) : Nat := bits v.toNat (i * w) w

/-- A register with element i of width w replaced. -/
def setElem (v : VReg) (w i val : Nat) : VReg :=
  let lo := i * w
  let mask : VReg := BitVec.ofNat 4096 (2 ^ w - 1) <<< lo
  (v &&& ~~~mask) ||| (BitVec.ofNat 4096 (val % 2 ^ w) <<< lo)

/-- A scalar register as the current instruction reads it: x0 reads 0 (R99); in lane thread i, xN is element i of vN
at 64 bits (R340). -/
def State.getX (s : State) (r : Reg) : Word :=
  if r = 0 then 0
  else match s.lane, s.cur with
    | some i, .block sl => BitVec.ofNat 64 (elemOf (s.slot sl).vregs[r.toFin] 64 i)
    | _, _ => s.hart.x[r.toFin]

/-- Write a scalar register: a write to x0 is discarded (R99, R190); a register of a forced value is no longer one. -/
def State.setX (s : State) (r : Reg) (v : Word) : State :=
  if r = 0 then s
  else match s.lane, s.cur with
    | some i, .block sl =>
      s.modSlot sl fun x =>
        { x with vregs := x.vregs.set r.toFin (setElem x.vregs[r.toFin] 64 i v.toNat)
                 naming := x.naming ||| (1#32 <<< r.toNat), named := x.named &&& ~~~(1#32 <<< r.toNat) }
    | _, _ => s.modHart fun h => { h with x := h.x.set r.toFin v, forced := h.forced.filter (· != r) }

/-- Address of the instruction under way: the lane thread's, else the hart's. -/
def State.pc (s : State) : Word :=
  match s.cur with
  | .block sl =>
    match (s.slot sl).threads with
    | some t => ((t.lanes.find? (fun l => l.1 == t.cur)).map (fun l => l.2.1)).getD t.split
    | none => s.hart.pc
  | .steward _ => s.hart.pc

def State.setPc (s : State) (v : Word) : State :=
  match s.cur with
  | .block sl =>
    match (s.slot sl).threads with
    | some t => s.modSlot sl fun x =>
        { x with threads := some { t with lanes := t.lanes.map fun l => if l.1 == t.cur then (l.1, v, l.2.2) else l } }
    | none => s.modHart fun h => { h with pc := v }
  | .steward _ => s.modHart fun h => { h with pc := v }

/-- One more instruction retired (R190). -/
def State.count (s : State) : State := s.modHart fun h => { h with instret := h.instret + 1 }

/-- An instruction retires and the PC goes on at `to`. -/
def State.retire (s : State) (dest : Word) : State := (s.setPc dest).count

/-- Who the current hart is to the translation engine, and its context. -/
def State.walkSrc (s : State) : WalkSrc :=
  match s.cur with
  | .block sl => .core (BitVec.ofNat 8 (slotCore sl))
  | .steward k => .steward k
def State.ctx (s : State) : BitVec 16 :=
  match s.cur with | .block sl => (s.slot sl).ctx | .steward _ => 0

/-- The source number of the current hart's access to a granule (R403). -/
def State.src (s : State) (pa : Nat) : Source :=
  match s.cur with
  | .block sl => corePort (slotCore sl) (pa / 32 % 16)
  | .steward k => stewardSrc k.toNat

/-! ### Traps -/

/-- Record a failed write against a block; the first stays (R173). -/
def State.recordFailed (s : State) (sl : SlotId) (f : FailedWrite) (vector : Bool) : State :=
  s.modSlot sl fun x => if x.failed.isSome then x else { x with failed := some f, failedIsVector := vector }

/-- The fault record of a trap of a block (R106). -/
def State.faultRecord (s : State) (sl : SlotId) (t : Trap) (token : Word) : FaultRec :=
  let lane := s.lane.map fun i => BitVec.ofNat 32 i
  { cause := t.cause.code, tile := t.tile, elem := if lane.isSome && t.at?.isNone then lane else t.elem
    va := t.va, vaValid := t.vaValid, level := BitVec.ofNat 8 t.level
    core := BitVec.ofNat 8 (slotCore sl), slot := BitVec.ofNat 8 (slotNum sl)
    iva := t.at?.getD s.pc, wid := (s.slot sl).wid, token := token }

/-- PA of a slot's fault record in its cluster window (R143). -/
def faultPA (sl : SlotId) : Nat :=
  clusterBase (slotCluster sl) + 0x3F000 + (slotCore sl % 8 * 4 + slotNum sl) * 0x40

/-- Write 64 bytes at a 32-byte aligned address, as two granule writes. -/
def State.put64 (s : State) (src : Source) (pa : Nat) (bs : List Byte) : State :=
  (s.performWrite src 0 pa .normal (bs.take 32)).performWrite src 0 (pa + 32) .normal (bs.drop 32)

/-- A trap whose delivery waits: where it was raised, and by which lane, is kept with it. -/
def State.pinTrap (s : State) (t : Trap) : Trap :=
  { t with at? := some (t.at?.getD s.pc)
           elem := if t.at?.isNone then (s.lane.map fun i => BitVec.ofNat 32 i).or t.elem else t.elem }

/-- A trap routed to the Steward stops the slot: the fault record, TRAP, the cause (R234). While the event queue is full the
stop waits for it, and nothing of the block goes on (R146, R236). -/
def State.stopSlot (s : State) (sl : SlotId) (t : Trap) : State :=
  let k := slotCluster sl
  if !s.eventRoom k then s.modSlot sl fun x => { x with stop := x.stop.or (some (s.pinTrap t)) }
  else
    let f := s.faultRecord sl t 0
    let s := s.put64 (corePort (slotCore sl) 0) (faultPA sl) (f.bytes t.reason)
    let s := s.pushEvent k (s.slotEvent sl 3 (t.cause.code.zeroExtend 64) (BitVec.ofNat 64 (faultPA sl)))
    s.modSlot sl fun x => { x with cause := t.cause.code, halted := true, rob := none }

/-- A replayable page fault parks the block: a fresh token, the fault-queue entry, PAGEFAULT (R153, R446, R489). -/
def State.parkSlot (s : State) (sl : SlotId) (t : Trap) (source : BitVec 8) : State :=
  let k := slotCluster sl
  if !s.eventRoom k then s
  else
    let (tok, s) := s.takeToken
    let s := s.postFault (s.faultRecord sl t tok) (s.slot sl).ctx t.acc source
    let s := s.pushEvent k (s.slotEvent sl 4 tok t.va)
    s.modSlot sl fun x =>
      { x with run := if x.run == .evicting then .evicting else .parked, cause := t.cause.code
               park := some { token := tok, acc := t.acc, va := t.va, since := s.clock } }

/-- Delivery to ctl.tvec (R232, R233): the trap registers, then the handler. -/
def State.toHandler (s : State) (t : Trap) : State :=
  let pc := s.pc
  let s := s.modHart fun h =>
    { h with xpc := pc, tcause := t.cause.code, tval := t.tval, tcoord := t.tcoord }
  s.setPc (s.hart.tvec &&& ~~~3)

/-- Taking an exception: where it goes is fixed by its cause (R105), by ctl.tvec (R232), and by whether a lane thread
or a call raises it (R343, R348). A Steward takes every trap at its own ctl.tvec; with ctl.tvec 0 it stops, to be
fenced (R147, R493). -/
def State.takeTrap (s : State) (t : Trap) : State :=
  match s.cur with
  | .steward k =>
    if s.hart.tvec &&& ~~~3 = 0 then
      s.modCluster k.toNat fun c => { c with steward := { c.steward with stopped := true } }
    else s.toHandler { t with tval := if t.vaValid then t.va else t.tval }
  | .block sl =>
    let x := s.slot sl
    if t.cause.delivery = .park then s.parkSlot sl t 0
    else if t.cause.delivery = .tvec ∧ s.hart.tvec ≠ 0 ∧ x.threads = none ∧ x.call = none then
      (s.toHandler t).modSlot sl fun y => { y with cause := t.cause.code }
    else
      let t := match x.call with
        | some c =>
          let pos := BitVec.ofNat 16 (c.lo + (s.lane.getD (t.elem.getD 0).toNat))
          let line := BitVec.ofNat 16 c.line
          match c.instr.ta with
          | some ta => { t with tile := some (if ta.shape.getLsbD 4 then (ta.name, pos, line) else (ta.name, line, pos)) }
          | none => t
        | none => t
      s.stopSlot sl t

/-- The ILLEGAL trap of the instruction under way (R94, R233). -/
def illegalTrap (ir : BitVec 64) : Trap := { cause := .illegal, tval := ir }

def illegal {α : Type} : M α := do trap (illegalTrap (← get).ir)
def illreg {α : Type} : M α := trap { cause := .illreg }
def privTrap {α : Type} : M α := trap { cause := .priv }

/-- Return from a trap handler: PC := ctl.xpc & ~3 (R221, R235). -/
def State.trapReturn (s : State) : State := (s.setPc (s.hart.xpc &&& ~~~3)).count

/-! ### Running an instruction -/

/-- The outcome of an instruction: its next state, a trap taken, or a wait in which the PC stays. -/
def finish (r : EStateM.Result Exc State Unit) : Host.Outcome State Fault Refusal :=
  match r with
  | .ok _ s => .next s
  | .error (.trap t) s => .next (s.takeTrap t)
  | .error .stall s => .next s

/-- An instruction of `len` bytes that goes on at the next one. -/
def runInstr (len : Nat) (m : M Unit) (s : State) : Host.Outcome State Fault Refusal :=
  if s.power = .off then .fault .poweredOff
  else finish ((do m; modify fun (t : State) => t.retire (t.pc + BitVec.ofNat 64 len)).run s)

/-- An instruction that says where the PC goes. -/
def runJump (m : M Word) (s : State) : Host.Outcome State Fault Refusal :=
  if s.power = .off then .fault .poweredOff
  else finish ((do let dest ← m; modify fun (t : State) => t.retire dest).run s)

/-- A step that is no instruction: an engine, an agent of the part, or the outside world. -/
def runStep (f : State → State) (s : State) : Host.Outcome State Fault Refusal :=
  if s.power = .off then .fault .poweredOff else .next (f s)

/-- A step of a register that serves once the boot ROM has accepted a bundle: in recovery only those of the health
controller do (R504). -/
def runServing (f : State → State) : State → Host.Outcome State Fault Refusal :=
  runStep fun s => if s.health.boot = 1 then f s else s

/-- Run a computation and hand its exception back with the state it left. -/
def attempt {α : Type} (m : M α) : M (Except Exc α) := fun s =>
  match m s with
  | .ok a s' => .ok (.ok a) s'
  | .error e s' => .ok (.error e) s'

/-- The stream queues bound in the frame that is running: number and queue. -/
def Slot.streamsHere (x : Slot) : List (Nat × Stream) :=
  ((List.range 8).map fun k => (k, x.streams[k]!)).filter fun e => e.2.bound && e.2.inCall == x.call.isSome

/-- Scalar instructions that lane threads permit: there a register at or above NVREG raises ILLREG (R340), and so does a
write of a vector register that is bound to a stream (R334). -/
def scalarRegsOk (s : State) (rs : List Reg) (rd : Reg) : Bool :=
  match s.lane, s.cur with
  | some _, .block sl =>
    (rs.all fun r => r.toNat < s.nvreg) && (rd == 0 || !(s.slot sl).streamsHere.any fun e => e.2.reg == rd)
  | _, _ => true

def scalarGate (rs : List Reg) (rd : Reg) : M Unit := do
  if !scalarRegsOk (← get) rs rd then illreg

/-- Instructions that a lane thread does not permit raise ILLEGAL in it (R340). -/
def noLane : M Unit := do
  if (← get).lane.isSome then illegal

/-- Vector and matrix words: ILLEGAL on a Steward (R98) and in a lane thread (R340). -/
def vecGate : M SlotId := do
  let s ← get
  match s.cur with
  | .steward _ => illegal
  | .block sl => if s.lane.isSome then illegal else return sl

/-- Tile words: ILLEGAL on a Steward (R98), in a lane thread (R340) and in a called lane function (R41). -/
def tileGate : M SlotId := do
  let s ← get
  match s.cur with
  | .steward _ => illegal
  | .block sl => if s.lane.isSome || (s.slot sl).call.isSome then illegal else return sl

/-- Steward-only words raise PRIV in a block (R98). -/
def stewardGate : M ClusterId := do
  match (← get).cur with
  | .steward k => return k
  | .block _ => privTrap

def readX (r : Reg) : M Word := do return (← get).getX r
def writeX (r : Reg) (v : Word) : M Unit := modify fun s => s.setX r v

/-! ### Memory, as a hart reaches it -/

/-- Ranges [a, a + n) and [b, b + m) share a granule (R172). -/
def shareGranule (a n b m : Nat) : Bool := decide (a / 32 ≤ (b + m - 1) / 32) && decide (b / 32 ≤ (a + n - 1) / 32)

/-- Committed tile work of a block that an access of its hart comes after (R172): all of it, or, in a call of a lane
function, what is older than the TMAP or TRED (R347). -/
def Slot.olderWork (x : Slot) : List TileInstr :=
  match x.call with
  | some c => x.work.takeWhile fun t => t.id != c.instr.id
  | none => x.work

/-- A TMAP or TRED: its function's accesses stand at its place in program order (R347). -/
def TileInstr.isMap (t : TileInstr) : Bool := match t.op with | .map _ _ _ _ _ => true | _ => false

/-- Some number of `n` numbers from `lo` on satisfies a condition. -/
def anyFrom (f : Nat → Bool) (lo : Nat) : Nat → Bool
  | 0 => false
  | n + 1 => f lo || anyFrom f (lo + 1) n

/-- Element i of a stream in memory (R335): its address and bytes. -/
def Stream.elem (q : Stream) (i : Nat) : Word × Nat := (q.base + BitVec.ofNat 64 i * q.estride, 2 ^ q.eew.toNat)

/-- Some element that a pull stream's refills have yet to read satisfies a condition (R335). -/
def Stream.unread (q : Stream) (f : Word × Nat → Bool) : Bool :=
  q.bound && !q.push && !q.ended && anyFrom (fun i => f (q.elem i)) q.filled.toNat (q.count.toNat - q.filled.toNat)

/-- One granule's part of an access: its address, where it goes, its bytes. -/
structure Part where
  va : Word
  loc : Loc
  len : Nat
  deriving DecidableEq, Repr

/-- An access and an outstanding copy's range share a granule, by address or by the page that the tables give, or both lie on
SO pages (R172, R417). -/
def State.inOrder (s : State) (ctx : BitVec 16) (p : Part) (r : Word × Nat) : Bool :=
  let mem := pteMem p.loc.pte ≠ 2
  (mem && shareGranule p.va.toNat p.len r.1.toNat r.2) || (s.pages ctx r.1.toNat r.2).any fun q => match q.2.2 with
    | some l => (mem && shareGranule p.loc.pa p.len l.pa q.2.1) || (pteOrd p.loc.pte == 1 && pteOrd l.pte == 1)
    | none => false

/-- Some byte of a range lies on an SO page. -/
def State.onSoPage (s : State) (ctx : BitVec 16) (r : Word × Nat) : Bool :=
  (s.pages ctx r.1.toNat r.2).any fun q => q.2.2.any fun l => pteOrd l.pte == 1

/-- Two ranges of a block's accesses share a granule, by address or by page, or both touch SO pages (R172, R417). -/
def State.rangesOrder (s : State) (ctx : BitVec 16) (a b : Word × Nat) : Bool :=
  shareGranule a.1.toNat a.2 b.1.toNat b.2 || (s.pages ctx a.1.toNat a.2).any fun p => match p.2.2 with
    | some l => s.inOrder ctx ⟨BitVec.ofNat 64 p.1, l, p.2.1⟩ b
    | none => false

/-! ### Writes held at stream queues (R211, R214, R336) -/

/-- Some write of a block held at a stream queue satisfies a condition. -/
def State.anyHeld (s : State) (sl : SlotId) (f : HeldWrite → Bool) : Bool :=
  s.slots.any fun e => e.2.streams.toList.any fun q => q.held.any fun h => h.writer == some sl && f h

/-- Whether an access must wait for an outstanding copy of its block (R172, R417) or an unfinished TMAP or TRED (R347); for
a refill that has yet to read its granule, if it is a store, or another SO page, if it is on one (R335, R417); on an SO page for
a write of the block on one that a stream queue still holds (R206). -/
def State.mustWait (s : State) (sl : SlotId) (p : Part) (store : Bool) : Bool :=
  let x := s.slot sl
  let so := pteOrd p.loc.pte == 1
  let late (r : Word × Nat) : Bool := if store then s.inOrder x.ctx p r else s.onSoPage x.ctx r
  (x.olderWork.any fun t => (t.isMap && pteMem p.loc.pte ≠ 2) || t.ranges.any (s.inOrder x.ctx p))
  || ((so || (store && pteMem p.loc.pte ≠ 2)) && x.streams.toList.any fun q => q.unread late)
  || (so && s.anyHeld sl (·.so))

/-- A held write is that of a scalar access. -/
def HeldWrite.scalar (h : HeldWrite) : Bool := h.fail.elem.isNone && h.cmd.isNone

/-- A FENCE.SV keeps the block's tile work from number `id` on, and its vector accesses, behind a held scalar write (R214). -/
def State.svHeld (s : State) (sl : SlotId) (id : Nat) : Bool := s.anyHeld sl fun h => h.sv.any fun n => decide (n ≤ id)

/-- The held scalar writes of a block, as a FENCE.SV leaves them. -/
def State.svMark (s : State) (sl : SlotId) : State :=
  let id := (s.slot sl).nextId
  if !s.anyHeld sl HeldWrite.scalar then s
  else { s with slots := s.slots.map fun e => (e.1, { e.2 with streams := e.2.streams.map fun q =>
    { q with held := q.held.map fun h =>
        if h.writer == some sl && h.scalar && !h.un && h.sv.isNone then { h with sv := some id } else h } }) }

/-- Cut [va, va + n) at granule boundaries, in ascending order (R204). -/
def cutGranules : Nat → Word → Nat → List (Word × Nat)
  | 0, _, _ => []
  | f + 1, va, n =>
    if n = 0 then []
    else
      let k := Nat.min n (32 - va.toNat % 32)
      (va, k) :: cutGranules f (va + BitVec.ofNat 64 k) (n - k)

/-- Where an address of the current hart goes: a block's is translated; a Steward's is physical (log 9), and an atomic of
an on-chip window has ACCESS (R28). -/
def hartLoc (va : Word) (u : Use) : M Loc := do
  let s ← get
  match s.cur with
  | .block _ => translate s.walkSrc false s.ctx va u
  | .steward _ =>
    let pa := va.toNat
    let chip := match regionOf pa with | .core _ _ | .cluster _ _ | .device _ => true | _ => false
    if s.unreachable pa 0 || (chip && u.noChip) then accessFault .access va 0 u.acc
    if s.pathFenced pa then accessFault .fenced va 0 u.acc
    return { pa := pa, pte := 0, level := 0, home := 0 }

/-- A part of an access waits for older accesses that it must follow (R172, R214, R417). -/
def followPart (u : Use) (p : Part) : M Unit := do
  let s ← get
  match s.cur with
  | .block sl => if s.mustWait sl p u.inv || (u.vector && s.anyHeld sl fun h => h.sv.isSome) then stall
  | .steward _ => pure ()

/-- What comes before one part of an access is performed: older accesses that it must follow, then the checks of its data
(R205, R412). -/
def settlePart (u : Use) (p : Part) : M Unit := do
  followPart u p
  dataCheck ((← get).src p.loc.pa) u p.va p.loc

/-- Translate and check every part of an access, in ascending order, each in full before the next (R204, R205). -/
def locateEach (u : Use) : List (Word × Nat) → M (List Part)
  | [] => return []
  | (va, n) :: rest => do
    let l ← hartLoc va u
    settlePart u ⟨va, l, n⟩
    let ps ← locateEach u rest
    return ⟨va, l, n⟩ :: ps

/-- The strongest ordering kind among parts, in the order SO > RC > UN (R416). -/
def strongest (ps : List Part) : Nat :=
  if ps.any fun p => pteOrd p.loc.pte == 1 then 1 else if ps.any fun p => pteOrd p.loc.pte == 0 then 0 else 2

/-- A part performed with an ordering kind. -/
def Part.withKind (p : Part) (k : Nat) : Part :=
  { p with loc := { p.loc with pte := (p.loc.pte &&& ~~~0xC0) ||| BitVec.ofNat 64 (k * 64) } }

/-- The parts of one access, all of the strongest kind of any (R416): a part that is raised to it waits as that kind does. -/
def sameKind (u : Use) (ps : List Part) : M (List Part) := do
  if ps.length < 2 then return ps
  let qs := ps.map fun p => p.withKind (strongest ps)
  let s ← get
  match s.cur with
  | .block sl => if qs.any fun q => s.mustWait sl q u.inv then stall
  | .steward _ => pure ()
  return qs

/-- Translate and check an access, part by part, its parts of one ordering kind (R204, R205, R416). -/
def locate (u : Use) (l : List (Word × Nat)) : M (List Part) := do
  let ps ← locateEach u l
  sameKind u ps

/-- The bytes of one part, read at its ordering point. -/
def readPart (hint : Hint) (p : Part) : M (List Byte) := do
  if pteCmp p.loc.pte then
    match ← readCompressed ((← get).src p.loc.pa) p.loc.pa p.len with
    | .ok bs => return bs
    | .error c => accessFault c p.va 0 .load
  else
    let s ← get
    set ((s.didRead (s.src p.loc.pa) p.loc.home p.loc.pa hint).snoopDone p.loc.pa)
    return Memory.bytes s.mem p.loc.pa p.len

def readParts (hint : Hint) : List Part → M (List Byte)
  | [] => return []
  | p :: rest => do
    let a ← readPart hint p
    let b ← readParts hint rest
    return a ++ b

/-- The bytes of a queue's data with n bytes replaced at an offset. -/
def putBits (v : BitVec 32768) (off : Nat) (bs : List Byte) : BitVec 32768 :=
  let n := bs.length
  let mask : BitVec 32768 := BitVec.ofNat 32768 (2 ^ (8 * n) - 1) <<< (8 * off)
  (v &&& ~~~mask) ||| (BitVec.ofNat 32768 (natOfBytes bs) <<< (8 * off))

def markBits (v : BitVec 4096) (off n : Nat) : BitVec 4096 := v ||| (BitVec.ofNat 4096 (2 ^ n - 1) <<< off)

/-- A queue takes no writes: its slot is empty, or it is bound in pull mode (R336). -/
def State.streamRefuses (s : State) (target : SlotId) (k : Nat) : Bool :=
  let x := s.slot target
  x.run == .empty || (x.streams[k]!.bound && !x.streams[k]!.push)

/-- A write into a stream queue that is not performed: a failed write of its block, with cause ACCESS (R336). -/
def State.heldFails (s : State) (h : HeldWrite) : State :=
  match h.writer with
  | some w => s.recordFailed w { h.fail with cause := Cause.code .access } h.fail.elem.isSome
  | none => s

/-- A write into a stream inbound queue (R336): taken, held until its frame is consumed, or failed with ACCESS. -/
def State.streamIn (s : State) (target : SlotId) (k off : Nat) (bs : List Byte) (w : HeldWrite) : State :=
  let x := s.slot target
  let q := x.streams[k]!
  if s.streamRefuses target k then s.heldFails w
  else
    let q' : Stream :=
      if bits q.written.toNat off bs.length ≠ 0 then { q with held := q.held ++ [{ w with off := off, bytes := bs }] }
      else { q with data := putBits q.data off bs, written := markBits q.written off bs.length }
    s.setSlot target { x with streams := x.streams.set! k q' }

/-- A write of the current hart at an ordering point. -/
def State.hartWrite (s : State) (hint : Hint) (p : Part) (bs : List Byte) (elem : Option (BitVec 32)) : State :=
  let s := s.performWrite (s.src p.loc.pa) p.loc.home p.loc.pa hint bs
  (match s.cur with
    | .block sl => s.noteHost p.loc.home p.loc.pa sl { iva := s.pc, tile := none, elem := elem, va := p.va }
    | .steward _ => s).snoopDone p.loc.pa

/-- Write one part at its ordering point. A partial write of uncorrectable data is a failed write (R425, R173). -/
def State.writePart (s : State) (hint : Hint) (p : Part) (bs : List Byte) (elem : Option (BitVec 32)) : State :=
  let pc := s.pc
  let fail (s : State) : State := match s.cur with
    | .block sl => s.recordFailed sl { iva := pc, tile := none, elem := elem, va := p.va } elem.isSome
    | .steward _ => s
  match regionOf p.loc.pa with
  | .core c off => match winPart off with
    | .stream n k o => s.streamIn (slotOf c n) k o bs
        { writer := s.curSlot, fail := { iva := pc, tile := none, elem := elem, va := p.va }, un := pteOrd p.loc.pte == 2
          so := pteOrd p.loc.pte == 1 }
    | _ => s.hartWrite hint p bs elem
  | _ =>
    if s.corrupt p.loc.pa && bs.length != 32 then fail s
    else s.hartWrite hint p bs elem

def State.writeParts (s : State) (hint : Hint) : List Part → List Byte → Option (BitVec 32) → State
  | [], _, _ => s
  | p :: rest, bs, e => (s.writePart hint p (bs.take p.len) e).writeParts hint rest (bs.drop p.len) e

/-- A load of n bytes (R203 - R206): checked in full, then performed. -/
def loadBytes (va : Word) (n : Nat) (u : Use) (hint : Hint) : M (List Byte) := do
  let ps ← locate u (cutGranules 3 va n)
  readParts hint ps

/-- A store of bytes. -/
def storeBytes (va : Word) (bs : List Byte) (u : Use) (hint : Hint) : M Unit := do
  let ps ← locate u (cutGranules 3 va bs.length)
  modify fun s => s.writeParts hint ps bs none

/-- An access [va, va + n) crosses a granule boundary (R209). -/
def crosses (va : Word) (n : Nat) : Bool := decide (32 < va.toNat % 32 + n)

/-- An indivisible access of one granule: checked, then what it waits for once it is checked (R209), then performed; `f`
gives the new bytes from the old, or none for no write. -/
def atomicBytes (va : Word) (n : Nat) (u : Use) (release : M Unit) (f : List Byte → Option (List Byte)) : M (List Byte) := do
  let l ← hartLoc va u
  let p : Part := ⟨va, l, n⟩
  settlePart u p
  release
  let s ← get
  let old := Memory.bytes s.mem l.pa n
  match f old with
  | some new => set (s.hartWrite .normal p new none)
  | none => set ((s.didRead (s.src l.pa) l.home l.pa .normal).snoopDone l.pa)
  return old

/-! ### Fetch (R224, R225) -/

/-- The instruction-cache set of a fetch address (R224). -/
def icSet (va : Word) : BitVec 8 := BitVec.ofNat 8 (va.toNat / 64)

/-- Install a line; each set replaces its least recently used way (R224). -/
def icInstall (l : List ICLine) (e : ICLine) : List ICLine :=
  let rest := l.filter fun x => !(x.set == e.set && x.pa == e.pa)
  let same := rest.filter fun x => x.set == e.set
  if same.length < 4 then e :: rest
  else match same.getLast? with
    | some v => e :: rest.filter (· != v)
    | none => e :: rest

/-- Read the 64 bytes of a line at their ordering points. -/
def readLine (va : Word) (home pa : Nat) : M (BitVec 512) := do
  for g in [pa, pa + 32] do
    match ← snoopGate ((← get).src g) g false with
    | some c => accessFault c va 0 .fetch
    | none => pure ()
    if (← get).corrupt g then
      modify (·.badRead g)
      accessFault .decode va 0 .fetch
    modify fun s => (s.didRead (s.src g) home g .normal).snoopDone g
  return BitVec.ofNat 512 (Memory.nat (← get).mem pa 64)

/-- Fetch n bytes (4 or 8) within one line through the instruction TLB and cache (R224, R225); a Steward's from its local
memory, which alone it fetches from (R147). -/
def fetchIn (va : Word) (n : Nat) : M Nat := do
  let s ← get
  match s.cur with
  | .steward k =>
    if decide (va.toNat < clusterBase k.toNat) || decide (clusterBase k.toNat + 0x3F000 < va.toNat + n) then
      accessFault .access va 0 .fetch
    return Memory.nat s.mem va.toNat n
  | .block sl =>
    let l ← translate s.walkSrc true s.ctx va { acc := .fetch }
    let s ← get
    let c := slotCore sl
    let line := l.pa / 64 * 64
    match (s.core c).icache.find? (fun x => x.set == icSet va && x.pa == line) with
    | some x =>
      set (s.modCore c fun y => { y with icache := icInstall y.icache x })
      return bits x.data.toNat (8 * (l.pa % 64)) (8 * n)
    | none =>
      let d ← readLine va l.home line
      modify fun s => s.modCore c fun y =>
        { y with icache := icInstall y.icache ⟨icSet va, line, d⟩
                 fills := y.fills.filter (fun f => !(f.1.set == icSet va && f.1.pa == line)) }
      return bits d.toNat (8 * (l.pa % 64)) (8 * n)

/-- Fetch a 32-bit word; it never crosses a line. -/
def fetchWord (va : Word) : M Nat := fetchIn va 4

/-- Fetch 8 bytes at a 4-byte aligned address, which may straddle a line or a page (R219). -/
def fetchDouble (va : Word) : M Nat := do
  let lo ← fetchWord va
  let hi ← fetchWord (va + 4)
  return lo + 2 ^ 32 * hi

end Sys2Proof.Machine
end

