-- ==== Sys2Proof/Machine/Ferry.lean ====
section
/-! DEFINITION. The Ferry controller (spec/20_ferry.md): the split and its limits, the helm, plans and turns, flits and
retraining, its registers, and FBIAS and FSTAT. -/
namespace Sys2Proof.Machine

/-! ### The split (R464, R465) -/

def Ferry.inRotation (f : Ferry) : List (Fin 48) := (List.finRange 48).filter fun c => f.xings[c].rotation
/-- Crossings in rotation. -/
def Ferry.n (f : Ferry) : Nat := f.inRotation.length
/-- In-rotation crossings assigned East-to-West. -/
def Ferry.split (f : Ferry) : Nat := (f.inRotation.filter fun c => f.xings[c].dir).length
def Ferry.low (f : Ferry) : Nat := Nat.min 8 (f.n / 2)
def Ferry.high (f : Ferry) : Nat := f.n - f.low
def Ferry.clamp (f : Ferry) (t : Nat) : Nat := Nat.min (Nat.max t f.low) f.high

/-! ### The helm (R466) -/

/-- A candidate takes the helm: the plan queue is discarded without count. -/
def Ferry.take (f : Ferry) (l : QId × BitVec 32) : Ferry := { f with helm := some l, plan := [] }

/-- A rest plan is made (R466). -/
def Ferry.rests (f : Ferry) (clock : Nat) : Ferry := { f with restPlan := true, headAt := clock }

/-- The record priority of a launch. -/
def State.recordPriority (s : State) (l : QId × BitVec 32) : Nat :=
  match s.disp.launches.find? (fun x => x.queue == l.1 && x.number == l.2) with
  | some x => x.lrec.priority.toNat
  | none => 0

/-- The first block of a launch is placed (R466). -/
def State.helmPlaced (s : State) (l : QId × BitVec 32) (helm : Bool) : State :=
  if !helm || s.ferry.firstPlaced.contains l then s
  else
    let f := { s.ferry with firstPlaced := s.ferry.firstPlaced ++ [l] }
    let take := match f.helm with
      | none => true
      | some h => decide (s.recordPriority h < s.recordPriority l)
    { s with ferry := if take then f.take l else f }

/-- A launch completes (R466): a holder's helm passes to the best candidate, or a rest plan is made. -/
def State.helmDone (s : State) (l : QId × BitVec 32) : State :=
  let f := { s.ferry with firstPlaced := s.ferry.firstPlaced.filter (· != l) }
  if f.helm ≠ some l then { s with ferry := f }
  else
    let best := f.firstPlaced.foldl (fun (b : Option (QId × BitVec 32)) c =>
      match b with
      | none => some c
      | some x => if s.recordPriority x < s.recordPriority c then some c else some x) none
    match best with
    | some c => { s with ferry := f.take c }
    | none => { s with ferry := { f with helm := none, plan := [] }.rests s.clock }

/-! ### Plans and turns (R472, R473) -/

/-- What the controller serves next: entries whose target is the split complete; then the target of a floor turn, of the
head entry, or of a rest plan (R472, R474, R477). -/
def Ferry.serve : Nat → Ferry → Ferry × Option Nat
  | 0, f => (f, none)
  | k + 1, f =>
    if f.split < f.low then (f, some f.low)
    else if f.high < f.split then (f, some f.high)
    else match f.plan with
      | e :: rest =>
        if f.clamp e.target = f.split then Ferry.serve k { f with plan := rest, lastTag := e.tag }
        else (f, if f.hold then none else some (f.clamp e.target))
      | [] =>
        if !f.restPlan then (f, none)
        else if f.clamp f.rest.toNat = f.split then ({ f with restPlan := false }, none)
        else (f, if f.hold then none else some (f.clamp f.rest.toNat))

/-- The crossing that a turn towards a target takes, and its new direction (R465). -/
def Ferry.pick (f : Ferry) (target : Nat) : Option (Fin 48 × Bool) :=
  if target < f.split then (((f.inRotation.filter fun c => f.xings[c].dir).getLast?).map fun c => (c, false))
  else if f.split < target then ((f.inRotation.filter fun c => !f.xings[c].dir).head?.map fun c => (c, true))
  else none

def Ferry.modX (f : Ferry) (c : Nat) (g : Xing → Xing) : Ferry :=
  { f with xings := f.xings.mapFinIdx fun i x _ => if i = c then g x else x }

def Ferry.xing (f : Ferry) (c : XingId) : Xing := f.xings[c.toNat]?.getD {}

/-- The direction in which a crossing's lanes drive: that of before its turn until the ends swap (R473). -/
def Ferry.wire (f : Ferry) (c : XingId) : Bool :=
  match f.turn with
  | some (t, d, step, _) => if t = c && decide (step < 2) then !d else (f.xing c).dir
  | none => (f.xing c).dir

/-- A turn begins (R472, R473): the crossing counts for its new direction from now on. One that is retraining drains once
the retrain ends (R477). -/
def Ferry.startTurn (f : Ferry) (clock : Nat) : Ferry :=
  if f.turn.isSome then f
  else
    let (f, t) := f.serve 20
    match t.bind f.pick with
    | none => f
    | some (c, d) =>
      { f.modX c.val (fun x => { x with dir := d, state := if x.state = .retraining then .retraining else .turning }) with
        turn := some (BitVec.ofNat 6 c.val, d, 0, clock) }

/-! ### Flits, replay, retraining, removal (R475 - R477) -/

/-- CRC-32C of a flit holds (R475). -/
def flitOk (f : Flit) : Bool :=
  let bs := bytesOfNat 256 f.toNat
  (crc32c (bs.take 252)).toNat == natOfBytes (bs.drop 252)

/-- A crossing retrains (R477): it carries nothing until the retrain ends. -/
def Ferry.retrain (f : Ferry) (c clock : Nat) : Ferry :=
  { f.modX c (fun x => { x with state := .retraining, retrains := x.retrains + 1, crcTimes := []
                                retrainTimes := clock :: x.retrainTimes }) with
    retrains := if f.retrains = 0xFFFF then f.retrains else f.retrains + 1 }

/-- The unacknowledged flits of a crossing are sent again (R476). -/
def Ferry.replay (f : Ferry) (c clock : Nat) : Ferry :=
  f.modX c fun x => { x with replayTimes := x.retry.map (fun _ => clock) ++ x.replayTimes, acked := clock }

/-- A flit acknowledges another crossing's flits up to a link sequence (R475, R476). -/
def Xing.ack (x : Xing) (upTo : BitVec 16) (clock : Nat) : Xing :=
  { x with retry := x.retry.filter fun e => decide (0x8000 ≤ (upTo - e.1).toNat), acked := clock }

/-- A flit under another link sequence, with its CRC (R475). -/
def reseq (w : Flit) (seq : BitVec 16) : Flit :=
  let bs := bytesOfNat 2 seq.toNat ++ ((bytesOfNat 256 w.toNat).take 252).drop 2
  BitVec.ofNat 2048 (natOfBytes (bs ++ bytesOfNat 4 (crc32c bs).toNat))

/-- The flits up to the last one of a packet, and the rest. -/
def cutPacket : List (Bool × Flit) → List (Bool × Flit) × List (Bool × Flit)
  | [] => ([], [])
  | e :: rest => if e.2.getLsbD 27 then ([e], rest) else ((e :: (cutPacket rest).1), (cutPacket rest).2)

/-- The crossing that takes a packet of a removed one (R477): one that carries the same direction, with room for it. -/
def Ferry.heir (f : Ferry) (d : Bool) (flits : Nat) : Option (Fin 48) :=
  f.inRotation.find? fun o => f.xings[o].dir == d && f.xings[o].state == .active && decide (f.xings[o].retry.length + flits ≤ 128)

/-- Packets of removed crossings go, whole, to other crossings of their direction (R475, R477); one that finds no room
waits, and those after it. -/
def Ferry.rehome : Nat → Nat → Ferry → Ferry
  | 0, _, f => f
  | k + 1, clock, f =>
    let (p, rest) := cutPacket f.orphans
    match p.head?.bind fun e => f.heir e.1 p.length with
    | none => f
    | some o =>
      Ferry.rehome k clock <| p.foldl (fun g e => g.modX o.val fun y =>
        { y with retry := y.retry ++ [(y.txSeq, reseq e.2 y.txSeq)], txSeq := y.txSeq + 1
                 replayTimes := clock :: y.replayTimes, acked := clock }) { f with orphans := rest }

def Ferry.rehomeAll (f : Ferry) (clock : Nat) : Ferry := f.rehome f.orphans.length clock

/-- A turn ends. -/
def Ferry.endTurn (f : Ferry) (clock : Nat) : Ferry :=
  match f.turn with
  | none => f
  | some (c, _, _, _) =>
    let g := { f.modX c.toNat (fun x => { x with state := .active }) with
        turn := none, lastTurnEnd := clock, turns := f.turns + 1, headAt := clock }
    (g.serve 20).1.rehomeAll clock

/-- A flit arrives on a crossing (R476): the transmitter has it in its retry buffer; one that fails its CRC, or comes
after a gap, is dropped; 8 failures within 1 us retrain the crossing. It acknowledges flits of the opposite direction. In
the drain of a turn no new packet is accepted, and past it nothing is driven (R473). A flit that fails its CRC is a new one
where its link sequence is the next, else one that is sent again (log 46). -/
def Ferry.receive (f : Ferry) (c : XingId) (w : Flit) (clock : Nat) : Ferry :=
  let x := f.xing c
  let quiet := x.state == .turning && f.turn.any fun t => t.1 == c && t.2.2.1 != 0
  let seq := BitVec.ofNat 16 w.toNat
  let fresh := x.state == .turning && seq == x.txSeq && bits w.toNat 24 3 == 0 && bits w.toNat 48 16 != 0
  if !x.rotation || x.state == .retraining || x.state == .removed || quiet || fresh then f
  else
    let sent (x : Xing) (s : BitVec 16) : Xing :=
      if s == x.txSeq && decide (x.retry.length < 128) then
        { x with retry := x.retry ++ [(s, w)], txSeq := s + 1, acked := if x.retry.isEmpty then clock else x.acked }
      else x
    if !flitOk w then
      let f := f.modX c.toNat fun x =>
        { sent x seq with crcTimes := clock :: x.crcTimes.filter fun t => decide (clock < t + Config.usClocks) }
      if 8 ≤ (f.xing c).crcTimes.length then f.retrain c.toNat clock else f
    else
      let f := f.modX c.toNat fun x =>
        let x := sent x seq
        if seq == x.rxSeq then { x with rxSeq := x.rxSeq + 1 } else x
      let a := bits w.toNat 16 8
      if seq == x.rxSeq && decide (a < 48) && f.wire (BitVec.ofNat 6 a) != f.wire c then
        (f.modX a fun y => y.ack (BitVec.ofNat 16 (bits w.toNat 32 16)) clock).rehomeAll clock
      else f

/-- A crossing is removed (R477): n and the limits follow; its retry buffer goes to other crossings of its direction;
a turn of it ends. -/
def Ferry.remove (f : Ferry) (c clock : Nat) : Ferry :=
  let x := f.xing (BitVec.ofNat 6 c)
  let d := f.wire (BitVec.ofNat 6 c)
  let f := f.modX c fun x => { x with rotation := false, state := .removed, retry := [] }
  let f := match f.turn with
    | some (t, _, _, _) => if t.toNat = c then { f with turn := none, lastTurnEnd := clock } else f
    | none => f
  { f with orphans := f.orphans ++ x.retry.map fun (e : BitVec 16 × Flit) => (d, e.2), headAt := clock }.rehomeAll clock

/-- Lane-lock loss and the causes like it (R477): the crossing retrains. -/
def Ferry.loseLock (f : Ferry) (c : XingId) (clock : Nat) : Ferry :=
  if (f.xing c).rotation && (f.xing c).state != .retraining then f.retrain c.toNat clock else f

/-- A retrain ends (R477): `bad` more lanes are replaced by spares, at most 4 in all, or the crossing is removed. A turn
that the retrain met goes on (R479). -/
def Ferry.endRetrain (f : Ferry) (c : XingId) (bad clock : Nat) : Ferry :=
  let x := f.xing c
  if x.state ≠ .retraining then f
  else if 4 < x.spares + bad then f.remove c.toNat clock
  else
    let turning := match f.turn with | some (t, _, _, _) => t == c | none => false
    let f := f.modX c.toNat fun x => { x with spares := x.spares + bad, state := if turning then .turning else .active }
    let f := match f.turn with
      | some (t, d, st, _) => if t == c then { f with turn := some (t, d, st, clock) } else f
      | none => f
    (f.replay c.toNat clock).rehomeAll clock

/-! ### Status words and registers (R470, R471, R474) -/

/-- Status word `sel` (R470, R471); `helm` is its bit [6]. The head's target in word 1 is the one accepted, not as a removal
clamps it again, and bit c of word 3 is 0 for a removed crossing: the model's choices (log 92). -/
def Ferry.word (f : Ferry) (clock : Nat) (helm : Bool) (sel : Nat) : Word :=
  BitVec.ofNat 64 <| match sel with
  | 0 => f.split + (if helm then 64 else 0) + (if f.turn.isSome then 128 else 0) + f.plan.length * 2 ^ 8
      + f.low * 2 ^ 16 + f.high * 2 ^ 24
      + (match f.plan with | e :: _ => e.tag.toNat | [] => f.lastTag.toNat) * 2 ^ 32
  | 1 => match f.plan with
    | [] => 0
    | e :: _ => f.plan.length + e.target % 64 * 2 ^ 8 + e.tag.toNat * 2 ^ 16
        + (clock - e.accepted) / Config.usClocks % 65536 * 2 ^ 32
  | 2 => f.turns.toNat + f.expired.toNat * 2 ^ 32 + f.retrains.toNat * 2 ^ 48
  | _ => (f.inRotation.filter fun c => f.xings[c].dir).foldl (fun v c => v + 2 ^ c.val) 0 + f.n * 2 ^ 48

/-- Clocks of a second. -/
def secClocks : Nat := 1000 * Config.msClocks

/-- FXING (R474). Replays are those of the last whole second. -/
def Xing.reg (x : Xing) (clock : Nat) : Word :=
  let sec := clock / secClocks
  let rep := (x.replayTimes.filter fun t => t / secClocks + 1 == sec).length
  BitVec.ofNat 64 ((if x.dir then 1 else 0) + (if x.rotation then 2 else 0)
    + (match x.state with | .active => 0 | .turning => 1 | .retraining => 2 | .removed => 3) * 4
    + x.spares % 8 * 16 + Nat.min rep 0xFFFF * 2 ^ 8 + Nat.min x.retrains 0xFF * 2 ^ 24)

/-- A 64-bit register of the Ferry controller by its offset from 0x4_0000 (R474); reserved ones read 0 (R10). -/
def Ferry.reg (f : Ferry) (clock off : Nat) : Word :=
  if off = 0 then BitVec.ofNat 64 (f.rest.toNat + (if f.hold then 64 else 0))
  else if off = 8 then (match f.helm with
    | some (q, n) => BitVec.ofNat 64 (n.toNat + q.toNat * 2 ^ 32 + 2 ^ 63)
    | none => 0)
  else if 0x10 ≤ off ∧ off ≤ 0x28 ∧ off % 8 = 0 then f.word clock f.helm.isSome ((off - 0x10) / 8)
  else if h : 0x100 ≤ off ∧ off < 0x100 + 8 * 48 ∧ off % 8 = 0 then
    (f.xings[(off - 0x100) / 8]'(by omega)).reg clock
  else 0

/-- A write of FCTL (R474): a rest value outside the limits stores the nearer one; while no launch holds the helm a new
rest plan starts (R466). -/
def Ferry.writeCtl (f : Ferry) (v : Word) (clock : Nat) : Ferry :=
  { f with rest := BitVec.ofNat 6 (f.clamp (v.toNat % 64)), hold := v.getLsbD 6
           restPlan := f.restPlan || f.helm.isNone, headAt := clock }

/-! ### FBIAS and FSTAT (R467 - R470) -/

/-- The launch of a block. -/
def Slot.launch (x : Slot) : QId × BitVec 32 := (x.queue, x.number)

/-- FBIAS at the controller (R468): the controller and the status word. -/
def Ferry.bias (f : Ferry) (l : QId × BitVec 32) (flush : Bool) (t : Nat) (tag : BitVec 16) (clock : Nat) : Ferry × Word :=
  let out (g : Ferry) (st : Nat) : Ferry × Word := (g, BitVec.ofNat 64 (st + g.plan.length * 2 ^ 8 + f.split * 2 ^ 16))
  if f.helm ≠ some l then out f 2
  else
    let g := if flush then { f with plan := [] } else f
    let g := if g.plan.isEmpty then { g with headAt := clock } else g
    if g.plan.length = 16 then out g 3
    else out { g with plan := g.plan ++ [⟨g.clamp t, tag, clock⟩], restPlan := false } (if g.clamp t = t then 0 else 1)

/-- FBIAS (R468). -/
def execFbias (flush : Bool) (ra rb : Reg) (tag : BitVec 16) : State → Host.Outcome State Fault Refusal :=
  runInstr 8 (do
    let sl ← tileGate
    let s ← get
    let (f, w) := s.ferry.bias (s.slot sl).launch flush (s.getX rb).toNat tag s.clock
    set ({ s with ferry := f }.setX ra w))

/-- FSTAT (R470). -/
def execFstat (ra : Reg) (sel : BitVec 2) : State → Host.Outcome State Fault Refusal :=
  runInstr 8 (do
    let sl ← tileGate
    let s ← get
    writeX ra (s.ferry.word s.clock (s.ferry.helm == some (s.slot sl).launch) sel.toNat))

end Sys2Proof.Machine
end

