-- ==== Sys2Proof/Machine/Float.lean ====
section
/-! DEFINITION. Number formats and their arithmetic (spec/04_numbers.md): floating values as exact numbers, rounded
once. -/
namespace Sys2Proof.Machine

/-- The floating formats of R110. -/
inductive Fl where | f16 | bf16 | f32 | f64 | f8e4 | f8e5
  deriving DecidableEq, Repr

/-- Rounding modes (R117). -/
inductive Rnd where | rne | rtz | rdn | rup | rmm
  deriving DecidableEq, Repr

/-- Widths, exponent and fraction bits, bias (R110). -/
def Fl.width : Fl → Nat | .f64 => 64 | .f32 => 32 | .f16 => 16 | .bf16 => 16 | .f8e4 => 8 | .f8e5 => 8
def Fl.ebits : Fl → Nat | .f64 => 11 | .f32 => 8 | .f16 => 5 | .bf16 => 8 | .f8e4 => 4 | .f8e5 => 5
def Fl.fbits : Fl → Nat | .f64 => 52 | .f32 => 23 | .f16 => 10 | .bf16 => 7 | .f8e4 => 3 | .f8e5 => 2
def Fl.bias (f : Fl) : Nat := 2 ^ (f.ebits - 1) - 1
/-- Exponent of the smallest normal. -/
def Fl.emin (f : Fl) : Int := 1 - (f.bias : Int)
/-- Exponent of the largest finite value (f8e4 uses the all-ones exponent for numbers, R110). -/
def Fl.emax (f : Fl) : Int := if f = .f8e4 then 8 else (f.bias : Int)

/-- A value: a NaN (signalling or not), an infinity, or (-1)^neg x m x 2^e. -/
inductive Fv where
  | nan (signalling : Bool)
  | inf (neg : Bool)
  | num (neg : Bool) (m : Nat) (e : Int)
  deriving DecidableEq, Repr

/-- Flag bits of ctl.fcsr (R103). -/
def flagNX : Nat := 1
def flagUF : Nat := 2
def flagOF : Nat := 4
def flagDZ : Nat := 8
def flagNV : Nat := 16
def orFlags (a b : Nat) : Nat := a ||| b

/-- The canonical NaN of a format (R112). -/
def Fl.canonNaN : Fl → Nat
  | .f64 => 0x7FF8000000000000 | .f32 => 0x7FC00000 | .f16 => 0x7E00 | .bf16 => 0x7FC0 | .f8e4 => 0x7F | .f8e5 => 0x7E

/-- Read a value from its bits (R110, R111); a bf16 subnormal reads as a zero of its sign (R114). -/
def Fl.decode (f : Fl) (w : Nat) : Fv :=
  let neg := bits w (f.width - 1) 1 == 1
  let ex := bits w f.fbits f.ebits
  let fr := bits w 0 f.fbits
  if f = .f8e4 then
    if ex = 15 ∧ fr = 7 then .nan false
    else if ex = 0 then .num neg fr (f.emin - f.fbits)
    else .num neg (2 ^ f.fbits + fr) ((ex : Int) - f.bias - f.fbits)
  else if ex = 2 ^ f.ebits - 1 then
    if fr = 0 then .inf neg
    else .nan (f ≠ .f8e5 && bits fr (f.fbits - 1) 1 == 0)
  else if ex = 0 then (if f = .bf16 then .num neg 0 0 else .num neg fr (f.emin - f.fbits))
  else .num neg (2 ^ f.fbits + fr) ((ex : Int) - f.bias - f.fbits)

def Fl.signBit (f : Fl) (neg : Bool) : Nat := if neg then 2 ^ (f.width - 1) else 0
def Fl.zero (f : Fl) (neg : Bool) : Nat := f.signBit neg
/-- Infinity; f8e4 has none. -/
def Fl.infinity (f : Fl) (neg : Bool) : Nat := f.signBit neg + (2 ^ f.ebits - 1) * 2 ^ f.fbits
/-- Largest finite magnitude. -/
def Fl.maxFinite (f : Fl) (neg : Bool) : Nat :=
  f.signBit neg + (if f = .f8e4 then 0x7E else (2 ^ f.ebits - 1) * 2 ^ f.fbits - 1)

/-- Whether a magnitude n + r / 2^d, with remainder r, rounds up to n + 1. -/
def roundsUp (rm : Rnd) (neg : Bool) (n r d : Nat) : Bool :=
  match rm with
  | .rne => decide (2 ^ d < 2 * r) || (decide (2 * r = 2 ^ d) && n % 2 == 1)
  | .rtz => false
  | .rdn => neg && r != 0
  | .rup => !neg && r != 0
  | .rmm => decide (2 ^ d ≤ 2 * r) && r != 0

/-- m x 2^e as a multiple of 2^q, rounded: the multiple, and whether it is inexact. -/
def roundAt (rm : Rnd) (neg : Bool) (m : Nat) (e q : Int) : Nat × Bool :=
  if q ≤ e then (m * 2 ^ (e - q).toNat, false)
  else
    let d := (q - e).toNat
    let n := m / 2 ^ d
    let r := m % 2 ^ d
    (if roundsUp rm neg n r d then n + 1 else n, r != 0)

/-- Overflowed result of a format (R113, R115). -/
def Fl.overflow (f : Fl) (rm : Rnd) (neg : Bool) : Nat :=
  if f = .f8e4 then f.maxFinite neg
  else match rm with
    | .rne | .rmm => f.infinity neg
    | .rtz => f.maxFinite neg
    | .rdn => if neg then f.infinity true else f.maxFinite false
    | .rup => if neg then f.maxFinite true else f.infinity false

/-- Round an exact number to a format: bits and flags (R113 - R115). -/
def Fl.round (f : Fl) (rm : Rnd) (neg : Bool) (m : Nat) (e : Int) : Nat × Nat :=
  if m = 0 then (f.zero neg, 0)
  else
    let fb : Int := f.fbits
    let top : Int := e + Nat.log2 m
    let u := roundAt rm neg m e (top - fb)
    let topU : Int := if u.1 = 2 ^ (f.fbits + 1) then top + 1 else top
    let tiny := decide (topU < f.emin)
    let nU := if u.1 = 2 ^ (f.fbits + 1) then 2 ^ f.fbits else u.1
    if tiny then
      if f = .bf16 then (f.zero neg, flagUF + flagNX)
      else
        let b := roundAt rm neg m e (f.emin - fb)
        (f.signBit neg + b.1, if b.2 then flagUF + flagNX else 0)
    else if decide (f.emax < topU) || (f = .f8e4 && topU == 8 && nU == 15) then
      (f.overflow rm neg, flagOF + flagNX)
    else
      (f.signBit neg + (topU + f.bias).toNat * 2 ^ f.fbits + (nU - 2 ^ f.fbits), if u.2 then flagNX else 0)

/-- Deliver a value: NaNs are canonical (R112); an infinity to f8e4 saturates with NV (R115). -/
def Fl.deliver (f : Fl) (rm : Rnd) : Fv → Nat × Nat
  | .nan _ => (f.canonNaN, 0)
  | .inf neg => if f = .f8e4 then (f.maxFinite neg, flagNV) else (f.infinity neg, 0)
  | .num neg m e => f.round rm neg m e

def Fv.isSNaN : Fv → Bool | .nan s => s | _ => false
def Fv.isNaN : Fv → Bool | .nan _ => true | _ => false
def Fv.isZero : Fv → Bool | .num _ m _ => m == 0 | _ => false
def Fv.neg? : Fv → Bool | .nan _ => false | .inf n => n | .num n _ _ => n
/-- NV for a signalling source (R113). -/
def nvIf (xs : List Fv) : Nat := if xs.any Fv.isSNaN then flagNV else 0

/-- Negate a value. -/
def Fv.negate : Fv → Fv | .nan s => .nan s | .inf n => .inf !n | .num n m e => .num (!n) m e

/-- Exact sum of two numbers; a zero sum takes its sign by R199. -/
def sumNum (rm : Rnd) (n1 : Bool) (m1 : Nat) (e1 : Int) (n2 : Bool) (m2 : Nat) (e2 : Int) : Fv :=
  if m1 = 0 ∧ m2 = 0 ∧ n1 = n2 then .num n1 0 0
  else if m1 = 0 then (if m2 = 0 then .num (rm == .rdn) 0 0 else .num n2 m2 e2)
  else if m2 = 0 then .num n1 m1 e1
  else
    let e := min e1 e2
    let a : Int := (m1 * 2 ^ (e1 - e).toNat : Nat)
    let b : Int := (m2 * 2 ^ (e2 - e).toNat : Nat)
    let t := (if n1 then -a else a) + (if n2 then -b else b)
    if t = 0 then .num (rm == .rdn) 0 0 else .num (decide (t < 0)) t.natAbs e

/-- Sum as a value with its flags before rounding: infinities of opposite sign are invalid (R113). -/
def addV (rm : Rnd) (x y : Fv) : Fv × Nat :=
  match x, y with
  | .nan _, _ => (.nan false, nvIf [x, y])
  | _, .nan _ => (.nan false, nvIf [x, y])
  | .inf a, .inf b => if a = b then (.inf a, 0) else (.nan false, flagNV)
  | .inf a, _ => (.inf a, 0)
  | _, .inf b => (.inf b, 0)
  | .num n1 m1 e1, .num n2 m2 e2 => (sumNum rm n1 m1 e1 n2 m2 e2, 0)

/-- Exact product with its flags: 0 x infinity is invalid. -/
def mulV (x y : Fv) : Fv × Nat :=
  match x, y with
  | .nan _, _ => (.nan false, nvIf [x, y])
  | _, .nan _ => (.nan false, nvIf [x, y])
  | .inf a, .inf b => (.inf (a != b), 0)
  | .inf a, .num n m _ => if m = 0 then (.nan false, flagNV) else (.inf (a != n), 0)
  | .num n m _, .inf b => if m = 0 then (.nan false, flagNV) else (.inf (n != b), 0)
  | .num n1 m1 e1, .num n2 m2 e2 => (.num (n1 != n2) (m1 * m2) (e1 + e2), 0)

/-- Round a value with flags into a format. -/
def Fl.finish (f : Fl) (rm : Rnd) (v : Fv × Nat) : Nat × Nat :=
  let r := f.deliver rm v.1
  (r.1, orFlags v.2 r.2)

/-- x + y, x - y, x times y in a format (R199). -/
def Fl.add (f : Fl) (rm : Rnd) (a b : Nat) : Nat × Nat := f.finish rm (addV rm (f.decode a) (f.decode b))
def Fl.sub (f : Fl) (rm : Rnd) (a b : Nat) : Nat × Nat := f.finish rm (addV rm (f.decode a) (f.decode b).negate)
def Fl.mul (f : Fl) (rm : Rnd) (a b : Nat) : Nat × Nat := f.finish rm (mulV (f.decode a) (f.decode b))

/-- Quotient of magnitudes with 128 more bits than the divisor needs and a sticky bit. -/
def divMag (m1 m2 : Nat) : Nat :=
  let q := m1 * 2 ^ (128 + Nat.log2 m2) / m2
  let r := m1 * 2 ^ (128 + Nat.log2 m2) % m2
  2 * q + (if r = 0 then 0 else 1)

/-- x / y (R113, R199): 0 / 0 and inf / inf are invalid; a finite nonzero number by 0 raises DZ. -/
def Fl.div (f : Fl) (rm : Rnd) (a b : Nat) : Nat × Nat :=
  let x := f.decode a
  let y := f.decode b
  f.finish rm <| match x, y with
    | .nan _, _ => (.nan false, nvIf [x, y])
    | _, .nan _ => (.nan false, nvIf [x, y])
    | .inf _, .inf _ => (.nan false, flagNV)
    | .inf n, _ => (.inf (n != y.neg?), 0)
    | .num n _ _, .inf k => (.num (n != k) 0 0, 0)
    | .num n1 m1 e1, .num n2 m2 e2 =>
      if m2 = 0 then (if m1 = 0 then (.nan false, flagNV) else (.inf (n1 != n2), flagDZ))
      else if m1 = 0 then (.num (n1 != n2) 0 0, 0)
      else (.num (n1 != n2) (divMag m1 m2) (e1 - e2 - 129 - Nat.log2 m2), 0)

/-- Integer square root of a number below 4^k. -/
def isqrt : Nat → Nat → Nat
  | 0, _ => 0
  | k + 1, n =>
    let r := 2 * isqrt k (n / 4)
    if (r + 1) * (r + 1) ≤ n then r + 1 else r

/-- Square root of m x 2^e as a magnitude with a sticky bit. -/
def sqrtMag (m : Nat) (e : Int) : Nat × Int :=
  let odd := e % 2 != 0
  let m := (if odd then 2 * m else m) * 2 ^ 128
  let e := (if odd then e - 1 else e) - 128
  let r := isqrt 128 m
  (2 * r + (if r * r = m then 0 else 1), e / 2 - 1)

/-- Square root (R199): -0 gives -0; a negative number is invalid. -/
def Fl.sqrt (f : Fl) (rm : Rnd) (a : Nat) : Nat × Nat :=
  f.finish rm <| match f.decode a with
    | .nan s => (.nan false, if s then flagNV else 0)
    | .inf n => if n then (.nan false, flagNV) else (.inf false, 0)
    | .num n m e =>
      if m = 0 then (.num n 0 0, 0)
      else if n then (.nan false, flagNV)
      else (.num false (sqrtMag m e).1 (sqrtMag m e).2, 0)

/-- x y + z with one rounding (R126): `np` negates the product, `nz` the addend. An invalid product raises NV even
with a quiet NaN addend (R113). -/
def fmaV (rm : Rnd) (np nz : Bool) (x y z : Fv) : Fv × Nat :=
  let p := mulV x y
  let pv := if np then p.1.negate else p.1
  let zv := if nz then z.negate else z
  let t := addV rm pv zv
  (t.1, orFlags (orFlags p.2 t.2) (nvIf [x, y, z]))
def Fl.fma (f : Fl) (rm : Rnd) (np nz : Bool) (a b c : Nat) : Nat × Nat :=
  f.finish rm (fmaV rm np nz (f.decode a) (f.decode b) (f.decode c))

/-- x < y for values that are no NaN; -0 is not below +0. -/
def Fv.lt : Fv → Fv → Bool
  | .nan _, _ => false
  | _, .nan _ => false
  | .inf a, .inf b => a && !b
  | .inf a, .num _ _ _ => a
  | .num _ _ _, .inf b => !b
  | .num n1 m1 e1, .num n2 m2 e2 =>
    let e := min e1 e2
    let a : Int := (m1 * 2 ^ (e1 - e).toNat : Nat)
    let b : Int := (m2 * 2 ^ (e2 - e).toNat : Nat)
    decide ((if n1 then -a else a) < (if n2 then -b else b))
def Fv.eq (x y : Fv) : Bool := !x.isNaN && !y.isNaN && !x.lt y && !y.lt x

/-- Minimum or maximum (R121): -0 is below +0; one NaN gives the other operand; two give the canonical NaN. -/
def Fl.minmax (f : Fl) (max : Bool) (a b : Nat) : Nat × Nat :=
  let x := f.decode a
  let y := f.decode b
  let fl := nvIf [x, y]
  let read (w : Nat) (v : Fv) : Nat := if v.isZero then f.zero v.neg? else w
  if x.isNaN && y.isNaN then (f.canonNaN, fl)
  else if x.isNaN then (read b y, fl)
  else if y.isNaN then (read a x, fl)
  else
    let less := x.lt y || (x.eq y && x.neg? && !y.neg?)
    (if less != max then read a x else read b y, fl)

/-- Comparisons (R121): eq and ne raise NV for a signalling NaN only, the others for any NaN. -/
def Fl.cmp (f : Fl) (c : FCond) (a b : Nat) : Bool × Nat :=
  let x := f.decode a
  let y := f.decode b
  let quiet := nvIf [x, y]
  let any := if x.isNaN || y.isNaN then flagNV else 0
  match c with
  | .eq => (x.eq y, quiet)
  | .ne => (!x.eq y, quiet)
  | .lt => (x.lt y, any)
  | .le => (x.lt y || x.eq y, any)
  | .gt => (y.lt x, any)
  | .ge => (y.lt x || x.eq y, any)

/-- The class mask of R200. -/
def Fl.classify (f : Fl) (a : Nat) : Nat :=
  let ex := bits a f.fbits f.ebits
  match f.decode a with
  | .nan s => if s then 2 ^ 8 else 2 ^ 9
  | .inf n => if n then 1 else 2 ^ 7
  | .num n m _ =>
    if m = 0 then (if n then 2 ^ 3 else 2 ^ 4)
    else if ex = 0 then (if n then 2 ^ 2 else 2 ^ 5)
    else (if n then 2 ^ 1 else 2 ^ 6)

/-- Sign injection copies bits and raises nothing (R200): mode 0 copies, 1 inverts, 2 xors. -/
def Fl.sgnj (f : Fl) (mode : Nat) (a b : Nat) : Nat :=
  let sa := bits a (f.width - 1) 1
  let sb := bits b (f.width - 1) 1
  let s := if mode = 0 then sb else if mode = 1 then 1 - sb else (sa + sb) % 2
  a % 2 ^ (f.width - 1) + s * 2 ^ (f.width - 1)

/-- Convert between floating formats (R114, R115, R120): one rounding. -/
def Fl.convert (src dst : Fl) (rm : Rnd) (a : Nat) : Nat × Nat :=
  let v := src.decode a
  let r := dst.deliver rm v
  (r.1, orFlags (nvIf [v]) r.2)

/-- An integer to a floating format (R120). -/
def Fl.ofInt (f : Fl) (rm : Rnd) (v : Int) : Nat × Nat := f.round rm (decide (v < 0)) v.natAbs 0

/-- Round to an integer and clamp to w bits (R120): the value as w bits, and flags. -/
def toIntV (v : Fv) (rm : Rnd) (signed : Bool) (w : Nat) : Nat × Nat :=
  let maxv : Nat := if signed then 2 ^ (w - 1) - 1 else 2 ^ w - 1
  let minMag : Nat := if signed then 2 ^ (w - 1) else 0
  let minBits : Nat := if signed then 2 ^ (w - 1) else 0
  match v with
  | .nan _ => (maxv, flagNV)
  | .inf n => (if n then minBits else maxv, flagNV)
  | .num n m e =>
    let r := roundAt rm n m e 0
    if n then
      if minMag < r.1 then (minBits, flagNV) else ((2 ^ w - r.1) % 2 ^ w, if r.2 then flagNX else 0)
    else
      if maxv < r.1 then (maxv, flagNV) else (r.1, if r.2 then flagNX else 0)

/-! ### lg6 (R122 - R125) -/

/-- The sum table T x 4096 (R123). -/
def lgT (f : Nat) : Nat := match f with | 0 => 4096 | 1 => 4871 | 2 => 5793 | _ => 6889

/-- The value of an lg6 element (R123). -/
def lgDecode (w : Nat) : Fv :=
  let c := w % 32
  let neg := w / 32 % 2 == 1
  if c = 0 then (if neg then .nan false else .num false 0 0)
  else .num neg (lgT (c % 4)) ((c / 4 : Nat) - 16)

/-- The magnitude code nearest to m x 2^e, ties to the even code (R124): V(c) in units of 2^-16 is T << q. -/
def lgNearest (m : Nat) (e : Int) : Nat :=
  -- compare 2 |x| with V(c) + V(c+1): x rounds above c when it exceeds the midpoint, or ties with c odd
  let unit (c : Nat) : Nat := if c = 0 then 0 else lgT (c % 4) * 2 ^ (c / 4)
  (List.range 31).foldl (fun best c =>
    let mid := unit c + unit (c + 1)
    -- 2 m 2^e against mid 2^-16
    let s := min (e + 1) (-16)
    let a := m * 2 ^ (e + 1 - s).toNat
    let b := mid * 2 ^ ((-16) - s).toNat
    if b < a || (a == b && c % 2 == 1) then c + 1 else best) 0

/-- Convert a value to lg6 (R124). -/
def lgOf (v : Fv) : Nat × Nat :=
  match v with
  | .nan s => (0x20, if s then flagNV else 0)
  | .inf n => ((if n then 32 else 0) + 31, flagOF + flagNX)
  | .num n m e =>
    if m = 0 then (0, 0)
    else
      let c := lgNearest m e
      if c = 0 then (0, flagUF + flagNX)
      else
        let big := (Fv.num false (lgT 3) (7 - 16)).lt (.num false m e)
        let exact := (Fv.num false m e).eq (lgDecode c)
        ((if n then 32 else 0) + c, if big then flagOF + flagNX else if exact then 0 else flagNX)

/-- A product of two lg6 elements (R125): NaN, or a signed integer in units of 2^-20. -/
def lgProduct (a b : Nat) : Option Int :=
  let ca := a % 32
  let cb := b % 32
  let sa := a / 32 % 2
  let sb := b / 32 % 2
  if (ca = 0 ∧ sa = 1) ∨ (cb = 0 ∧ sb = 1) then none
  else if ca = 0 ∨ cb = 0 then some 0
  else
    let p := ca + cb
    let t : Int := (lgT (p % 4) * 2 ^ (p / 4) : Nat)
    some (if sa = sb then t else -t)

/-- LgGroup: the sum of up to 32 products, rounded to f32 by RNE: bits and flags (R125). -/
def lgGroup (ps : List (Option Int)) : Nat × Nat :=
  if ps.any Option.isNone then (Fl.canonNaN .f32, 0)
  else
    let t := ps.foldl (fun acc p => acc + p.getD 0) 0
    Fl.round .f32 .rne (decide (t < 0)) t.natAbs (-20)

end Sys2Proof.Machine
end

