-- ==== Sys2Proof/Machine/Flags.lean ====
section
/-! DEFINITION. The fields of ctl.fcsr (R103), rounding modes taken from it (R117), accrual and traps of floating
flags (R118, R119), and fixed-point rounding and saturation (R109). -/
namespace Sys2Proof.Machine

def fcsrFlags (f : BitVec 17) : Nat := bits f.toNat 0 5
def fcsrFrm (f : BitVec 17) : Nat := bits f.toNat 5 3
def fcsrVxrm (f : BitVec 17) : Nat := bits f.toNat 9 2
def fcsrVxsat (f : BitVec 17) : Bool := f.getLsbD 11
def fcsrFte (f : BitVec 17) : Nat := bits f.toNat 12 5

/-- A rounding mode by code (R77, R103); 5 to 7 are reserved. -/
def rndOf : Nat → Option Rnd
  | 0 => some .rne | 1 => some .rtz | 2 => some .rdn | 3 => some .rup | 4 => some .rmm | _ => none

/-- The mode of a scalar instruction: its field, or frm (R117); a reserved frm raises ILLEGAL (R202). -/
def rndField (s : State) : Rm → Option Rnd
  | .rne => some .rne | .rtz => some .rtz | .rdn => some .rdn | .rup => some .rup | .rmm => some .rmm
  | .dyn => rndOf (fcsrFrm s.hart.fcsr)

/-- OR flags into ctl.fcsr (R118). -/
def State.accrue (s : State) (fl : Nat) : State :=
  s.modHart fun h => { h with fcsr := h.fcsr ||| BitVec.ofNat 17 (fl % 32) }

/-- Flags raised that are enabled to trap (R119). -/
def State.trapping (s : State) (fl : Nat) : Bool := fl &&& fcsrFte s.hart.fcsr != 0

/-- A scalar instruction accrues every flag it raised, and traps before its write when one is enabled (R119). -/
def raiseFlags (fl : Nat) : M Unit := do
  modify (·.accrue fl)
  if (← get).trapping fl then trap { cause := .fptrap, tval := BitVec.ofNat 64 fl }

/-- Set ctl.fcsr.vxsat (R109). -/
def State.setVxsat (s : State) : State := s.modHart fun h => { h with fcsr := h.fcsr ||| 0x800 }

/-- RoundOff (R109): v exact, shifted right by d; arithmetic for signed values. -/
def roundOff (vxrm : Nat) (v : Int) (d : Nat) : Int :=
  if d = 0 then v
  else
    let q := v / (2 ^ d : Nat)
    let r := (v % (2 ^ d : Nat)).toNat
    let half := 2 ^ (d - 1)
    let inc := match vxrm with
      | 0 => decide (half ≤ r)
      | 1 => decide (half < r) || (r == half && q % 2 != 0)
      | 2 => false
      | _ => q % 2 == 0 && r != 0
    if inc then q + 1 else q

/-- Sat (R109): the clamped value and whether it clamped. -/
def saturate (signed : Bool) (w : Nat) (v : Int) : Int × Bool :=
  let hi : Int := if signed then 2 ^ (w - 1) - 1 else 2 ^ w - 1
  let lo : Int := if signed then -(2 ^ (w - 1)) else 0
  if hi < v then (hi, true) else if v < lo then (lo, true) else (v, false)

end Sys2Proof.Machine
end

