-- ==== Sys2Proof/Machine/Operands.lean ====
section
/-! DEFINITION. Vector operands: vtype and grant (R102, R289), active elements (R95), register groups and their checks
(R96, R300), the operand kinds of the V form (R298), and pops of stream-bound registers (R334, R336, R337). -/
namespace Sys2Proof.Machine

/-- SEW of a vtype (R102). -/
def vtypeSew (v : BitVec 6) : Nat := 8 * 2 ^ (v.toNat / 8 % 4)
/-- LMUL of a vtype (R102). -/
def vtypeLmul (v : BitVec 6) : Nat := 2 ^ (v.toNat % 4)

/-- Lane groups granted to a slot (R38, R290). -/
def State.grant (s : State) (sl : SlotId) : Nat :=
  ((s.core (slotCore sl)).lanes.toList.filter fun e => e.owner == some (BitVec.ofNat 2 (slotNum sl))).length

/-- ctl.lanes (R100): 0 for a Steward, which has no lane engine (R98). -/
def State.lanesCtl (s : State) : Nat := match s.curSlot with | some sl => s.grant sl | none => 0

/-- VLMAX of a grant under a vtype (R289). -/
def vlmaxOf (grant : Nat) (v : BitVec 6) : Nat := grant * 256 * vtypeLmul v / vtypeSew v

/-- ctl.vlmax (R100). -/
def State.vlmax (s : State) : Nat := vlmaxOf s.lanesCtl s.hart.vtype

/-- What a vector instruction runs under: its slot, vtype, vl, vstart, grant, masking, v0, the registers and its
scalar operand. -/
structure VCtx where
  sl : SlotId
  sew : Nat
  lmul : Nat
  vl : Nat
  vstart : Nat
  grant : Nat
  vm : Bool
  frm : Nat
  vxrm : Nat
  xs : Word
  rf : Vector VReg 32
  deriving DecidableEq, Repr

def VCtx.vlen (c : VCtx) : Nat := c.grant * 256
def VCtx.vlmax (c : VCtx) : Nat := c.grant * 256 * c.lmul / c.sew

/-- The context of the current instruction; rs names its scalar operand. -/
def State.vctx (s : State) (sl : SlotId) (vm : Bool) (rs : Reg) : VCtx :=
  let h := s.hart
  { sl := sl, sew := vtypeSew h.vtype, lmul := vtypeLmul h.vtype, vl := h.vl.toNat, vstart := h.vstart.toNat
    grant := s.grant sl, vm := vm, frm := fcsrFrm h.fcsr, vxrm := fcsrVxrm h.fcsr, xs := s.getX rs
    rf := (s.slot sl).vregs }

/-- A register's contents. -/
def VCtx.reg (c : VCtx) (r : Nat) : VReg := c.rf[r % 32]'(Nat.mod_lt _ (by decide))

/-- Bit i of a mask register (R288). -/
def VCtx.bit (c : VCtx) (r : Reg) (i : Nat) : Bool := (c.reg r.toNat).getLsbD i

/-- The indices vstart .. vl - 1. -/
def VCtx.range (c : VCtx) : List Nat := List.range' c.vstart (c.vl - c.vstart)

/-- Active elements of a V-form word (R95). -/
def VCtx.active (c : VCtx) : List Nat := c.range.filter fun i => c.vm || c.bit 0 i

/-- Element i of eew bits of the group that begins at register r (R288). -/
def VCtx.elem (c : VCtx) (r : Reg) (eew i : Nat) : Nat :=
  let p := i * eew
  bits (c.reg (r.toNat + p / c.vlen)).toNat (p % c.vlen) eew

/-- A register file with one element of a group replaced (R288). -/
def putElem (rf : Vector VReg 32) (vlen : Nat) (r : Reg) (eew i val : Nat) : Vector VReg 32 :=
  let p := i * eew
  let n := (r.toNat + p / vlen) % 32
  have h : n < 32 := Nat.mod_lt _ (by decide)
  rf.set n (setElem (rf[n]) eew (p % vlen / eew) val) h

/-! ### Register groups (R96, R300) -/

/-- A vector operand: first register, element width (0 for a mask), and eight times its EMUL. -/
structure VOpnd where
  reg : Reg
  eew : Nat
  emul8 : Nat
  deriving DecidableEq, Repr

/-- An element group (R96). -/
def VCtx.grp (c : VCtx) (r : Reg) (eew : Nat) : VOpnd := ⟨r, eew, c.lmul * eew * 8 / c.sew⟩
/-- A mask operand: EMUL 1 (R96). -/
def maskOp (r : Reg) : VOpnd := ⟨r, 0, 8⟩
/-- An operand of EMUL 1 whatever the LMUL (R311, R313). -/
def oneOp (r : Reg) (eew : Nat) : VOpnd := ⟨r, eew, 8⟩

def VOpnd.size (o : VOpnd) : Nat := o.emul8 / 8
def VOpnd.covers (o : VOpnd) (r : Nat) : Bool := decide (o.reg.toNat ≤ r) && decide (r < o.reg.toNat + o.size)
def VOpnd.overlaps (a b : VOpnd) : Bool :=
  decide (a.reg.toNat < b.reg.toNat + b.size) && decide (b.reg.toNat < a.reg.toNat + a.size)

/-- EMUL 1, 2, 4 or 8, aligned, below NVREG (R96). -/
def VOpnd.ok (o : VOpnd) (nvreg : Nat) : Bool :=
  (o.emul8 == 8 || o.emul8 == 16 || o.emul8 == 32 || o.emul8 == 64)
    && o.reg.toNat % o.size == 0 && decide (o.reg.toNat + o.size ≤ nvreg)

/-- The checks of R96 on a word's groups. -/
def groupsOk (nvreg : Nat) (vm : Bool) (dst : Option VOpnd) (srcs : List VOpnd) : Bool :=
  srcs.all (·.ok nvreg)
    && match dst with
      | none => true
      | some d => d.ok nvreg && srcs.all (fun o => o.eew == d.eew || !o.overlaps d)
          && (vm || d.eew == 0 || d.reg != 0)

/-! ### Streams as registers read them (R334, R336, R337) -/

/-- A bound register may be read as a whole group of EMUL 1 at the stream's element width, and never written (R334). -/
def streamsOk (x : Slot) (dst : Option VOpnd) (srcs : List VOpnd) : Bool :=
  x.streamsHere.all fun e =>
    (match dst with | some d => !d.covers e.2.reg.toNat | none => true)
      && srcs.all fun o => !o.covers e.2.reg.toNat || (o.emul8 == 8 && o.eew == 8 * 2 ^ e.2.eew.toNat)

/-- The queues that a word pops: those whose register a source names (R334). -/
def popped (x : Slot) (srcs : List VOpnd) : List (Nat × Stream) :=
  x.streamsHere.filter fun e => srcs.any fun o => o.covers e.2.reg.toNat

/-- Whether a queue can give vl elements now: none to wait, or the first element that will never come. -/
def Stream.ready (q : Stream) (vl : Nat) : Option (Option Nat) :=
  let eb := 2 ^ q.eew.toNat
  if q.push then
    (if bits q.written.toNat (q.frame.toNat * 512) (vl * eb) = 2 ^ (vl * eb) - 1 then some none else none)
  else
    let last := Nat.min (q.pos.toNat + vl) q.count.toNat
    if last ≤ q.filled.toNat then some none
    else if q.ended then some (some (q.filled.toNat - q.pos.toNat)) else none

/-- The strip that a pop writes into the register: elements at and above vl, and positions at or above count, are
zero (R334). -/
def Stream.strip (q : Stream) (vl : Nat) : VReg :=
  let eb := 2 ^ q.eew.toNat
  if q.push then BitVec.ofNat 4096 (bits q.data.toNat (q.frame.toNat * 4096) (8 * vl * eb))
  else
    (List.range vl).foldl (fun v i =>
      let n := q.pos.toNat + i
      if n < q.count.toNat then setElem v (8 * eb) i (bits q.data.toNat (n * eb % 4096 * 8) (8 * eb)) else v) 0

/-- The queue after a pop (R334, R336). -/
def Stream.pop (q : Stream) (vl : Nat) : Stream :=
  if q.push then
    { q with written := q.written &&& ~~~((BitVec.ofNat 4096 (2 ^ 512 - 1)) <<< (q.frame.toNat * 512))
             frame := q.frame + 1, pos := q.pos + BitVec.ofNat 64 vl }
  else { q with pos := q.pos + BitVec.ofNat 64 vl }

/-- Held writes that a queue can take now are taken, in order (R336). -/
def Stream.takeHeld (q : Stream) : Stream :=
  q.held.foldl (fun q h =>
    if bits q.written.toNat h.off h.bytes.length ≠ 0 then { q with held := q.held ++ [h] }
    else { q with data := putBits q.data h.off h.bytes, written := markBits q.written h.off h.bytes.length })
    { q with held := [] }

/-- Registers written: their contents, at and above VLEN zero (R287), with their dens to be named (R354). -/
def State.setVregs (s : State) (sl : SlotId) (vlen : Nat) (rf : Vector VReg 32) (o : VOpnd) : State :=
  let keep : VReg := BitVec.ofNat 4096 (2 ^ vlen - 1)
  let touched : BitVec 32 := BitVec.ofNat 32 ((2 ^ o.size - 1) * 2 ^ o.reg.toNat)
  s.modSlot sl fun x =>
    { x with vregs := Vector.ofFn fun (i : Fin 32) => if o.covers i.val then rf[i] &&& keep else x.vregs[i]
             naming := x.naming ||| touched, named := x.named &&& ~~~touched }

/-- Run a word's elements with the strips of the streams it reads (R334): all wait until each has its elements. A word
that waits, or traps with ctl.vstart still 0, starts again and has popped nothing (log 15). -/
def withPops (c : VCtx) (srcs : List VOpnd) (k : VCtx → M Unit) : M Unit := do
  let x := (← get).slot c.sl
  let qs := popped x srcs
  if c.vstart ≠ 0 || x.flying || qs.isEmpty then k c
  else
    if qs.any (fun e => (e.2.ready c.vl).isNone) then stall
    match qs.find? (fun e => match e.2.ready c.vl with | some (some _) => true | _ => false) with
    | some e =>
      let i := match e.2.ready c.vl with | some (some i) => i | _ => 0
      trap { cause := .chunkabandon, elem := some (BitVec.ofNat 32 i) }
    | none =>
      modify fun s => qs.foldl (fun s e =>
        let s := s.setVregs c.sl c.vlen ((s.slot c.sl).vregs.set! e.2.reg.toNat (e.2.strip c.vl)) ⟨e.2.reg, 0, 8⟩
        s.modSlot c.sl fun y => { y with streams := y.streams.set! e.1 (e.2.pop c.vl).takeHeld }) s
      match ← attempt (k { c with rf := ((← get).slot c.sl).vregs }) with
      | .ok _ => return ()
      | .error e =>
        if e == .stall || (← get).hart.vstart == 0 then
          modify fun s => s.modSlot c.sl fun y =>
            { y with streams := x.streams, vregs := x.vregs, naming := x.naming, named := x.named }
        throw e

/-! ### Operand kinds (R298) -/

/-- Sign-extended imm5, as w bits (R71). -/
def simm5 (r : Reg) (w : Nat) : Nat := wrap (r.toInt) w
/-- Unsigned imm5 (R71). -/
def uimm5 (r : Reg) : Nat := r.toNat

/-- The floating format of a SEW, with the alternate 16-bit format (R85). -/
def vfmt (sew : Nat) (alt : Bool) : Fl :=
  if sew = 8 then (if alt then .f8e5 else .f8e4)
  else if sew = 16 then (if alt then .bf16 else .f16) else if sew = 32 then .f32 else .f64

/-- A scalar register read as a floating value of a format: an improper box is the canonical NaN (R197, R298). -/
def vbox (f : Fl) (w : Word) : Nat :=
  if f.width = 64 then w.toNat
  else if w.toNat / 2 ^ f.width = 2 ^ (64 - f.width) - 1 then w.toNat % 2 ^ f.width else f.canonNaN

/-- Operand s1 of element i under its kind (R298), w bits wide; `uns` for the operations whose imm5 is unsigned. -/
def VCtx.s1 (c : VCtx) (k : VKind) (r : Reg) (w : Nat) (uns : Bool) (f : Fl) (i : Nat) : Nat :=
  match k with
  | .vv => c.elem r w i
  | .vx => c.xs.toNat % 2 ^ w
  | .vi => if uns then uimm5 r else simm5 r w
  | .vf => vbox f c.xs

end Sys2Proof.Machine
end

