-- ==== Sys2Proof/Machine/Registers.lean ====
section
/-! DEFINITION. The registers of the part as they read (R10, R11): those of a block slot (R150), of a cluster window (R143,
R267), of the device window (R131, R434, R461, R463, R474, R485, R488, R507), and the windows as agents read them (R26). -/
namespace Sys2Proof.Machine

def State.queue (s : State) (q : QId) : Queue := Tbl.get {} s.disp.queues q.toNat
def State.modQueue (s : State) (q : QId) (f : Queue → Queue) : State :=
  { s with disp := { s.disp with queues := Tbl.set s.disp.queues q.toNat (f (s.queue q)) } }

def State.settleReg (s : State) (d : Nat) : Settle := Tbl.get {} s.settle d
def State.modSettle (s : State) (d : Nat) (f : Settle → Settle) : State :=
  { s with settle := Tbl.set s.settle d (f (s.settleReg d)) }

/-- ACCTL or HACCTL as it reads. -/
def Counters.ctl (c : Counters) : Word :=
  BitVec.ofNat 64 ((if c.en then 1 else 0) + (if c.dev then 2 else 0) + (if c.host then 4 else 0) + c.sample.toNat * 16)

/-- ACDUMP or HACDUMP as it reads. -/
def Counters.dumpReg (c : Counters) : Word := BitVec.ofNat 64 ((if c.busy then 2 else 0) + c.buffer.toNat * 4096)

/-- SBSTAT. -/
def BaseDie.stat (x : BaseDie) : Word :=
  BitVec.ofNat 64 (x.decoded.toNat + x.errors.toNat * 2 ^ 32 + x.reason.toNat * 2 ^ 48)

/-- A register of a base die's block. -/
def BaseDie.reg (x : BaseDie) (off : Nat) : Word :=
  if off = 0 then x.stat else if off = 8 then BitVec.ofNat 64 (x.errPA * 512)
  else if off = 0x10 then x.ac.ctl else if off = 0x18 then x.ac.dumpReg else 0

/-- SETTLE as it reads. -/
def Settle.reg (x : Settle) : Word :=
  BitVec.ofNat 64 ((if x.range.isSome then 2 else 0) + x.base.toNat * 4096 + x.pages.toNat * 2 ^ 52)

/-- PCTL.run: a cleared run takes effect when no command is outstanding (R267). -/
def Porter.running (p : Porter) : Bool := p.run && !(p.stopping && p.cmds.isEmpty)

/-- PCTL as it reads. -/
def Porter.pctl (p : Porter) : Word :=
  BitVec.ofNat 64 ((if p.running then 1 else 0) + (if p.custom then 2 else 0) + p.ctx.toNat * 2 ^ 16 + p.image.toNat * 2 ^ 32)

/-- PSTAT as it reads. -/
def Porter.pstat (p : Porter) : Word :=
  BitVec.ofNat 64 (p.cmds.length + (p.cmds.filter (·.started)).length * 256 + (if p.halted then 65536 else 0))

/-- Word i of a descriptor. -/
def DrvQ.word (q : DrvQ) (i : Nat) : Word := BitVec.ofNat 64 (bits q.desc.toNat (64 * i) 64)

def State.drvQ (s : State) : DriverQ → DrvQ
  | .fault => s.drv.fault
  | .replay => s.drv.replay
  | .inval => s.drv.inval

/-- Which driver queue's descriptor stands at an offset of port 0's block (R487). -/
def drvAt (off : Nat) : DriverQ := if off < 0x40 then .fault else if off < 0x80 then .replay else .inval

/-- Trace record i: the newest acknowledgement overwrote the oldest record. -/
def Health.traceAt (h : Health) (i : Nat) : BitVec 256 :=
  if h.traceCount = 0 then 0 else h.trace.getD ((h.traceCount - 1 + 1024 - i) % 1024) 0

/-- A health register by its offset from 0x6_0000. -/
def Health.reg (h : Health) (off : Nat) : Word :=
  if off < 0x40 then h.log.word (off / 8)
  else if off = 0x40 then BitVec.ofNat 64 ((if h.jValid then 1 else 0) + h.jBase.toNat * 2 ^ 23)
  else if off = 0x48 then (if h.busy then 2 else 0)
  else if off = 0x50 then BitVec.ofNat 64 (h.boot.toNat + h.bootFail.toNat * 4 + h.version.toNat * 256)
  else if off = 0x58 then BitVec.ofNat 64 (h.cap.toNat + h.now.toNat * 2 ^ 32)
  else if off = 0x60 then
    BitVec.ofNat 64 (h.junction.toNat + h.inlet.toNat * 256 + (if h.slow then 65536 else 0) + (if h.tooHot then 131072 else 0))
  else if off = 0x70 then
    BitVec.ofNat 64 ((if h.traceOn then 1 else 0) + h.traceSlice.toNat * 2 + (if h.traceDie then 256 else 0))
  else if 0x1000 ≤ off ∧ off < 0x9000 then
    BitVec.ofNat 64 (bits (h.traceAt ((off - 0x1000) / 32)).toNat (8 * (off % 32)) 64)
  else 0

/-- HWIN as it reads. -/
def Port.hwin (x : Port) : Word := BitVec.ofNat 64 ((if x.hwinEnable then 1 else 0) + x.hwinLimit.toNat * 4096)

/-- A 64-bit register of the device window by its offset; reserved ones read 0 (R11). Descriptors of launch queues are
bytes of memory and are not read here. -/
def State.devReg (s : State) (off : Nat) : Word :=
  if 0x11000 ≤ off ∧ off < 0x11040 then
    BitVec.ofNat 64 (natOfBytes ((List.range 8).map fun i => (s.queue (BitVec.ofNat 6 (off - 0x11000 + i))).status))
  else if off = 0x20000 then BitVec.ofNat 64 ((if s.ctxEnable then 1 else 0) + s.ctxBase.toNat * 4096)
  else if 0x30000 ≤ off ∧ off < 0x30A00 then (s.base ((off - 0x30000) / 256)).reg (off % 256)
  else if off = 0x30A00 then (s.settleReg 0).reg
  else if off = 0x30A08 then (s.settleReg 1).reg
  else if 0x40000 ≤ off ∧ off < 0x40400 then s.ferry.reg s.clock (off - 0x40000)
  else if 0x50000 ≤ off ∧ off < 0x52000 then
    let p := (off - 0x50000) / 0x1000
    let o := off % 0x1000
    if o < 0xC0 then (if p = 0 then (s.drvQ (drvAt o)).word (o % 64 / 8) else 0)
    else if o = 0xC0 then (s.port p).hwin
    else if o = 0x100 then (s.port p).hac.ctl
    else if o = 0x108 then (s.port p).hac.dumpReg
    else 0
  else if 0x60000 ≤ off ∧ off < 0x69000 then s.health.reg (off - 0x60000)
  else 0

/-! ### Windows as a whole -/

/-- What 8 aligned bytes of an on-chip window are: plain bytes, a register, or an address that faults. -/
inductive IoWord where
  | plain
  | reg (v : Word)
  | fault (c : Cause)
  deriving DecidableEq, Repr

/-- A block-slot control register (R150). -/
def State.slotReg (s : State) (sl : SlotId) (off : Nat) : Word :=
  let x := s.slot sl
  let run : Nat := match x.run with | .empty => 0 | .running => 1 | .asleep => 2 | .parked => 3 | .evicting => 4
  if off = 0 then BitVec.ofNat 64 (run + (if x.resumed then 8 else 0) + x.cause.toNat * 256)
  else if x.run = .empty then 0
  else if off = 8 then x.recVA
  else if off = 0x10 then x.wid
  else if off = 0x18 then BitVec.ofNat 64 (s.grant sl)
  else if off = 0x20 then (x.park.map (·.token)).getD 0
  else 0

/-- The 8 aligned bytes at a physical address of an on-chip window (R26, R143, R267). -/
def State.ioWord (s : State) (pa : Nat) : IoWord :=
  match regionOf pa with
  | .core c off => match winPart off with
    | .scratch _ | .acc _ => .plain
    | .stream _ _ _ => .fault .access
    | .ctl n o => .reg (s.slotReg (slotOf c n) o)
  | .cluster k off =>
    if off < 0x3F800 then .plain
    else if off < 0x40000 then .reg 0
    else if off < 0x48000 then .plain
    else if off = 0x48000 then .reg (s.cluster k).head
    else if off = 0x48008 then .reg (s.cluster k).tail
    else if off = 0x48010 then .reg (BitVec.ofNat 64 (s.cluster k).count)
    else if off < 0x80000 then .fault .access
    else if off < 0x98000 then .plain
    else if off = 0x98000 then .reg (s.cluster k).porter.pctl
    else if off = 0x98008 then .reg (s.cluster k).porter.pstat
    else if off = 0x98010 then .reg ((s.cluster k).porter.fwops.zeroExtend 64)
    else .fault .access
  | .device off => if 0x10000 ≤ off ∧ off < 0x11000 then .plain else .reg (s.devReg off)
  | _ => .fault .access

/-- Cut [pa, pa + n) at 8-byte boundaries. -/
def cutWords : Nat → Nat → Nat → List (Nat × Nat)
  | 0, _, _ => []
  | f + 1, pa, n =>
    if n = 0 then []
    else
      let k := Nat.min n (8 - pa % 8)
      (pa, k) :: cutWords f (pa + k) (n - k)

/-- The fault that an access of a range of an on-chip window meets. -/
def State.ioFault (s : State) (ws : List (Nat × Nat)) : Option Cause :=
  ws.findSome? fun w => match s.ioWord (w.1 / 8 * 8) with | .fault c => some c | _ => none

/-- Read bytes of an on-chip window. -/
def State.ioRead (s : State) (pa n : Nat) : Except Cause (List Byte) :=
  let ws := cutWords 5 pa n
  match s.ioFault ws with
  | some c => .error c
  | none => .ok (ws.flatMap fun w =>
      match s.ioWord (w.1 / 8 * 8) with
      | .reg v => ((bytesOfNat 8 v.toNat).drop (w.1 % 8)).take w.2
      | _ => Memory.bytes s.mem w.1 w.2)

/-- A write of a Porter or the Dispatcher to a window that holds registers (R28): it is performed as the step ends. -/
def State.regWrite (s : State) (src : Source) (pa : Nat) (bs : List Byte) : State :=
  { s with regWrites := s.regWrites ++ [(src, pa, bs)] }

/-- The windows that hold registers. -/
def isIo (pa : Nat) : Bool :=
  match regionOf pa with
  | .cluster _ _ | .device _ => true
  | .core _ off => match winPart off with | .ctl _ _ => true | _ => false
  | _ => false

end Sys2Proof.Machine
end

