-- ==== Sys2Proof/Machine/Sett.lean ====
section
/-! DEFINITION. The Sett: names of dens, lookups, entries, pressure (R354 - R374). -/
namespace Sys2Proof.Machine

/-- Contents of the registers of a slot whose den carries a name, those behind a call's frame included, and of the frame
registers that a TMAP or TRED keeps between its calls (R346, R357). -/
def Slot.namedVals (x : Slot) : List VReg :=
  let pick (v : Vector VReg 32) (m : BitVec 32) : List VReg :=
    ((List.range 32).filter fun i => m.getLsbD i).map fun i => v[i]!
  pick x.vregs x.named ++ (match x.call with | some c => pick c.savedV c.savedNamed | none => []) ++ x.carry

/-- Registers of a slot whose den carries no name. -/
def Slot.unnamedCount (x : Slot) : Nat :=
  let n := if x.call.isSome then 8 else x.lrec.nvreg.toNat
  let out (m : BitVec 32) (n : Nat) : Nat := ((List.range n).filter fun i => !m.getLsbD i).length
  out x.named n + (match x.call with | some c => out c.savedNamed x.lrec.nvreg.toNat | none => 0)

/-- The slots of a core that hold blocks. -/
def State.liveSlots (s : State) (c : Nat) : List Slot :=
  ((List.range 4).map fun n => s.slot (slotOf c n)).filter fun x => x.run != .empty

/-- Reference count of a named den (R357): registers that map to it, and table entries that name it. -/
def State.denRefs (s : State) (c : Nat) (ctx : BitVec 16) (v : VReg) : Nat :=
  ((s.liveSlots c).map fun x => if x.ctx == ctx then (x.namedVals.filter (· == v)).length else 0).sum
    + ((s.core c).sett.filter fun e => e.key.ctx == ctx && (e.result == v || e.key.srcs.contains (some v))).length

/-- Dens whose count is 0 are freed with their names (R357), beside those that the issued instruction of a context reads. -/
def State.sweepBut (s : State) (c : Nat) (ctx : BitVec 16) (reads : List VReg) : State :=
  let kept (d : Den) : Bool := s.denRefs c d.ctx d.val != 0 || (d.ctx == ctx && reads.contains d.val)
  s.modCore c fun x => { x with dens := x.dens.filter kept }

/-- Dens whose count is 0 are freed with their names (R357). -/
def State.sweepDens (s : State) (c : Nat) : State := s.sweepBut c 0 []

/-- Frame registers that a TMAP or TRED keeps between its calls in dens that carry no name. -/
def State.carriedUnnamed (s : State) (c : Nat) (x : Slot) : Nat :=
  (x.carry.filter fun v => !(s.core c).dens.any fun d => d.ctx == x.ctx && d.val == v).length

/-- Free dens of a core's 512 (R359); a den held only by entries is not free. -/
def State.freeDens (s : State) (c : Nat) : Nat :=
  512 - ((s.core c).dens.length + ((s.liveSlots c).map fun x => x.unnamedCount + s.carriedUnnamed c x).sum)

/-- Least recently used entries go until 16 dens are free (R359). -/
def State.pressure (s : State) (c : Nat) : Nat → State
  | 0 => s
  | f + 1 =>
    let s := s.sweepDens c
    if 16 ≤ s.freeDens c then s
    else (s.modCore c fun x => { x with sett := x.sett.dropLast }).pressure c f

/-- What a write-back on a core leaves: at least 16 dens free, or no entry (R359). The registers of all slots and frames of
a core need fewer than 512 dens, so that one is always free then. -/
def State.relieve (s : State) (c : Nat) : State := s.pressure c ((s.core c).sett.length + 1)

/-- Name the den of a register that was written (R355): merged with an equal den of its context, or given the lowest
index free among the dens of its hash, or left unnamed. `reads`: dens that the instruction which wrote it reads (R357). -/
def State.nameWith (s : State) (sl : SlotId) (r : Reg) (reads : List VReg) : State :=
  let x := s.slot sl
  if !x.naming.getLsbD r.toNat then s
  else
    let c := slotCore sl
    let v := x.vregs[r.toFin]
    let b : BitVec 32 := 1#32 <<< r.toNat
    let clear (s : State) : State := s.modSlot sl fun y => { y with naming := y.naming &&& ~~~b }
    let give (s : State) : State :=
      s.modSlot sl fun y => { y with naming := y.naming &&& ~~~b, named := y.named ||| b }
    let s := s.sweepBut c x.ctx reads
    let near := (s.core c).dens.filter fun d => d.ctx == x.ctx
    if near.any (fun d => d.val == v) then
      (if s.denRefs c x.ctx v + (reads.filter (· == v)).length < 1023 then give s else clear s)
    else
      let same := near.filter fun d => Config.denHash d.val.toNat == Config.denHash v.toNat
      if near.length < 4 ∨ same.length < 4 then
        let i := ((List.range 4).find? fun i => !same.any (fun d => d.index == i)).getD 0
        give (s.modCore c fun y => { y with dens := ⟨x.ctx, v, i⟩ :: y.dens })
      else clear s

def State.nameReg (s : State) (sl : SlotId) (r : Reg) : State := s.nameWith sl r []

def State.nameRegs (s : State) (sl : SlotId) (rs : List Reg) : State := rs.foldl (fun s r => s.nameReg sl r) s

/-- The registers' names are final and none is missing (R356). -/
def State.allNamed (s : State) (sl : SlotId) (rs : List Reg) : Bool :=
  rs.all fun r => (s.slot sl).named.getLsbD r.toNat

/-- A key as one number, for the choice of its set (R360). -/
def SettKey.code (k : SettKey) : Nat :=
  let src := k.srcs.foldl (fun n v => n * 2 ^ 4097 + (match v with | some v => 1 + v.toNat | none => 0)) 0
  let sc := k.scalars.foldl (fun n v => n * 2 ^ 64 + v.toNat) src
  ((((sc * 32 + k.vxrm * 8 + k.frm) * 8192 + k.vl) * 32 + k.lanes) * 64 + k.vtype.toNat) * 2 ^ 48
    + k.word.toNat * 2 ^ 16 + k.ctx.toNat

/-- A lookup (R364, R365): the entry found becomes the most recently used; one whose result's count is full is a
miss (R358). -/
def State.settFind (s : State) (c : Nat) (kind : BitVec 2) (k : SettKey) : Option SettEntry :=
  match (s.core c).sett.find? (fun e => e.kind == kind && e.key == k) with
  | some e => if s.denRefs c k.ctx e.result < 1023 then some e else none
  | none => none

/-- The strips that a slot has borrowed end with its instruction (R293, R294). -/
def State.endStrips (s : State) (sl : SlotId) : State :=
  if (s.core (slotCore sl)).lanes.any fun e => e.borrower == some (BitVec.ofNat 2 (slotNum sl)) then
    s.modCore (slotCore sl) fun c =>
      { c with lanes := c.lanes.map fun e =>
          if e.borrower == some (BitVec.ofNat 2 (slotNum sl)) then { e with borrower := none, strip := false } else e }
  else s

/-- A hit: the destination maps to the result, flags accrue, the counter counts (R365); it borrows nothing (R373). -/
def State.settHit (s : State) (sl : SlotId) (vd : Reg) (e : SettEntry) : State :=
  let c := slotCore sl
  let b : BitVec 32 := 1#32 <<< vd.toNat
  let s := (s.endStrips sl).modCore c fun x => { x with sett := e :: x.sett.filter (· != e) }
  let s := s.modSlot sl fun x =>
    { x with vregs := x.vregs.set vd.toFin e.result, naming := x.naming &&& ~~~b, named := x.named ||| b }
  s.modHart fun h =>
    { h with fcsr := h.fcsr ||| BitVec.ofNat 17 (e.flags.toNat % 32 + e.flags.toNat / 32 * 2048)
             setthit := h.setthit + 1, vstart := 0 }

/-- A lookup that missed is counted (R364, R372). -/
def State.countMiss (s : State) : State := s.modHart fun h => { h with settmiss := h.settmiss + 1 }

/-- A new entry (R358, R360, R364), made when the result den is named and no count is full. -/
def State.settInstall (s : State) (sl : SlotId) (vd : Reg) (kind : BitVec 2) (k : SettKey) (first last flags : Nat) :
    State :=
  let c := slotCore sl
  let s := s.nameWith sl vd (k.srcs.filterMap id)
  let v := (s.slot sl).vregs[vd.toFin]
  let names := v :: k.srcs.filterMap id
  if !s.allNamed sl [vd] || (s.settFind c kind k).isSome || names.any (fun v => 1023 ≤ s.denRefs c k.ctx v) then s
  else
    let e : SettEntry :=
      { kind := kind, key := k, first := first, last := last, slot := BitVec.ofNat 2 (slotNum sl)
        stamp := (s.core c).stamp[slotNum sl]!, result := v, flags := BitVec.ofNat 6 flags }
    let es := (s.core c).sett
    let same (x : SettEntry) : Bool := Config.settSet x.key.code % 128 == Config.settSet k.code % 128
    let es := if es.length < 8 then es
      else if (es.filter same).length < 8 then es
      else match (es.filter same).getLast? with
        | some v => es.filter (· != v)
        | none => es
    (s.modCore c fun x => { x with sett := e :: es }).relieve c

/-- Drop entries of a context in a core's table (R370, R371). -/
def State.settDrop (s : State) (c : Nat) (ctx : BitVec 16) (loadsOnly : Bool) : State :=
  s.modCore c fun x => { x with sett := x.sett.filter fun e => e.key.ctx != ctx || (loadsOnly && e.kind == 0) }

end Sys2Proof.Machine
end

