-- ==== Sys2Proof/Machine/Lanes.lean ====
section
/-! DEFINITION. What every vector instruction of the lane engine shares: activity, checks, pops, the Sett, the element
frame, floating traps (R95, R96, R98, R119, R299, R364). -/
namespace Sys2Proof.Machine

/-- The fields of a V-form word (R69, R85). -/
structure VInst where
  major : Nat
  f6 : Nat
  kind : VKind := .vv
  sub : Nat := 0
  vm : Bool := true
  vd : Reg := 0
  s1 : Reg := 0
  vs2 : Reg := 0
  deriving DecidableEq, Repr

/-- The word with its register-number fields 0 (R361); imm5 stays, and so does a field that holds a code. -/
def VInst.keyWord (v : VInst) (codeInS1 : Bool) : BitVec 32 :=
  BitVec.ofNat 32 (v.major * 2 ^ 26 + (if v.vm then 2 ^ 10 else 0) + v.f6 * 16 + v.kind.code * 4 + v.sub
    + (if v.kind == .vi || codeInS1 then v.s1.toNat * 2 ^ 16 else 0))

/-- A vector instruction retires: ctl.vstart is 0 (R289). -/
def State.endVector (s : State) : State := s.modHart fun h => { h with vstart := 0 }

/-- The scalar register that a form reads: rs1 under vx or vf. -/
def VInst.scalar (v : VInst) : Reg := if v.kind == .vx || v.kind == .vf then v.s1 else 0

/-- A lane group of a slot is lent: what the slot issues to its groups waits until the strip has left (R293, R294). -/
def State.ownLent (s : State) (sl : SlotId) : Bool :=
  (s.core (slotCore sl)).lanes.any fun e => e.owner == some (BitVec.ofNat 2 (slotNum sl)) && e.borrower.isSome

/-- What every vector word does around its elements (R95, R96, R98, R293, R334): with no active element it retires as a
no-operation; else its checks, its wait for a strip on a group of its own, its pops, and `k` with the active elements. -/
def vecWith (vm : Bool) (rs : Reg) (active : VCtx → List Nat) (bad : VCtx → Bool) (dst : VCtx → Option VOpnd)
    (srcs : VCtx → List VOpnd) (idle : State → State) (k : VCtx → List Nat → M Unit) : M Unit := do
  let sl ← vecGate
  let s ← get
  let c := s.vctx sl vm rs
  let act := active c
  if act.isEmpty then set (idle s.endVector)
  else
    if bad c then illegal
    if !groupsOk s.nvreg vm (dst c) (srcs c) || !streamsOk (s.slot sl) (dst c) (srcs c) then illreg
    if s.ownLent sl then stall
    withPops c (srcs c) fun c => k c act

/-- One element's result: index in the destination, value, flags (bit 5: vxsat). -/
abbrev VElem := Nat × Nat × Nat

/-- Elements in order up to the first that raises an enabled flag (R119): those written, the flags accrued, and the
element that traps with its flags. -/
def cutElems (fte : Nat) : List VElem → List VElem × Nat × Option (Nat × Nat)
  | [] => ([], 0, none)
  | e :: rest =>
    if e.2.2 &&& fte ≠ 0 then ([], e.2.2, some (e.1, e.2.2))
    else
      let r := cutElems fte rest
      (e :: r.1, e.2.2 ||| r.2.1, r.2.2)

/-- OR flags and vxsat into ctl.fcsr (R109, R118). -/
def State.accrueV (s : State) (fl : Nat) : State :=
  s.modHart fun h => { h with fcsr := h.fcsr ||| BitVec.ofNat 17 (fl % 32 + fl / 32 % 2 * 2048) }

/-- Write elements of a destination (R288, R299). -/
def State.putElems (s : State) (c : VCtx) (d : VOpnd) (es : List VElem) : State :=
  let w := if d.eew = 0 then 1 else d.eew
  let rf := es.foldl (fun rf e => putElem rf c.vlen d.reg w e.1 e.2.1) c.rf
  s.setVregs c.sl c.vlen rf d

/-- ctl.tcoord with an element index (R104). -/
def tcoordElem (i : Nat) : Word := BitVec.ofNat 64 (i % 2 ^ 24 * 2 ^ 40)

/-- FPTRAP at element i (R119, R233). -/
def fpTrapAt {α : Type} (i fl : Nat) : M α :=
  trap { cause := .fptrap, tval := BitVec.ofNat 64 (fl % 32), tcoord := tcoordElem i, elem := some (BitVec.ofNat 32 i) }

/-- An element-wise instruction's effect from its elements (R119, R299). -/
def putElemwise (c : VCtx) (d : VOpnd) (trapAt : Nat → Nat) (es : List VElem) : M Nat := do
  let r := cutElems (fcsrFte (← get).hart.fcsr) es
  modify fun s => (s.putElems c d r.1).accrueV r.2.1
  match r.2.2 with
  | some (i, fl) =>
    modify fun s => s.modHart fun h => { h with vstart := BitVec.ofNat 12 (trapAt i) }
    fpTrapAt (trapAt i) fl
  | none =>
    modify State.endVector
    return r.2.1

/-- A reduction's effect: a trap writes no destination and leaves ctl.vstart at 0 (R119). -/
def putReduction (c : VCtx) (d : VOpnd) (es : List VElem) : M Nat := do
  let fl := es.foldl (fun f e => f ||| e.2.2) 0
  modify fun s => s.accrueV fl
  if fl &&& fcsrFte (← get).hart.fcsr ≠ 0 then
    modify State.endVector
    fpTrapAt 0 fl
  modify fun s => (s.putElems c d es).endVector
  return fl

/-- How an instruction of majors 0x1D - 0x21 that writes a vector register works. -/
structure VSpec where
  active : VCtx → List Nat := VCtx.active
  /-- A combination that a row excludes (R94, R300). -/
  bad : VCtx → Bool := fun _ => false
  dst : VCtx → VOpnd
  srcs : VCtx → List VOpnd
  /-- Vector registers whose names are key sources (R361), vd and v0 apart. -/
  keySrcs : List Reg
  /-- The old destination is a key source whatever vl and vm are (R361). -/
  keep : Bool := false
  /-- Floating: enters the Sett under fte = 0 only (R362). -/
  fp : Bool := false
  /-- All of it traps together (R119). -/
  reduction : Bool := false
  /-- May enter the Sett (R363). -/
  reuse : Bool := true
  /-- [20:16] holds a conversion code. -/
  codeInS1 : Bool := false
  /-- The element index that a trap at a destination element reports and restarts from. -/
  trapAt : VCtx → Nat → Nat := fun _ i => i
  elems : VCtx → List Nat → List VElem

/-- The third key source (R361): the old destination, where some of its bits stay. -/
def VSpec.third (sp : VSpec) (v : VInst) (c : VCtx) : Bool :=
  sp.keep || (sp.dst c).eew == 0 || !v.vm || decide (c.vl < c.vlmax)

/-- The key of an instruction (R361). -/
def VSpec.key (sp : VSpec) (v : VInst) (c : VCtx) (s : State) : SettKey :=
  { ctx := (s.slot c.sl).ctx, word := v.keyWord sp.codeInS1, vtype := s.hart.vtype, lanes := c.grant, vl := c.vl
    frm := c.frm, vxrm := c.vxrm
    srcs := sp.keySrcs.map (fun r => some (c.reg r.toNat))
      ++ [if sp.third v c then some (c.reg v.vd.toNat) else none, if v.vm then none else some (c.reg 0)]
    scalars := if v.scalar = 0 && v.kind != .vx && v.kind != .vf then [] else [c.xs] }

/-- Registers whose names the key takes. -/
def VSpec.keyRegs (sp : VSpec) (v : VInst) (c : VCtx) : List Reg :=
  sp.keySrcs ++ (if sp.third v c then [v.vd] else []) ++ (if v.vm then [] else [0])

/-- Whether the instruction makes a lookup, its names apart (R362, R363); a part of one that an eviction stops makes none of its
own (R364). -/
def VSpec.looksUp (sp : VSpec) (c : VCtx) (s : State) : Bool :=
  sp.reuse && c.vstart == 0 && (sp.dst c).emul8 == 8 && (sp.srcs c).all (fun o => o.emul8 == 8)
    && s.hart.sett.getLsbD 0 && (!sp.fp || fcsrFte s.hart.fcsr == 0)
    && (popped (s.slot c.sl) (sp.srcs c)).isEmpty && (s.slot c.sl).cut.isNone

/-- Execute the elements and write them: the flags raised. -/
def VSpec.perform (sp : VSpec) (c : VCtx) (act : List Nat) : M Nat :=
  if sp.reduction then putReduction c (sp.dst c) (sp.elems c act) else putElemwise c (sp.dst c) (sp.trapAt c) (sp.elems c act)

/-- A vector instruction after its checks: a Sett hit, or its execution and a new entry (R364, R365). -/
def VSpec.issue (sp : VSpec) (v : VInst) (c : VCtx) (act : List Nat) : M Unit := do
  if !sp.looksUp c (← get) then
    let _ ← sp.perform c act
  else
    modify fun s => s.nameRegs c.sl (sp.keyRegs v c)
    let s ← get
    if !s.allNamed c.sl (sp.keyRegs v c) then
      let _ ← sp.perform c act
    else
      let k := sp.key v c s
      match s.settFind (slotCore c.sl) 0 k with
      | some e => set (s.settHit c.sl v.vd e)
      | none =>
        set s.countMiss
        let fl ← sp.perform c act
        modify fun s => s.settInstall c.sl v.vd 0 k 0 0 fl

/-- A whole instruction (R95, R96, R98, R299). -/
def VSpec.run (sp : VSpec) (v : VInst) : State → Host.Outcome State Fault Refusal :=
  runInstr 4 (vecWith v.vm v.scalar sp.active sp.bad (fun c => some (sp.dst c)) sp.srcs id (sp.issue v))

end Sys2Proof.Machine
end

