-- ==== Sys2Proof/Machine/Matrix.lean ====
section
/-! DEFINITION. The matrix engine: accumulators (R375), steps (R381), lane-level instructions (R376 - R386, R396, R400). -/
namespace Sys2Proof.Machine

/-! ### Steps of the array (R116, R125, R127, R381) -/

/-- The floating format of a type code; none for the integer types and lg6. -/
def tyFl : Ty → Option Fl
  | .f16 => some .f16 | .bf16 => some .bf16 | .f32 => some .f32 | .f64 => some .f64
  | .f8e4 => some .f8e4 | .f8e5 => some .f8e5 | _ => none

/-- Types the array takes (R378). -/
def matTy (t : Ty) : Bool :=
  match t with | .f16 | .bf16 | .f32 | .f8e4 | .f8e5 | .lg6 => true | _ => false

/-- Element width in a vector register (R309, R380). -/
def matEew (t : Ty) : Nat :=
  match t with | .f32 => 32 | .f16 | .bf16 => 16 | _ => 8

/-- K packing (R380). -/
def kPack (t : Ty) : Nat := match t with | .f8e4 | .f8e5 => 2 | .lg6 => 4 | _ => 1

def is8 (t : Ty) : Bool := t == .f8e4 || t == .f8e5

/-- K indices that one step takes together (R127, R390): pairs of 8-bit floats, groups of 32 for lg6. -/
def kStep (a b : Ty) : Nat := if is8 a && is8 b then 2 else if a == .lg6 && b == .lg6 then 32 else 1

/-- One exact product (R125, R381); bf16 sources read under R114. -/
def matProd (ta tb : Ty) (a b : Nat) : Fv :=
  match tyFl ta, tyFl tb with
  | some fa, some fb => (mulV (fa.decode a) (fb.decode b)).1
  | _, _ =>
    match lgProduct a b with
    | none => .nan false
    | some t => .num (decide (t < 0)) t.natAbs (-20)

/-- An E8M0 scale applied exactly (R116). -/
def Fv.scale (v : Fv) (e : Nat) : Fv :=
  if e = 255 then .nan false
  else match v with
    | .num n m x => .num n m (x + (e : Int) - 127)
    | v => v

/-- One step: acc and the exact sum of its products, rounded once to f32 by RNE; an lg6 group sum is rounded first
(R127, R381). -/
def accStep (lg : Bool) (acc : Nat) : List Fv → Nat
  | [] => acc
  | p :: rest =>
    let t := rest.foldl (fun a b => (addV .rne a b).1) p
    let t := if lg then Fl.f32.decode (Fl.f32.deliver .rne t).1 else t
    (Fl.f32.finish .rne (addV .rne (Fl.f32.decode acc) t)).1

/-- Products in ascending K, those of one step together. -/
def stepGroups (q : Nat) : List (Nat × Fv) → List (Nat × List Fv)
  | [] => []
  | (k, p) :: rest =>
    match stepGroups q rest with
    | [] => [(k / q, [p])]
    | (g, l) :: r => if g = k / q then (g, p :: l) :: r else (k / q, [p]) :: (g, l) :: r

/-- The steps over products in ascending K (R127). -/
def accSteps (ta tb : Ty) (acc : Nat) (ps : List (Nat × Fv)) : Nat :=
  (stepGroups (kStep ta tb) ps).foldl (fun a g => accStep (ta == .lg6 && tb == .lg6) a g.2) acc

/-! ### Accumulators (R27, R375) -/

/-- The n-th lowest set bit of an accumulator mask. -/
def nthAcc (mask : BitVec 4) (n : Nat) : Option Nat := ((List.range 4).filter fun i => mask.getLsbD i)[n]?

/-- Accumulators of a block. -/
def Slot.accCount (x : Slot) : Nat := ((List.range 4).filter fun i => x.accMask.getLsbD i).length

/-- PA of element (row, col) of architectural accumulator n of a slot (R27, R375). -/
def State.accAddr (s : State) (sl : SlotId) (n : Acc) (row col : Nat) : Nat :=
  accPA (slotCore sl) ((nthAcc (s.slot sl).accMask n.toNat).getD 0) row col

def State.accGet (s : State) (sl : SlotId) (n : Acc) (row col : Nat) : Nat :=
  Memory.nat s.mem (s.accAddr sl n row col) 4

/-- Notices to the watchers of accumulator granules in which some of the addresses lie (R414). A micro-operation's write is no
access of the window port, so that no order counter rises (R406, log 86). -/
def State.accTold (s : State) (at_ : List Nat) : State :=
  let ws := s.watches.filter fun w => !w.polls && at_.any fun a => a / 32 == w.gran
  { s with notices := s.notices ++ ws.map fun w => Notice.mk w.who (w.gran * 32) }

/-- Elements of an accumulator written: row, column, value. -/
def State.accPut (s : State) (sl : SlotId) (n : Acc) (es : List (Nat × Nat × Nat)) : State :=
  (s.accTold (es.map fun e => s.accAddr sl n e.1 e.2.1)).setMem (es.foldl (fun m e => Memory.putAll m (s.accAddr sl n e.1 e.2.1) (bytesOfNat 4 e.2.2)) s.mem)

/-- Bytes [a, a + n) made 0. -/
def Memory.clear (m : Memory) (a n : Nat) : Memory := m.filter fun c => !(decide (a ≤ c.1) && decide (c.1 < a + n))

/-- An accumulator made +0 in every element (R375, R382). -/
def State.accZero (s : State) (sl : SlotId) (n : Acc) : State :=
  (s.notifyRange (s.accAddr sl n 0 0) 65536).setMem (Memory.clear s.mem (s.accAddr sl n 0 0) 65536)

/-- A write of ctl.mvl resets the held state (R376). -/
def State.setMvl (s : State) (n : Nat) : State :=
  let s := s.modHart fun h => { h with mvl := BitVec.ofNat 8 n }
  match s.curSlot with
  | some sl => s.modSlot sl fun x => { x with mat := {} }
  | none => s

/-- MSETMVL (R297). -/
def execMsetmvl (rd rs1 : Reg) : State → Host.Outcome State Fault Refusal :=
  runInstr 4 (do
    let _ ← vecGate
    let s ← get
    let n := Nat.min (s.getX rs1).toNat 128
    set ((s.setMvl n).endVector.setX rd (BitVec.ofNat 64 n)))

/-! ### What lane-level matrix words share (R95, R379, R380) -/

/-- A group of `n` elements of `eew` bits: the least EMUL that holds them (R380); EMUL 0 where none does. -/
def matGroup (c : VCtx) (r : Reg) (eew n : Nat) : VOpnd :=
  ⟨r, eew, (([8, 16, 32, 64].find? fun e => decide (n * eew ≤ e / 8 * c.vlen)).getD 0)⟩

/-- The matrix state of a slot. -/
def State.mat (s : State) (sl : SlotId) : MatState := (s.slot sl).mat
def State.modMat (s : State) (sl : SlotId) (f : MatState → MatState) : State :=
  s.modSlot sl fun x => { x with mat := f x.mat }

/-- A tile matrix instruction of the slot is unfinished on an accumulator (R377). -/
def Slot.accBusy (x : Slot) (n : Acc) : Bool :=
  x.work.any fun t => match t.op with | .mma _ _ _ ac _ => ac == n | _ => false

/-- A TMMV of the slot is unfinished (R391). -/
def Slot.tmmvBusy (x : Slot) : Bool :=
  x.work.any fun t => match t.op with | .mma kind _ _ _ _ => kind == 2 | _ => false

/-- The flight-list entry under way, where its start is above 0 (R400). -/
def Slot.resumed? (x : Slot) : Option Flight :=
  if x.flying then match x.flight with | e :: _ => if e.start = 0 then none else some e | [] => none else none

/-- The end of what a matrix word runs of its n rows or columns (R349, R396). -/
def Slot.upTo (x : Slot) (n : Nat) : Nat := Nat.min n (x.cut.getD n)

/-- What a lane-level matrix word does around its effect: no active index, a no-operation (R95); ILLEGAL (R379); ILLREG
(R375, R380); waits (R377). `k` gets the context, with vl the matrix vector length, and the active indices, those before the
one at which an eviction stops it (R396). -/
def matWith (vm : Bool) (rs : Reg) (ac : Option Acc) (bad : VCtx → Bool) (dst : VCtx → Option VOpnd)
    (srcs : VCtx → List VOpnd) (wait : Slot → Bool) (k : VCtx → List Nat → M Unit) : M Unit := do
  let sl ← vecGate
  let s ← get
  let x := s.slot sl
  let c := s.vctx sl vm rs
  let c := { c with vl := s.hart.mvl.toNat, vstart := if x.flying then c.vstart else 0 }
  let act := c.active
  if act.isEmpty then set s.endVector
  else
    if bad c then illegal
    let named := srcs c ++ (dst c).toList
    if (match ac with | some n => decide (x.accCount ≤ n.toNat) | none => false)
      || !groupsOk s.nvreg vm (dst c) (srcs c) || named.any (fun o => x.streamsHere.any fun e => o.covers e.2.reg.toNat) then
      illreg
    if wait x || (match ac with | some n => x.accBusy n | none => false) then stall
    k c (act.filter (· < x.upTo c.vl))
    modify State.endVector

/-! ### Instructions -/

/-- MZERO (R382). -/
def execMzero (ac : Acc) : State → Host.Outcome State Fault Refusal :=
  runInstr 4 (matWith true 0 (some ac) (fun _ => false) (fun _ => none) (fun _ => []) (fun _ => false) fun c _ =>
    modify fun s => (s.accZero c.sl ac).modMat c.sl fun m => { m with sr := m.sr.set ac.toFin 0 })

/-- Element (r, j) of the held weights. -/
def MatState.weight (m : MatState) (r j : Nat) : Nat := bits m.w.toNat (32 * (128 * r + j)) 32
/-- Scale of group g and column j. -/
def MatState.scaleOf (m : MatState) (g j : Nat) : Nat := bits m.s.toNat (8 * (128 * g + j)) 8

/-- Columns lo to hi - 1 of a row of n-bit elements replaced. -/
def rowBits (n lo hi : Nat) (f : Nat → Nat) : Nat × Nat :=
  (2 ^ (n * hi) - 2 ^ (n * lo), (List.range' lo (hi - lo)).foldl (fun v j => v + f j % 2 ^ n * 2 ^ (n * j)) 0)

/-- Columns lo to hi - 1 of one row of weights, and of scales, latched (R385); all of them but where an eviction stops the word
(R396). One resumed goes on with the row it began. -/
def MatState.hold (m : MatState) (c : VCtx) (act : List Nat) (ty : Ty) (vs1 vs2 : Reg) (lo hi : Nat) : MatState :=
  let m := if lo ≠ 0 then m else if m.hr = 0 ∨ m.hr = c.vl ∨ m.fmt ≠ some ty then { ({} : MatState) with fmt := some ty, sr := m.sr, so := m.so, last := m.last }
    else m
  let top := Nat.min hi 128
  let row := rowBits 32 lo top fun j => if act.contains j then c.elem vs1 (matEew ty) j else 0
  let sc := rowBits 8 lo top fun j => c.elem vs2 8 j
  let g := m.hr / 32
  { m with
    w := m.w &&& ~~~(BitVec.ofNat 524288 row.1 <<< (4096 * m.hr)) ||| BitVec.ofNat 524288 row.2 <<< (4096 * m.hr)
    s := if vs2 = 0 then m.s
      else (m.s &&& ~~~(BitVec.ofNat 4096 sc.1 <<< (1024 * g))) ||| BitVec.ofNat 4096 sc.2 <<< (1024 * g)
    hr := if hi = c.vl then m.hr + 1 else m.hr }

/-- MHOLD (R385). -/
def execMhold (ty : Ty) (vm : Bool) (vs1 vs2 : Reg) : State → Host.Outcome State Fault Refusal :=
  runInstr 4 (matWith vm 0 none (fun _ => !matTy ty || (vs2 != 0 && (ty == .f16 || ty == .bf16 || ty == .f32)))
    (fun _ => none)
    (fun c => matGroup c vs1 (matEew ty) c.vl :: (if vs2 = 0 then [] else [matGroup c vs2 8 c.vl]))
    Slot.tmmvBusy fun c act =>
      modify fun s => s.modMat c.sl fun m =>
        m.hold c act ty vs1 vs2 (if (s.slot c.sl).resumed?.isSome then c.vstart else 0) ((s.slot c.sl).upTo c.vl))

/-- New elements of the active rows of an accumulator: `ps i j` the products of (i, j). -/
def State.accRows (s : State) (c : VCtx) (ac : Acc) (act : List Nat) (t : Ty) (ps : Nat → Nat → List (Nat × Fv)) : State :=
  s.accPut c.sl ac (act.flatMap fun i => (List.range c.vl).map fun j => (i, j, accSteps t t (s.accGet c.sl ac i j) (ps i j)))

/-- MOP (R383). -/
def execMop (ty : Ty) (vm : Bool) (ac : Acc) (vs1 vs2 : Reg) : State → Host.Outcome State Fault Refusal :=
  runInstr 4 (matWith vm 0 (some ac) (fun _ => !matTy ty) (fun _ => none)
    (fun c => [matGroup c vs1 (matEew ty) (kPack ty * c.vl), matGroup c vs2 (matEew ty) (kPack ty * c.vl)])
    (fun _ => false) fun c act =>
      modify fun s => s.accRows c ac act ty fun i j => (List.range (kPack ty)).map fun k =>
        (k, matProd ty ty (c.elem vs1 (matEew ty) (i * kPack ty + k)) (c.elem vs2 (matEew ty) (j * kPack ty + k))))

/-- MOPS (R384, R400). -/
def execMops (ty : Ty) (vm : Bool) (ac : Acc) (vs1 vs2 : Reg) : State → Host.Outcome State Fault Refusal :=
  runInstr 4 (matWith vm 0 (some ac) (fun _ => !matTy ty || ty == .lg6) (fun _ => none)
    (fun c => [matGroup c vs1 (matEew ty) c.vl, matGroup c vs2 (matEew ty) (2 * c.vl)])
    (fun _ => false) fun c act =>
      modify fun s =>
        let m := s.mat c.sl
        let so := match (s.slot c.sl).resumed? with
          | some e => e.so
          | none => if m.last = some (vs2, ac, ty) then m.so else 0
        let s' := s.accRows c ac act ty fun i j =>
          [(0, matProd ty ty (c.elem vs1 (matEew ty) i) (if j + so < 2 * c.vl then c.elem vs2 (matEew ty) (j + so) else 0))]
        if (s.slot c.sl).resumed?.isSome then s'
        else s'.modMat c.sl fun m => { m with so := Nat.min (so + 1) 128, last := some (vs2, ac, ty) })

/-- The products of an MHMUL for column j (R385): an empty block multiplies by +0. -/
def MatState.products (m : MatState) (c : VCtx) (act : List Nat) (ty : Ty) (vs1 : Reg) (j : Nat) : List (Nat × Fv) :=
  act.map fun k =>
    (k, (matProd ty (m.fmt.getD ty) (c.elem vs1 (matEew ty) k) (m.weight k j)).scale (m.scaleOf (k / 32) j))

/-- MHMUL (R385, R400). -/
def execMhmul (ty : Ty) (vm : Bool) (ac : Acc) (vs1 : Reg) : State → Host.Outcome State Fault Refusal :=
  runInstr 4 (do
    let s ← get
    let fmt := match s.curSlot with | some sl => (s.mat sl).fmt | none => none
    matWith vm 0 (some ac)
      (fun _ => !matTy ty || (match fmt with | some f => (f == .lg6) != (ty == .lg6) | none => false)) (fun _ => none)
      (fun c => [matGroup c vs1 (matEew ty) c.vl]) Slot.tmmvBusy fun c act =>
        modify fun s =>
          let m := s.mat c.sl
          let r := match (s.slot c.sl).resumed? with | some e => e.row | none => m.sr[ac.toFin]
          let s' := s.accPut c.sl ac ((List.range c.vl).map fun j =>
            (r, j, accSteps ty (m.fmt.getD ty) (s.accGet c.sl ac r j) (m.products c act ty vs1 j)))
          if (s.slot c.sl).resumed?.isSome then s'
          else s'.modMat c.sl fun m => { m with sr := m.sr.set ac.toFin ((r + 1) % c.vl) })

/-- MRD (R386). -/
def execMrd (vm : Bool) (ac : Acc) (vd rs1 : Reg) : State → Host.Outcome State Fault Refusal :=
  runInstr 4 (matWith vm rs1 (some ac) (fun _ => false) (fun c => some (matGroup c vd 32 c.vl)) (fun _ => [])
    (fun _ => false) fun c act =>
      modify fun s =>
        s.putElems c (matGroup c vd 32 c.vl) (act.map fun j => (j, s.accGet c.sl ac (c.xs.toNat % 128) j, 0)))

/-- MWR (R386). -/
def execMwr (vm : Bool) (ac : Acc) (vd rs1 : Reg) : State → Host.Outcome State Fault Refusal :=
  runInstr 4 (matWith vm rs1 (some ac) (fun _ => false) (fun _ => none) (fun c => [matGroup c vd 32 c.vl])
    (fun _ => false) fun c act =>
      modify fun s => s.accPut c.sl ac (act.map fun j => (c.xs.toNat % 128, j, c.elem vd 32 j)))

end Sys2Proof.Machine
end

