-- ==== Sys2Proof/Machine/System.lean ====
section
/-! DEFINITION. ECALL, EBREAK, TRAPRET, YIELD, WIDF (R221, R235) and the control registers (R100 - R104, R222). -/
namespace Sys2Proof.Machine

/-- ECALL (R221): the fault record's VA field carries a0, not marked valid. -/
def execEcall : State → Host.Outcome State Fault Refusal :=
  runInstr 4 (do
    noLane
    trap { cause := .ecall, va := (← get).getX 10 })

/-- EBREAK (R221). -/
def execEbreak : State → Host.Outcome State Fault Refusal :=
  runInstr 4 (do
    noLane
    trap { cause := .ebreak })

/-- TRAPRET (R221, R235). -/
def execTrapret : State → Host.Outcome State Fault Refusal := fun s =>
  if s.power = .off then .fault .poweredOff
  else if s.lane.isSome then finish ((illegal : M Unit).run s)
  else .next s.trapReturn

/-- YIELD (R221): the slot forfeits its next turn at each engine (R174). -/
def execYield : State → Host.Outcome State Fault Refusal :=
  runInstr 4 (do
    noLane
    modify fun s => match s.curSlot with
      | none => s
      | some sl =>
        let n := BitVec.ofNat 2 (slotNum sl)
        s.modCore (slotCore sl) fun c =>
          { c with forfeit := [Engine.lane, .matrix, .copy, .exchange].map (fun e => (e, n))
                     ++ c.forfeit.filter (fun f => f.2 != n) })

/-- ctl.widw (R33): 0 for a Steward, which holds no block. -/
def State.widw (s : State) : Nat := match s.curSlot with | some sl => (s.slot sl).widw.toNat | none => 0

/-- Width of field i of a work identifier (R32, R33). -/
def widWidth (widw i : Nat) : Nat := bits widw (8 * i) 8

/-- Field L of a work identifier (R221). -/
def widField (widw : Nat) (v : Word) (level : Nat) : Word :=
  let off := ((List.range level).map (widWidth widw)).sum
  BitVec.ofNat 64 (v.toNat / 2 ^ off % 2 ^ widWidth widw level)

/-- WIDF (R221); levels above 5 are reserved (R82). -/
def execWidf (rd rs1 : Reg) (level : BitVec 5) : State → Host.Outcome State Fault Refusal :=
  runInstr 4 (do
    noLane
    if 5 < level.toNat then illegal
    let s ← get
    writeX rd (widField s.widw (s.getX rs1) level.toNat))

/-! ### Control registers -/

/-- The value that a control register reads as; none for an address that R100 does not list. ctl.ferry reads the controller's
live word from placement on, where R100 resets it to 0 and R471 gives the controller's reset value: the model's choice (log 85). -/
def State.ctlRead (s : State) (a : Nat) : Option Word :=
  let h := s.hart
  let slot? := s.curSlot
  match a with
  | 0x000 => some 0x3F0200
  | 0x001 => some (match s.cur with
    | .block sl => BitVec.ofNat 64 (slotCore sl)
    | .steward k => Config.stewardCoreId k)
  | 0x002 => some (match slot? with | some sl => (s.slot sl).wid | none => 0)
  | 0x003 => some (BitVec.ofNat 64 s.widw)
  | 0x004 => some (match slot? with | some sl => BitVec.ofNat 64 (slotNum sl) | none => 0)
  | 0x010 => some h.vl
  | 0x011 => some (h.vtype.zeroExtend 64)
  | 0x012 => some (BitVec.ofNat 64 s.vlmax)
  | 0x013 => some (BitVec.ofNat 64 s.lanesCtl)
  | 0x014 => some (h.vstart.zeroExtend 64)
  | 0x018 => some (h.mvl.zeroExtend 64)
  | 0x019 => some (h.tshape.zeroExtend 64)
  | 0x020 => some (h.fcsr.zeroExtend 64)
  | 0x030 => some h.tvec
  | 0x031 => some h.xpc
  | 0x032 => some (h.tcause.zeroExtend 64)
  | 0x033 => some h.tval
  | 0x034 => some h.tcoord
  | 0x040 => some (h.sett.zeroExtend 64)
  | 0x041 => some h.setthit
  | 0x042 => some h.settmiss
  | 0x043 => some h.settkill
  | 0x050 => some (s.ferry.word s.clock
      (match slot? with | some sl => s.ferry.helm == some (s.slot sl).launch | none => false) 0)
  | 0x060 => some (BitVec.ofNat 64 (s.clock - s.resetAt))
  | 0x061 => some h.instret
  | 0x062 => some h.resync
  | _ => none

/-- Drop the Sett entries of the block's context (R371). -/
def State.settFlush (s : State) : State :=
  match s.curSlot with
  | some sl => s.settDrop (slotCore sl) (s.slot sl).ctx false
  | none => s

/-- A write of a control register (R10, R11, R100): read-only registers stay; ctl.vtype with a reserved code or bit
raises ILLEGAL (R102). -/
def ctlWrite (a : Nat) (v : Word) : M Unit := do
  let set? (f : Hart → Hart) : M Unit := modify fun s => s.modHart f
  match a with
  | 0x010 => do
    let m := (← get).vlmax
    set? fun h => { h with vl := BitVec.ofNat 64 (Nat.min v.toNat m), vlForced := false }
  | 0x011 => do
    if 64 ≤ v.toNat || !vtypeOk (v.truncate 6) then illegal
    set? fun h => { h with vtype := v.truncate 6 }
    let m := (← get).vlmax
    set? fun h => { h with vl := BitVec.ofNat 64 (Nat.min h.vl.toNat m) }
  | 0x014 => set? fun h => { h with vstart := v.truncate 12 }
  | 0x018 => modify fun s => s.setMvl (Nat.min v.toNat 128)
  | 0x020 => set? fun h => { h with fcsr := v.truncate 17 &&& 0x1FEFF }
  | 0x030 => set? fun h => { h with tvec := v &&& ~~~3 }
  | 0x031 => set? fun h => { h with xpc := v }
  | 0x032 => set? fun h => { h with tcause := v.truncate 8 }
  | 0x033 => set? fun h => { h with tval := v }
  | 0x034 => set? fun h => { h with tcoord := v &&& ~~~0xE0 }
  | 0x040 => do
    if v.getLsbD 2 then modify State.settFlush
    set? fun h => { h with sett := v.truncate 2 }
  | 0x041 => set? fun h => { h with setthit := v }
  | 0x042 => set? fun h => { h with settmiss := v }
  | 0x043 => set? fun h => { h with settkill := v }
  | 0x061 => set? fun h => { h with instret := v }
  | 0x062 => set? fun h => { h with resync := v }
  | _ => return ()

/-- The old value of a control register, ILLEGAL where none is listed. -/
def ctlOld (a : Nat) : M Word := do
  match (← get).ctlRead a with
  | some v => return v
  | none => illegal

/-- CTLR (R222); of ctl.vl after a VLEFF, it counts a resynchronisation (R40). -/
def execCtlr (rd : Reg) (addr : BitVec 12) : State → Host.Outcome State Fault Refusal :=
  runInstr 4 (do
    noLane
    let old ← ctlOld addr.toNat
    if addr == 0x10 && (← get).hart.vlForced then modify fun s => s.modHart fun h => { h with resync := h.resync + 1 }
    writeX rd old)

/-- CTLW (R222); one that writes ctl.instret is not counted itself. -/
def execCtlw (rd rs1 : Reg) (addr : BitVec 12) : State → Host.Outcome State Fault Refusal :=
  runInstr 4 (do
    noLane
    let v ← readX rs1
    let old ← ctlOld addr.toNat
    ctlWrite addr.toNat (if addr == 0x61 then v - 1 else v)
    writeX rd old)

/-- CTLS (R222). -/
def execCtls (rd rs1 : Reg) (addr : BitVec 12) : State → Host.Outcome State Fault Refusal :=
  runInstr 4 (do
    noLane
    let v ← readX rs1
    let old ← ctlOld addr.toNat
    if rs1 ≠ 0 then ctlWrite addr.toNat (old ||| v)
    writeX rd old)

/-- CTLC (R222). -/
def execCtlc (rd rs1 : Reg) (addr : BitVec 12) : State → Host.Outcome State Fault Refusal :=
  runInstr 4 (do
    noLane
    let v ← readX rs1
    let old ← ctlOld addr.toNat
    if rs1 ≠ 0 then ctlWrite addr.toNat (old &&& ~~~v)
    writeX rd old)

end Sys2Proof.Machine
end

