-- ==== Sys2Proof/Machine/Scalar.lean ====
section
/-! DEFINITION. Integer register operations (R192 - R196). -/
namespace Sys2Proof.Machine

/-- rd := f rs1 rs2 (R190, R192). -/
def alu2 (f : Word → Word → Word) (rd rs1 rs2 : Reg) (s : State) : Host.Outcome State Fault Refusal :=
  runInstr 4 (do
    scalarGate [rd, rs1, rs2] rd
    let a ← readX rs1
    let b ← readX rs2
    writeX rd (f a b)) s

/-- rd := f rs1 (R192 unary forms, R193, R194). -/
def alu1 (f : Word → Word) (rd rs1 : Reg) (s : State) : Host.Outcome State Fault Refusal :=
  runInstr 4 (do
    scalarGate [rd, rs1] rd
    let a ← readX rs1
    writeX rd (f a)) s

/-- The W form: bits [31:0] of a result, sign-extended (R191). -/
def wForm (v : BitVec 32) : Word := v.signExtend 64
def lo32 (a : Word) : BitVec 32 := a.truncate 32
def boolWord (b : Bool) : Word := if b then 1 else 0

/-- Leading zeros; 64 for 0 (R192). -/
def clz (a : Word) : Word := if a = 0 then 64 else BitVec.ofNat 64 (63 - Nat.log2 a.toNat)
/-- Trailing zeros among the low n bits. -/
def ctzFrom : Nat → Nat → Nat
  | 0, _ => 0
  | n + 1, v => if v % 2 = 1 then 0 else 1 + ctzFrom n (v / 2)
/-- Trailing zeros; 64 for 0 (R192). -/
def ctz (a : Word) : Word := BitVec.ofNat 64 (ctzFrom 64 a.toNat)
/-- Ones among the low n bits. -/
def onesIn : Nat → Nat → Nat
  | 0, _ => 0
  | n + 1, v => v % 2 + onesIn n (v / 2)
/-- Count of ones (R192). -/
def popc (a : Word) : Word := BitVec.ofNat 64 (onesIn 64 a.toNat)
/-- Bytes in reverse order (R192). -/
def bswap (a : Word) : Word := BitVec.ofNat 64 (natOfBytes (bytesOfNat 8 a.toNat).reverse)

/-- Signed quotient and remainder with the fixed results of R108: division by 0 gives -1 and the dividend; the most
negative value divided by -1 gives itself and 0. -/
def divSigned (a b : Int) : Int := if b = 0 then -1 else Int.tdiv a b
def remSigned (a b : Int) : Int := if b = 0 then a else Int.tmod a b
def divUnsigned (w a b : Nat) : Nat := if b = 0 then 2 ^ w - 1 else a / b
def remUnsigned (a b : Nat) : Nat := if b = 0 then a else a % b

/-- ADD (R192). -/
def execAdd (rd rs1 rs2 : Reg) : State → Host.Outcome State Fault Refusal := alu2 (fun a b => a + b) rd rs1 rs2
/-- SUB (R192). -/
def execSub (rd rs1 rs2 : Reg) : State → Host.Outcome State Fault Refusal := alu2 (fun a b => a - b) rd rs1 rs2
/-- AND (R192). -/
def execAnd (rd rs1 rs2 : Reg) : State → Host.Outcome State Fault Refusal := alu2 (fun a b => a &&& b) rd rs1 rs2
/-- OR (R192). -/
def execOr (rd rs1 rs2 : Reg) : State → Host.Outcome State Fault Refusal := alu2 (fun a b => a ||| b) rd rs1 rs2
/-- XOR (R192). -/
def execXor (rd rs1 rs2 : Reg) : State → Host.Outcome State Fault Refusal := alu2 (fun a b => a ^^^ b) rd rs1 rs2
/-- ANDN (R192). -/
def execAndn (rd rs1 rs2 : Reg) : State → Host.Outcome State Fault Refusal := alu2 (fun a b => a &&& ~~~b) rd rs1 rs2
/-- ORN (R192). -/
def execOrn (rd rs1 rs2 : Reg) : State → Host.Outcome State Fault Refusal := alu2 (fun a b => a ||| ~~~b) rd rs1 rs2
/-- SLL (R192). -/
def execSll (rd rs1 rs2 : Reg) : State → Host.Outcome State Fault Refusal := alu2 (fun a b => a <<< (b.toNat % 64)) rd rs1 rs2
/-- SRL (R192). -/
def execSrl (rd rs1 rs2 : Reg) : State → Host.Outcome State Fault Refusal := alu2 (fun a b => a >>> (b.toNat % 64)) rd rs1 rs2
/-- SRA (R192). -/
def execSra (rd rs1 rs2 : Reg) : State → Host.Outcome State Fault Refusal := alu2 (fun a b => a.sshiftRight (b.toNat % 64)) rd rs1 rs2
/-- ROL (R192). -/
def execRol (rd rs1 rs2 : Reg) : State → Host.Outcome State Fault Refusal := alu2 (fun a b => a.rotateLeft (b.toNat % 64)) rd rs1 rs2
/-- ROR (R192). -/
def execRor (rd rs1 rs2 : Reg) : State → Host.Outcome State Fault Refusal := alu2 (fun a b => a.rotateRight (b.toNat % 64)) rd rs1 rs2
/-- SLT (R192). -/
def execSlt (rd rs1 rs2 : Reg) : State → Host.Outcome State Fault Refusal := alu2 (fun a b => boolWord (a.slt b)) rd rs1 rs2
/-- SLTN (R192). -/
def execSltn (rd rs1 rs2 : Reg) : State → Host.Outcome State Fault Refusal := alu2 (fun a b => boolWord (a.ult b)) rd rs1 rs2
/-- MIN (R192). -/
def execMin (rd rs1 rs2 : Reg) : State → Host.Outcome State Fault Refusal := alu2 (fun a b => if a.slt b then a else b) rd rs1 rs2
/-- MAX (R192). -/
def execMax (rd rs1 rs2 : Reg) : State → Host.Outcome State Fault Refusal := alu2 (fun a b => if a.slt b then b else a) rd rs1 rs2
/-- MINN (R192). -/
def execMinn (rd rs1 rs2 : Reg) : State → Host.Outcome State Fault Refusal := alu2 (fun a b => if a.ult b then a else b) rd rs1 rs2
/-- MAXN (R192). -/
def execMaxn (rd rs1 rs2 : Reg) : State → Host.Outcome State Fault Refusal := alu2 (fun a b => if a.ult b then b else a) rd rs1 rs2
/-- CZEQ (R192). -/
def execCzeq (rd rs1 rs2 : Reg) : State → Host.Outcome State Fault Refusal := alu2 (fun a b => if b = 0 then 0 else a) rd rs1 rs2
/-- CZNE (R192). -/
def execCzne (rd rs1 rs2 : Reg) : State → Host.Outcome State Fault Refusal := alu2 (fun a b => if b ≠ 0 then 0 else a) rd rs1 rs2
/-- ADDW (R192). -/
def execAddw (rd rs1 rs2 : Reg) : State → Host.Outcome State Fault Refusal := alu2 (fun a b => wForm (lo32 a + lo32 b)) rd rs1 rs2
/-- SUBW (R192). -/
def execSubw (rd rs1 rs2 : Reg) : State → Host.Outcome State Fault Refusal := alu2 (fun a b => wForm (lo32 a - lo32 b)) rd rs1 rs2
/-- SLLW (R192). -/
def execSllw (rd rs1 rs2 : Reg) : State → Host.Outcome State Fault Refusal := alu2 (fun a b => wForm (lo32 a <<< (b.toNat % 32))) rd rs1 rs2
/-- SRLW (R192). -/
def execSrlw (rd rs1 rs2 : Reg) : State → Host.Outcome State Fault Refusal := alu2 (fun a b => wForm (lo32 a >>> (b.toNat % 32))) rd rs1 rs2
/-- SRAW (R192). -/
def execSraw (rd rs1 rs2 : Reg) : State → Host.Outcome State Fault Refusal := alu2 (fun a b => wForm ((lo32 a).sshiftRight (b.toNat % 32))) rd rs1 rs2
/-- CLZ (R192). -/
def execClz (rd rs1 : Reg) : State → Host.Outcome State Fault Refusal := alu1 (fun a => clz a) rd rs1
/-- CTZ (R192). -/
def execCtz (rd rs1 : Reg) : State → Host.Outcome State Fault Refusal := alu1 (fun a => ctz a) rd rs1
/-- POPC (R192). -/
def execPopc (rd rs1 : Reg) : State → Host.Outcome State Fault Refusal := alu1 (fun a => popc a) rd rs1
/-- BSWAP (R192). -/
def execBswap (rd rs1 : Reg) : State → Host.Outcome State Fault Refusal := alu1 (fun a => bswap a) rd rs1
/-- SEXTB (R192). -/
def execSextb (rd rs1 : Reg) : State → Host.Outcome State Fault Refusal := alu1 (fun a => (a.truncate 8).signExtend 64) rd rs1
/-- SEXTH (R192). -/
def execSexth (rd rs1 : Reg) : State → Host.Outcome State Fault Refusal := alu1 (fun a => (a.truncate 16).signExtend 64) rd rs1
/-- SEXTW (R192). -/
def execSextw (rd rs1 : Reg) : State → Host.Outcome State Fault Refusal := alu1 (fun a => (a.truncate 32).signExtend 64) rd rs1
/-- ZEXTW (R192). -/
def execZextw (rd rs1 : Reg) : State → Host.Outcome State Fault Refusal := alu1 (fun a => (a.truncate 32).zeroExtend 64) rd rs1
/-- MUL (R196). -/
def execMul (rd rs1 rs2 : Reg) : State → Host.Outcome State Fault Refusal := alu2 (fun a b => a * b) rd rs1 rs2
/-- MULH (R196). -/
def execMulh (rd rs1 rs2 : Reg) : State → Host.Outcome State Fault Refusal := alu2 (fun a b => BitVec.ofInt 64 (a.toInt * b.toInt / 2 ^ 64)) rd rs1 rs2
/-- MULHN (R196). -/
def execMulhn (rd rs1 rs2 : Reg) : State → Host.Outcome State Fault Refusal := alu2 (fun a b => BitVec.ofNat 64 (a.toNat * b.toNat / 2 ^ 64)) rd rs1 rs2
/-- MULHSN (R196). -/
def execMulhsn (rd rs1 rs2 : Reg) : State → Host.Outcome State Fault Refusal := alu2 (fun a b => BitVec.ofInt 64 (a.toInt * (b.toNat : Int) / 2 ^ 64)) rd rs1 rs2
/-- MULW (R196). -/
def execMulw (rd rs1 rs2 : Reg) : State → Host.Outcome State Fault Refusal := alu2 (fun a b => wForm (lo32 a * lo32 b)) rd rs1 rs2
/-- DIV (R196). -/
def execDiv (rd rs1 rs2 : Reg) : State → Host.Outcome State Fault Refusal := alu2 (fun a b => BitVec.ofInt 64 (divSigned a.toInt b.toInt)) rd rs1 rs2
/-- DIVN (R196). -/
def execDivn (rd rs1 rs2 : Reg) : State → Host.Outcome State Fault Refusal := alu2 (fun a b => BitVec.ofNat 64 (divUnsigned 64 a.toNat b.toNat)) rd rs1 rs2
/-- REM (R196). -/
def execRem (rd rs1 rs2 : Reg) : State → Host.Outcome State Fault Refusal := alu2 (fun a b => BitVec.ofInt 64 (remSigned a.toInt b.toInt)) rd rs1 rs2
/-- REMN (R196). -/
def execRemn (rd rs1 rs2 : Reg) : State → Host.Outcome State Fault Refusal := alu2 (fun a b => BitVec.ofNat 64 (remUnsigned a.toNat b.toNat)) rd rs1 rs2
/-- DIVW (R196). -/
def execDivw (rd rs1 rs2 : Reg) : State → Host.Outcome State Fault Refusal := alu2 (fun a b => wForm (BitVec.ofInt 32 (divSigned (lo32 a).toInt (lo32 b).toInt))) rd rs1 rs2
/-- ADDI (R193). -/
def execAddi (rd rs1 : Reg) (imm : BitVec 16) : State → Host.Outcome State Fault Refusal := alu1 (fun a => a + imm.signExtend 64) rd rs1
/-- ANDI (R193). -/
def execAndi (rd rs1 : Reg) (imm : BitVec 16) : State → Host.Outcome State Fault Refusal := alu1 (fun a => a &&& imm.zeroExtend 64) rd rs1
/-- ORI (R193). -/
def execOri (rd rs1 : Reg) (imm : BitVec 16) : State → Host.Outcome State Fault Refusal := alu1 (fun a => a ||| imm.zeroExtend 64) rd rs1
/-- XORI (R193). -/
def execXori (rd rs1 : Reg) (imm : BitVec 16) : State → Host.Outcome State Fault Refusal := alu1 (fun a => a ^^^ imm.zeroExtend 64) rd rs1
/-- SLTI (R193). -/
def execSlti (rd rs1 : Reg) (imm : BitVec 15) : State → Host.Outcome State Fault Refusal := alu1 (fun a => boolWord (a.slt (imm.signExtend 64))) rd rs1
/-- SLTNI (R193). -/
def execSltni (rd rs1 : Reg) (imm : BitVec 15) : State → Host.Outcome State Fault Refusal := alu1 (fun a => boolWord (a.ult (imm.zeroExtend 64))) rd rs1
/-- ADDWI (R194). -/
def execAddwi (rd rs1 : Reg) (imm : BitVec 12) : State → Host.Outcome State Fault Refusal := alu1 (fun a => wForm (lo32 a + imm.signExtend 32)) rd rs1
/-- SLLI (R194). -/
def execSlli (rd rs1 : Reg) (sh : BitVec 6) : State → Host.Outcome State Fault Refusal := alu1 (fun a => a <<< sh.toNat) rd rs1
/-- SRLI (R194). -/
def execSrli (rd rs1 : Reg) (sh : BitVec 6) : State → Host.Outcome State Fault Refusal := alu1 (fun a => a >>> sh.toNat) rd rs1
/-- SRAI (R194). -/
def execSrai (rd rs1 : Reg) (sh : BitVec 6) : State → Host.Outcome State Fault Refusal := alu1 (fun a => a.sshiftRight sh.toNat) rd rs1
/-- LUI (R195). -/
def execLui (rd : Reg) (imm : BitVec 21) : State → Host.Outcome State Fault Refusal :=
  runInstr 4 (do scalarGate [rd] rd; writeX rd (imm.signExtend 64 <<< 16))
/-- AUIPC (R195): PC is the address of the AUIPC itself. -/
def execAuipc (rd : Reg) (imm : BitVec 21) : State → Host.Outcome State Fault Refusal :=
  runInstr 4 (do
    scalarGate [rd] rd
    let pc := (← get).pc
    writeX rd ((pc &&& ~~~(0xFFFF : Word)) + (imm.signExtend 64 <<< 16)))

end Sys2Proof.Machine
end

