-- ==== Sys2Proof/Machine/ScalarMem.lean ====
section
/-! DEFINITION. Scalar atomics, acquire and release accesses, fences, prefetches (R203 - R215); plain loads and stores
stand in LoadStore.lean. -/
namespace Sys2Proof.Machine

/-- Bytes of a load size, and whether it is signed (R78, R203). -/
def LdSizeBytes : LdSize → Nat × Bool
  | .i8 => (1, true) | .i16 => (2, true) | .i32 => (4, true) | .i64 => (8, true)
  | .n8 => (1, false) | .n16 => (2, false) | .n32 => (4, false)
def StSizeBytes : StSize → Nat
  | .b8 => 1 | .b16 => 2 | .b32 => 4 | .b64 => 8

/-- The value a load of n bytes writes (R203). -/
def extendLoad (signed : Bool) (n v : Nat) : Word :=
  if signed then BitVec.ofInt 64 (sint v (8 * n)) else BitVec.ofNat 64 v

/-- What a scalar load or store may reach (R28, R205, R453). -/
def scalarUse (acc : Access) : Use :=
  { acc := acc, cmpOk := acc == .load }
/-- What an atomic may reach (R28, R205, R209). -/
def atomicUse (acc : Access) : Use := { acc := acc, atomic := true, noChip := true, reads := true, inv := true }

def awidthBytes : AWidth → Nat | .w32 => 4 | .w64 => 8
def orderRel : Order → Bool | .rel | .ar => true | _ => false
def orderAcq : Order → Bool | .acq | .ar => true | _ => false

/-- The new value of an atomic on n bytes (R209): signed or unsigned minima and maxima on the low 8n bits. -/
def amoNew (op : AmoOp) (n old b : Nat) : Nat :=
  let w := 8 * n
  let b := b % 2 ^ w
  match op with
  | .swap => b
  | .add => (old + b) % 2 ^ w
  | .and => old &&& b
  | .or => old ||| b
  | .xor => old ^^^ b
  | .min => if sint old w ≤ sint b w then old else b
  | .max => if sint old w < sint b w then b else old
  | .minn => Nat.min old b
  | .maxn => Nat.max old b

/-- A tile instruction that is a Porter command (R240), a discard (R410), or a TMAP or TRED, whose function may store. -/
def TileInstr.isCommand (t : TileInstr) : Bool :=
  match t.op with | .mma _ _ _ _ _ | .send _ _ _ | .recv _ _ => false | _ => true

/-- Every byte that a tile instruction accesses in memory lies on UN pages: it takes part in no release (R211). -/
def State.allUn (s : State) (ctx : BitVec 16) (t : TileInstr) : Bool :=
  !t.ranges.isEmpty && t.ranges.all fun r => (s.pages ctx r.1.toNat r.2).all fun q => q.2.2.any fun l => pteOrd l.pte == 2

/-- A tile instruction reads memory for its block: what an acquire fence waits for (R213). -/
def TileInstr.loads (t : TileInstr) : Bool :=
  match t.op with
  | .load _ _ _ _ _ | .loadPb _ _ _ _ | .copyPb _ _ _ _ | .coll _ _ _ _ _ | .map _ _ _ _ _ => true
  | _ => false

/-- Elements of one strip of a stream: VLMAX at its element width. -/
def State.streamStrip (s : State) (sl : SlotId) (q : Stream) : Nat := s.grant sl * 256 / (8 * 2 ^ q.eew.toNat)

/-- Elements that the next refill reads: at most two strips ahead of the one being read (R266); 0 for none. -/
def State.refillCount (s : State) (sl : SlotId) (q : Stream) : Nat :=
  let n := Nat.min (s.streamStrip sl q) (q.count.toNat - q.filled.toNat)
  if q.bound && !q.push && !q.ended && decide (q.filled.toNat + n ≤ q.pos.toNat + 3 * s.streamStrip sl q) then n else 0

/-- Refill reads that queue room lets a stream make now are outstanding accesses of its block, at the VSTREAM's place: what a
release, or a fence, waits for (R211, R335, log 82). Those of UN pages take part only where `un`. -/
def State.refillsDue (s : State) (sl : SlotId) (un : Bool) : Bool :=
  let x := s.slot sl
  x.streams.toList.any fun q => anyFrom (fun i => un || (s.pages x.ctx (q.elem i).1.toNat (q.elem i).2).any fun p =>
    !p.2.2.any fun l => pteOrd l.pte == 2) q.filled.toNat (s.refillCount sl q)

/-- Nothing of what a wait of the current block is for is outstanding: tile commands on its behalf, refill reads, and writes
held at a stream queue (R211, R335, R336). `loads` of an acquire fence; accesses to UN pages take part only where `un` (R213). Instruction
accesses are performed at their own step (log 8). -/
def State.settledFor (s : State) (loads un : Bool) : Bool :=
  match s.cur with
  | .steward _ => true
  | .block sl =>
    ((s.slot sl).olderWork.all fun t => !(if loads then t.loads else t.isCommand) || (!un && s.allUn (s.slot sl).ctx t))
    && (loads || !s.anyHeld sl fun h => un || !h.un) && !s.refillsDue sl un

/-- ReleaseWait has nothing to wait for (R211). -/
def State.releaseReady (s : State) : Bool := s.settledFor false false

/-- ReleaseWait (R211). -/
def releaseWait (order : Order) : M Unit := do
  if orderRel order && !(← get).releaseReady then stall

/-- An atomic at an address: the check, the release, the access (R209). -/
def atomicOp (acc : Access) (order : Order) (n : Nat) (rs1 : Reg) (f : Nat → Option Nat) : M Nat := do
  let a ← readX rs1
  if crosses a n then trap { cause := .align, va := a, vaValid := true, tval := a }
  let old ← atomicBytes a n (atomicUse acc) (releaseWait order) fun bs => (f (natOfBytes bs)).map (bytesOfNat n)
  return natOfBytes old

/-- AMO (R209). -/
def execAmo (op : AmoOp) (order : Order) (width : AWidth) (_scope : Scope) (rd rs1 rs2 : Reg) :
    State → Host.Outcome State Fault Refusal :=
  runInstr 4 (do
    scalarGate [rd, rs1, rs2] rd
    let b ← readX rs2
    let n := awidthBytes width
    let old ← atomicOp .store order n rs1 fun o => some (amoNew op n o b.toNat)
    writeX rd (extendLoad true n old))

/-- CAS (R209): it writes, and counts in granule order, whether or not the comparison holds (R406). -/
def execCas (order : Order) (width : AWidth) (_scope : Scope) (rd rs1 rs2 : Reg) :
    State → Host.Outcome State Fault Refusal :=
  runInstr 4 (do
    scalarGate [rd, rs1, rs2] rd
    let b ← readX rs2
    let e ← readX rd
    let n := awidthBytes width
    let old ← atomicOp .store order n rs1 fun o => some (if o = e.toNat % 2 ^ (8 * n) then b.toNat else o)
    writeX rd (extendLoad true n old))

/-- A register that names a CAS2 pair: even and not 31 (R97, R210). -/
def pairOk (r : Reg) : Bool := r.toNat % 2 == 0

/-- CAS2 (R97, R210). -/
def execCas2 (order : Order) (_scope : Scope) (rd rs1 rs2 : Reg) : State → Host.Outcome State Fault Refusal :=
  runInstr 4 (do
    noLane
    if !pairOk rd || !pairOk rs2 then illreg
    let a ← readX rs1
    if a.toNat % 16 ≠ 0 then trap { cause := .align, va := a, vaValid := true, tval := a }
    let lo ← readX rd
    let hi ← readX (rd + 1)
    let b0 ← readX rs2
    let b1 ← readX (rs2 + 1)
    let old ← atomicOp .store order 16 rs1 fun o =>
      some (if o = hi.toNat * 2 ^ 64 + lo.toNat then b1.toNat * 2 ^ 64 + b0.toNat else o)
    writeX rd (BitVec.ofNat 64 old)
    writeX (rd + 1) (BitVec.ofNat 64 (old / 2 ^ 64)))

/-- LDAQ: an acquiring load (R209). -/
def execLdaq (width : AWidth) (_scope : Scope) (rd rs1 : Reg) : State → Host.Outcome State Fault Refusal :=
  runInstr 4 (do
    scalarGate [rd, rs1] rd
    let n := awidthBytes width
    let old ← atomicOp .load .acq n rs1 fun _ => none
    writeX rd (extendLoad true n old))

/-- STRL: a releasing store (R209). -/
def execStrl (width : AWidth) (_scope : Scope) (rs1 rs2 : Reg) : State → Host.Outcome State Fault Refusal :=
  runInstr 4 (do
    scalarGate [rs1, rs2] 0
    let b ← readX rs2
    let n := awidthBytes width
    let _ ← atomicOp .store .rel n rs1 fun _ => some b.toNat
    return ())

/-! ### Fences and prefetches (R211 - R216, R227) -/

/-- A FENCE has nothing to wait for (R213): acq waits for older loads, rel and ar for every older access; ar at scope sys
alone for those to UN pages. -/
def State.fenceReady (s : State) (kind : FenceKind) (scope : Scope) : Bool :=
  match kind with
  | .acq => s.settledFor true false
  | .rel => s.settledFor false false
  | .ar => s.settledFor false (scope == .sys)

/-- FENCE (R213). -/
def execFence (kind : FenceKind) (scope : Scope) : State → Host.Outcome State Fault Refusal :=
  runInstr 4 (do if !(← get).fenceReady kind scope then stall)

/-- FENCE.SV (R214): the block's vector accesses and tile work to come wait for its scalar writes that a stream queue still
holds; every other scalar access has been performed at its own step (log 8). -/
def execFenceSv : State → Host.Outcome State Fault Refusal :=
  runInstr 4 (do
    noLane
    modify fun s => match s.curSlot with | some sl => s.svMark sl | none => s)

/-- FENCE.VS (R214): it waits for the block's vector writes that a stream queue still holds; every other vector access has
been performed at its own step (log 8). -/
def execFenceVs : State → Host.Outcome State Fault Refusal :=
  runInstr 4 (do
    noLane
    let s ← get
    if s.curSlot.any fun sl => s.anyHeld sl fun h => h.fail.elem.isSome && !h.un then stall)

/-- FENCE.I (R215): after the block's older stores, those to UN pages too, every line of the core's instruction cache goes. -/
def execFenceI : State → Host.Outcome State Fault Refusal :=
  runInstr 4 (do
    noLane
    if !(← get).settledFor false true then stall
    modify fun s => match s.curSlot with
      | some sl => s.modCore (slotCore sl) fun c => { c with icache := [] }
      | none => s)

/-- The walk of a hint from a table of a level down (R227): none where the hint is dropped. It sets no A bit and raises nothing;
its pointers install their walk-cache entries (R443). -/
def hintDown (src : WalkSrc) (ctx : BitVec 16) (va : Word) (acc : Access) : Nat → Nat → Nat → Bool → M (Option TlbEntry)
  | 0, _, _, _ => return none
  | f + 1, level, table, big => do
    let pa := table + 8 * levelIndex level big va.toNat
    match ← walkRead (walkSource src) pa with
    | .error _ => return none
    | .ok p =>
      if !pteV p || pteReserved level big p then return none
      else if pteL p then
        return if pteA p && ptePermits p acc then some (leafEntry ctx va.toNat level big p pa) else none
      else if Config.hbmEnd ≤ ptePA p then return none
      else
        modify fun s => s.walkInstall (WalkSrcDie src) ctx va.toNat (level - 1) (ptePA p)
        hintDown src ctx va acc f (level - 1) (ptePA p) (pteT p)

/-- Where a hint's walk starts: the deepest walk-cache hit, or the root (R443). -/
def hintStart (src : WalkSrc) (ctx : BitVec 16) (va : Word) (u : Use) : M (Nat × Nat) := do
  ctxGate va u
  match (← get).walkHit (WalkSrcDie src) ctx va.toNat with
  | some r => return r
  | none => return (5, ← walkRoot (walkSource src) (WalkSrcDie src) ctx va u)

/-- A prefetch hint's translation (R227): none where the hint is dropped. The walk installs only a leaf that is valid,
resident, accessed and permitted. A read that waits for a snoop, and a walk of the page under way, hold the hint. -/
def translateHint (src : WalkSrc) (itlb : Bool) (ctx : BitVec 16) (va : Word) (acc : Access) : M (Option Loc) := do
  let u : Use := { acc := acc }
  if 2 ^ 57 ≤ va.toNat then return none
  let (hit, s) := (← get).tlbLookup src itlb ctx va.toNat
  set s
  match hit with
  | some e =>
    return if ptePermits e.pte acc && (leafCheck s u va (entryLoc e va.toNat)).isNone then some (entryLoc e va.toNat) else none
  | none =>
    if (← get).walkPending (WalkSrcDie src) ctx va.toNat then stall
    match ← attempt (hintStart src ctx va u) with
    | .error .stall => stall
    | .error (.trap _) => return none
    | .ok (level, table) =>
      match ← hintDown src ctx va acc 5 level table false with
      | none => return none
      | some e =>
        if (leafCheck (← get) u va (entryLoc e va.toNat)).isSome then return none
        modify (·.tlbFill src itlb e va.toNat)
        return some (entryLoc e va.toNat)

/-- An honoured IPREF starts the fill of its line; any other is dropped (R227). -/
def State.ipref (s : State) (sl : SlotId) (va : Word) (l : Loc) : State :=
  let c := slotCore sl
  let f : LineFill := ⟨icSet va, l.pa / 64 * 64⟩
  let x := s.core c
  if x.icache.any (fun e => e.set == f.set && e.pa == f.pa) || x.fills.any (fun e => e.1 == f) || 4 ≤ x.fills.length then s
  else s.setCore c { x with fills := x.fills ++ [(f, sl, l.home)] }

/-- An honoured DPREF brings its column line into the slice; any other is dropped (R227). -/
def State.dpref (s : State) (sl : SlotId) (l : Loc) : State :=
  let c := slotCore sl
  match regionOf l.pa with
  | .hbm _ =>
    let line := lineOf l.pa
    let x := s.slice (sliceOf l.pa)
    if x.fenced || x.resident.contains line || x.mshr.any (fun m => m.1 == line) || 192 < x.mshr.length
      || 8 ≤ (s.core c).hints.length then s
    else (s.modSlice (sliceOf l.pa) fun y => { y with mshr := y.mshr ++ [(line, [])] }).modCore c fun y =>
      { y with hints := y.hints ++ [(line, sl)] }
  | _ => s

/-- A hint of a block: its translation, and what an honoured one does; a Steward's does nothing. -/
def hint (itlb : Bool) (acc : Access) (va : Word) (f : State → SlotId → Loc → State) : M Unit := do
  let s ← get
  match s.curSlot with
  | none => return ()
  | some sl => match ← translateHint s.walkSrc itlb s.ctx va acc with
    | none => return ()
    | some l => modify fun s => f s sl l

/-- IPREF (R216). -/
def execIpref (rs1 : Reg) (imm : BitVec 12) : State → Host.Outcome State Fault Refusal :=
  runInstr 4 (do
    noLane
    let a ← readX rs1
    let va := a + imm.signExtend 64
    hint true .ipref va fun s sl l => s.ipref sl va l)

/-- DPREF (R216). -/
def execDpref (rs1 : Reg) (imm : BitVec 12) : State → Host.Outcome State Fault Refusal :=
  runInstr 4 (do
    scalarGate [rs1] 0
    let a ← readX rs1
    hint false .dpref (a + imm.signExtend 64) State.dpref)

end Sys2Proof.Machine
end

