-- ==== Sys2Proof/Machine/Branch.lean ====
section
/-! DEFINITION. Branches, jumps, table jumps and BSTRIP (R217 - R220). -/
namespace Sys2Proof.Machine

/-- A word offset from an address (R217). -/
def wordsFrom (pc : Word) (off : BitVec 13) : Word := pc + (off.signExtend 64 <<< 2)

/-- A branch on a register that holds the result of a forcing instruction is a resynchronisation (R40). -/
def State.branchResync (s : State) (rs : List Reg) : State :=
  if rs.any (fun r => s.hart.forced.contains r) then s.modHart fun h => { h with resync := h.resync + 1 } else s

/-- A conditional branch (R217). -/
def branch (test : Word → Word → Bool) (rs1 rs2 : Reg) (off : BitVec 13) : State → Host.Outcome State Fault Refusal :=
  runJump (do
    noLane
    let a ← readX rs1
    let b ← readX rs2
    let pc := (← get).pc
    modify (·.branchResync [rs1, rs2])
    return if test a b then wordsFrom pc off else pc + 4)

/-- BEQ (R217). -/
def execBeq (rs1 rs2 : Reg) (off : BitVec 13) : State → Host.Outcome State Fault Refusal := branch (fun a b => a == b) rs1 rs2 off
/-- BNE (R217). -/
def execBne (rs1 rs2 : Reg) (off : BitVec 13) : State → Host.Outcome State Fault Refusal := branch (fun a b => a != b) rs1 rs2 off
/-- BLT (R217). -/
def execBlt (rs1 rs2 : Reg) (off : BitVec 13) : State → Host.Outcome State Fault Refusal := branch (fun a b => a.slt b) rs1 rs2 off
/-- BGE (R217). -/
def execBge (rs1 rs2 : Reg) (off : BitVec 13) : State → Host.Outcome State Fault Refusal := branch (fun a b => !a.slt b) rs1 rs2 off
/-- BLTN (R217). -/
def execBltn (rs1 rs2 : Reg) (off : BitVec 13) : State → Host.Outcome State Fault Refusal := branch (fun a b => a.ult b) rs1 rs2 off
/-- BGEN (R217). -/
def execBgen (rs1 rs2 : Reg) (off : BitVec 13) : State → Host.Outcome State Fault Refusal := branch (fun a b => !a.ult b) rs1 rs2 off

/-- JAL (R218). -/
def execJal (rd : Reg) (imm : BitVec 21) : State → Host.Outcome State Fault Refusal :=
  runJump (do
    noLane
    let pc := (← get).pc
    writeX rd (pc + 4)
    return pc + (imm.signExtend 64 <<< 2))

/-- JALR (R218): a is read before rd is written; bits 1 and 0 of the target are cleared. -/
def execJalr (rd rs1 : Reg) (imm : BitVec 16) : State → Host.Outcome State Fault Refusal :=
  runJump (do
    noLane
    let a ← readX rs1
    let pc := (← get).pc
    writeX rd (pc + 4)
    return (a + imm.signExtend 64) &&& ~~~3)

/-- The jump of JT (R219): `n` entries at most, of `size` table words in all. -/
def tableJump (wide : Bool) (xi xn : Reg) (size : BitVec 13) : M Word := do
  noLane
  let i ← readX xi
  let n ← readX xn
  let pc := (← get).pc
  let entries := if wide then size.toNat / 2 else size.toNat
  if Nat.min n.toNat entries ≤ i.toNat then return pc + 4 + BitVec.ofNat 64 (4 * size.toNat)
  else if wide then
    let t ← fetchDouble (pc + 4 + BitVec.ofNat 64 (8 * i.toNat))
    return BitVec.ofNat 64 t &&& ~~~3
  else
    let t ← fetchWord (pc + 4 + BitVec.ofNat 64 (4 * i.toNat))
    return (pc + (BitVec.ofNat 32 t).signExtend 64) &&& ~~~3

/-- JT.w (R219). -/
def execJtW (xi xn : Reg) (size : BitVec 13) : State → Host.Outcome State Fault Refusal := runJump (tableJump false xi xn size)
/-- JT.d (R219). -/
def execJtD (xi xn : Reg) (size : BitVec 13) : State → Host.Outcome State Fault Refusal := runJump (tableJump true xi xn size)

/-- BSTRIP (R220). -/
def execBstrip (rs1 rs2 : Reg) (off : BitVec 13) : State → Host.Outcome State Fault Refusal :=
  runJump (do
    noLane
    let n ← readX rs1
    let st ← readX rs2
    let s ← get
    let pc := s.pc
    let rem := n - (if st.ult n then st else n)
    let others := s.hart.tracker.filter (fun e => e.addr != pc)
    let e := s.hart.tracker.find? (fun e => e.addr == pc)
    let stuck := match e with | some e => !rem.ult e.last | none => false
    if stuck && (e.map (·.strike)).getD false then
      set (s.modHart fun h => { h with tracker := others })
      trap { cause := .noprogress, tval := pc
             tcoord := BitVec.ofNat 64 (s.lanesCtl * 2 ^ 8 + s.hart.vl.toNat % 2 ^ 24 * 2 ^ 40) }
    writeX rs1 rem
    if rem = 0 then
      modify fun s => s.modHart fun h => { h with tracker := others }
      return pc + 4
    else
      modify fun s => s.modHart fun h => { h with tracker := (⟨pc, rem, stuck⟩ :: others).take 8 }
      return wordsFrom pc off)

end Sys2Proof.Machine
end

