-- ==== Sys2Proof/Machine/Elementary.lean ====
section
/-! DEFINITION. VFEXP2 and VFLOG2, correctly rounded (R306), and the estimates of R307. An irrational value is bracketed
ever more closely until both ends round alike. -/
namespace Sys2Proof.Machine

/-- A number strictly between lo and lo + width (units 2^e), rounded where every such number rounds alike: each end
stands for the open interval's side of it. -/
def Fl.between (f : Fl) (rm : Rnd) (neg : Bool) (lo width : Nat) (e : Int) : Option (Nat × Nat) :=
  let a := f.round rm neg (2 * lo + 1) (e - 1)
  let b := f.round rm neg (2 * (lo + width) - 1) (e - 1)
  if a = b then some a else none

/-- 2^(0.b) scaled by 2^p, from below, for a fraction of `k` bits: each bit from the last is a square root. -/
def exp2Low (p : Nat) : Nat → Nat → Nat → Nat
  | 0, _, y => y
  | k + 1, b, y => exp2Low p k (b / 2) (isqrt (p + 2) (y * 2 ^ p * (1 + b % 2)))

/-- 2^x for a fraction frac / 2^d below 1, as a lower bound scaled by 2^p within 8 units. -/
def exp2Frac (p frac d : Nat) : Nat :=
  let k := p + 4
  exp2Low p k (if d ≤ k then frac * 2 ^ (k - d) else frac / 2 ^ (d - k)) (2 ^ p)

/-- Try precisions in turn. -/
def firstSome {α : Type} (d : α) (f : Nat → Option α) : List Nat → α
  | [] => d
  | p :: rest => match f p with | some v => v | none => firstSome d f rest

/-- Working precisions; the hardest arguments of the formats need fewer than 256 bits. -/
def precisions : List Nat := [96, 288, 1200]

/-- 2^x in a format (R306). -/
def Fl.exp2 (f : Fl) (rm : Rnd) (a : Nat) : Nat × Nat :=
  match f.decode a with
  | .nan s => (f.canonNaN, if s then flagNV else 0)
  | .inf n => if n then (f.zero false, 0) else (f.infinity false, 0)
  | .num n m e =>
    if m = 0 then f.round rm false 1 0
    else if decide (20 ≤ e + Nat.log2 m) then f.round rm false 1 (if n then -(2 ^ 20) else 2 ^ 20)
    else if 0 ≤ e then f.round rm false 1 (if n then -((m * 2 ^ e.toNat : Nat) : Int) else (m * 2 ^ e.toNat : Nat))
    else
      let d := (-e).toNat
      let v : Int := if n then -(m : Int) else (m : Int)
      let q := v / (2 ^ d : Nat)
      let r := (v % (2 ^ d : Nat)).toNat
      if r = 0 then f.round rm false 1 q
      else firstSome (f.round rm false (exp2Frac 96 r d) (q - 96))
        (fun p => f.between rm false (exp2Frac p r d) 8 (q - p)) precisions

/-- Bits of log2 y for y in [1, 2), y between lo and hi scaled by 2^p: a lower bound and a width, in units of the last
of k bits. -/
def log2Bits (p : Nat) : Nat → Nat → Nat → Nat → Nat × Nat
  | 0, _, _, acc => (acc, 1)
  | k + 1, lo, hi, acc =>
    let lo := lo * lo / 2 ^ p
    let hi := hi * hi / 2 ^ p + 1
    if 2 ^ (p + 1) ≤ lo then log2Bits p k (lo / 2) (hi / 2 + 1) (2 * acc + 1)
    else if hi < 2 ^ (p + 1) then log2Bits p k lo hi (2 * acc)
    else (acc * 2 ^ (k + 1), 2 ^ (k + 1))

/-- log2 x in a format (R306). -/
def Fl.log2 (f : Fl) (rm : Rnd) (a : Nat) : Nat × Nat :=
  match f.decode a with
  | .nan s => (f.canonNaN, if s then flagNV else 0)
  | .inf n => if n then (f.canonNaN, flagNV) else (f.infinity false, 0)
  | .num n m e =>
    if m = 0 then (f.infinity true, flagDZ)
    else if n then (f.canonNaN, flagNV)
    else
      let t := Nat.log2 m
      let k : Int := e + t
      if m = 2 ^ t then f.round rm (decide (k < 0)) k.natAbs 0
      else
        let go (p : Nat) : Option (Nat × Nat) :=
          let w := 2 * p + 64
          let y := m * 2 ^ w / 2 ^ t
          let b := log2Bits w p y y 0
          let lo : Int := k * (2 ^ p : Nat) + b.1
          if 0 ≤ lo then f.between rm false lo.toNat b.2 (-(p : Int))
          else f.between rm true (-lo - b.2).toNat b.2 (-(p : Int))
        firstSome (f.canonNaN, 0) go [160, 320, 1300]

/-- An estimate's number rounded by RNE to 7 fraction bits with an unbounded exponent, then to the format; neither
rounding raises a flag (R307). -/
def Fl.estimate (f : Fl) (neg : Bool) (m : Nat) (e : Int) : Nat :=
  let q := e + Nat.log2 m - 7
  (f.round .rne neg (roundAt .rne neg m e q).1 q).1

/-- VFRECE (R307). -/
def Fl.recip (f : Fl) (a : Nat) : Nat × Nat :=
  match f.decode a with
  | .nan s => (f.canonNaN, if s then flagNV else 0)
  | .inf n => (f.zero n, 0)
  | .num n m e => if m = 0 then (f.infinity n, flagDZ) else (f.estimate n (divMag 1 m) (-e - 129 - Nat.log2 m), 0)

/-- VFRSQE (R307): the root of the reciprocal, from a quotient with its sticky bit. -/
def Fl.rsqrt (f : Fl) (a : Nat) : Nat × Nat :=
  match f.decode a with
  | .nan s => (f.canonNaN, if s then flagNV else 0)
  | .inf n => if n then (f.canonNaN, flagNV) else (f.zero false, 0)
  | .num n m e =>
    if m = 0 then (f.infinity n, flagDZ)
    else if n then (f.canonNaN, flagNV)
    else
      let t := Nat.log2 m
      let d := 2 * (2 ^ (64 + t) / m) + (if 2 ^ (64 + t) % m = 0 then 0 else 1)
      let r := sqrtMag d (-e - 65 - t)
      (f.estimate false r.1 r.2, 0)

end Sys2Proof.Machine
end

