-- ==== Sys2Proof/Machine/VecInt.lean ====
section
/-! DEFINITION. Vector integer instructions, major 0x1D (R86, R301 - R305). -/
namespace Sys2Proof.Machine

/-- The vector sources of a V-form word with elements of w2 and w1 bits. -/
def vvSrcs (k : VKind) (s1 vs2 : Reg) (w2 w1 : VCtx → Nat) (c : VCtx) : List VOpnd :=
  c.grp vs2 (w2 c) :: (if k == .vv then [c.grp s1 (w1 c)] else [])

def vvKeys (k : VKind) (s1 vs2 : Reg) : List Reg := vs2 :: (if k == .vv then [s1] else [])

/-- An integer element step on SEW-bit elements s2, s1 and the old vd; `acc` where it reads vd, `uns` where imm5 is
unsigned (R71). -/
def intOp (f6 : Nat) (k : VKind) (vm : Bool) (vd s1 vs2 : Reg) (acc uns : Bool)
    (step : VCtx → Nat → Nat → Nat → Nat × Nat) : State → Host.Outcome State Fault Refusal :=
  VSpec.run
    { dst := fun c => c.grp vd c.sew
      srcs := fun c => vvSrcs k s1 vs2 VCtx.sew VCtx.sew c ++ (if acc then [c.grp vd c.sew] else [])
      keySrcs := vvKeys k s1 vs2
      keep := acc
      elems := fun c act => act.map fun i =>
        (i, step c (c.elem vs2 c.sew i) (c.s1 k s1 c.sew uns .f64 i) (c.elem vd c.sew i)) }
    { major := 0x1D, f6 := f6, kind := k, vm := vm, vd := vd, s1 := s1, vs2 := vs2 }

/-- A plain step that raises nothing (R301): s2, s1, SEW. -/
def plainOp (f6 : Nat) (k : VKind) (vm : Bool) (vd s1 vs2 : Reg) (uns : Bool) (f : Nat → Nat → Nat → Nat) :
    State → Host.Outcome State Fault Refusal :=
  intOp f6 k vm vd s1 vs2 false uns fun c a b _ => (f a b c.sew % 2 ^ c.sew, 0)

/-- A widening step (R300, R301): destination elements of 2 x SEW bits; SEW 64 is reserved. -/
def wideOp (f6 : Nat) (k : VKind) (vm : Bool) (vd s1 vs2 : Reg) (f : Nat → Nat → Nat → Nat) :
    State → Host.Outcome State Fault Refusal :=
  VSpec.run
    { bad := fun c => c.sew == 64
      dst := fun c => c.grp vd (2 * c.sew)
      srcs := vvSrcs k s1 vs2 VCtx.sew VCtx.sew
      keySrcs := vvKeys k s1 vs2
      elems := fun c act => act.map fun i =>
        (i, f (c.elem vs2 c.sew i) (c.s1 k s1 c.sew false .f64 i) c.sew % 2 ^ (2 * c.sew), 0) }
    { major := 0x1D, f6 := f6, kind := k, vm := vm, vd := vd, s1 := s1, vs2 := vs2 }

/-- An exact value saturated to SEW bits; clamping sets vxsat (R109, R302). -/
def satElem (signed : Bool) (w : Nat) (v : Int) : Nat × Nat :=
  let r := saturate signed w v
  (wrap r.1 w, if r.2 then 32 else 0)

/-- A saturating step (R302). -/
def satOp (f6 : Nat) (k : VKind) (vm : Bool) (vd s1 vs2 : Reg) (signed : Bool) (f : Int → Int → Int) :
    State → Host.Outcome State Fault Refusal :=
  intOp f6 k vm vd s1 vs2 false false fun c a b _ =>
    if signed then satElem true c.sew (f (sint a c.sew) (sint b c.sew)) else satElem false c.sew (f a b)

/-- A narrowing shift (R303): vs2 has elements of 2 x SEW bits. LMUL 1 is accepted, its source a group of EMUL 2 (R96), though
R300 also has a narrowing operation need LMUL k: the model's choice (log 88). -/
def narrowOp (f6 : Nat) (k : VKind) (vm : Bool) (vd s1 vs2 : Reg) (signed : Bool) :
    State → Host.Outcome State Fault Refusal :=
  VSpec.run
    { bad := fun c => c.sew == 64
      dst := fun c => c.grp vd c.sew
      srcs := vvSrcs k s1 vs2 (fun c => 2 * c.sew) VCtx.sew
      keySrcs := vvKeys k s1 vs2
      elems := fun c act => act.map fun i =>
        let a := c.elem vs2 (2 * c.sew) i
        let d := c.s1 k s1 c.sew true .f64 i % (2 * c.sew)
        (i, satElem signed c.sew (roundOff c.vxrm (if signed then sint a (2 * c.sew) else (a : Int)) d)) }
    { major := 0x1D, f6 := f6, kind := k, vm := vm, vd := vd, s1 := s1, vs2 := vs2 }

/-- Signed operands, result modulo 2^w. -/
def onInts (f : Int → Int → Int) (a b w : Nat) : Nat := wrap (f (sint a w) (sint b w)) w

/-- VCMP conditions on SEW-bit elements (R304). -/
def vcmpHolds (c : VCond) (a b w : Nat) : Bool :=
  match c with
  | .eq => a == b
  | .ne => a != b
  | .lt => decide (sint a w < sint b w)
  | .le => decide (sint a w ≤ sint b w)
  | .gt => decide (sint b w < sint a w)
  | .ge => decide (sint b w ≤ sint a w)
  | .ltn => decide (a < b)
  | .len => decide (a ≤ b)
  | .gtn => decide (b < a)
  | .gen => decide (b ≤ a)

/-- VADD (R301). -/
def execVadd (k : VKind) (vm : Bool) (vd s1 vs2 : Reg) : State → Host.Outcome State Fault Refusal :=
  plainOp 0x00 k vm vd s1 vs2 false fun a b _ => a + b

/-- VSUB (R301). -/
def execVsub (k : VKind) (vm : Bool) (vd s1 vs2 : Reg) : State → Host.Outcome State Fault Refusal :=
  plainOp 0x01 k vm vd s1 vs2 false fun a b w => a + 2 ^ w - b

/-- VRSUB (R301). -/
def execVrsub (k : VKind) (vm : Bool) (vd s1 vs2 : Reg) : State → Host.Outcome State Fault Refusal :=
  plainOp 0x02 k vm vd s1 vs2 false fun a b w => b + 2 ^ w - a

/-- VMUL (R301). -/
def execVmul (k : VKind) (vm : Bool) (vd s1 vs2 : Reg) : State → Host.Outcome State Fault Refusal :=
  plainOp 0x03 k vm vd s1 vs2 false fun a b _ => a * b

/-- VMULH (R301). -/
def execVmulh (k : VKind) (vm : Bool) (vd s1 vs2 : Reg) : State → Host.Outcome State Fault Refusal :=
  plainOp 0x04 k vm vd s1 vs2 false fun a b w => wrap (sint a w * sint b w / (2 ^ w : Nat)) w

/-- VMULHN (R301). -/
def execVmulhn (k : VKind) (vm : Bool) (vd s1 vs2 : Reg) : State → Host.Outcome State Fault Refusal :=
  plainOp 0x05 k vm vd s1 vs2 false fun a b w => a * b / 2 ^ w

/-- VDIV (R301). -/
def execVdiv (k : VKind) (vm : Bool) (vd s1 vs2 : Reg) : State → Host.Outcome State Fault Refusal :=
  plainOp 0x06 k vm vd s1 vs2 false fun a b w => onInts divSigned a b w

/-- VDIVN (R301). -/
def execVdivn (k : VKind) (vm : Bool) (vd s1 vs2 : Reg) : State → Host.Outcome State Fault Refusal :=
  plainOp 0x07 k vm vd s1 vs2 false fun a b w => divUnsigned w a b

/-- VREM (R301). -/
def execVrem (k : VKind) (vm : Bool) (vd s1 vs2 : Reg) : State → Host.Outcome State Fault Refusal :=
  plainOp 0x08 k vm vd s1 vs2 false fun a b w => onInts remSigned a b w

/-- VREMN (R301). -/
def execVremn (k : VKind) (vm : Bool) (vd s1 vs2 : Reg) : State → Host.Outcome State Fault Refusal :=
  plainOp 0x09 k vm vd s1 vs2 false fun a b _ => remUnsigned a b

/-- VMIN (R301). -/
def execVmin (k : VKind) (vm : Bool) (vd s1 vs2 : Reg) : State → Host.Outcome State Fault Refusal :=
  plainOp 0x0A k vm vd s1 vs2 false fun a b w => if sint a w ≤ sint b w then a else b

/-- VMAX (R301). -/
def execVmax (k : VKind) (vm : Bool) (vd s1 vs2 : Reg) : State → Host.Outcome State Fault Refusal :=
  plainOp 0x0B k vm vd s1 vs2 false fun a b w => if sint a w ≤ sint b w then b else a

/-- VMINN (R301). -/
def execVminn (k : VKind) (vm : Bool) (vd s1 vs2 : Reg) : State → Host.Outcome State Fault Refusal :=
  plainOp 0x0C k vm vd s1 vs2 false fun a b _ => Nat.min a b

/-- VMAXN (R301). -/
def execVmaxn (k : VKind) (vm : Bool) (vd s1 vs2 : Reg) : State → Host.Outcome State Fault Refusal :=
  plainOp 0x0D k vm vd s1 vs2 false fun a b _ => Nat.max a b

/-- VAND (R301). -/
def execVand (k : VKind) (vm : Bool) (vd s1 vs2 : Reg) : State → Host.Outcome State Fault Refusal :=
  plainOp 0x0E k vm vd s1 vs2 false fun a b _ => a &&& b

/-- VOR (R301). -/
def execVor (k : VKind) (vm : Bool) (vd s1 vs2 : Reg) : State → Host.Outcome State Fault Refusal :=
  plainOp 0x0F k vm vd s1 vs2 false fun a b _ => a ||| b

/-- VXOR (R301). -/
def execVxor (k : VKind) (vm : Bool) (vd s1 vs2 : Reg) : State → Host.Outcome State Fault Refusal :=
  plainOp 0x10 k vm vd s1 vs2 false fun a b _ => a ^^^ b

/-- VSLL (R301). -/
def execVsll (k : VKind) (vm : Bool) (vd s1 vs2 : Reg) : State → Host.Outcome State Fault Refusal :=
  plainOp 0x11 k vm vd s1 vs2 true fun a b w => a * 2 ^ (b % w)

/-- VSRL (R301). -/
def execVsrl (k : VKind) (vm : Bool) (vd s1 vs2 : Reg) : State → Host.Outcome State Fault Refusal :=
  plainOp 0x12 k vm vd s1 vs2 true fun a b w => a / 2 ^ (b % w)

/-- VSRA (R301). -/
def execVsra (k : VKind) (vm : Bool) (vd s1 vs2 : Reg) : State → Host.Outcome State Fault Refusal :=
  plainOp 0x13 k vm vd s1 vs2 true fun a b w => wrap (sint a w / (2 ^ (b % w) : Nat)) w

/-- VNSRL (R303). -/
def execVnsrl (k : VKind) (vm : Bool) (vd s1 vs2 : Reg) : State → Host.Outcome State Fault Refusal :=
  narrowOp 0x14 k vm vd s1 vs2 false

/-- VNSRA (R303). -/
def execVnsra (k : VKind) (vm : Bool) (vd s1 vs2 : Reg) : State → Host.Outcome State Fault Refusal :=
  narrowOp 0x15 k vm vd s1 vs2 true

/-- VWADD (R301). -/
def execVwadd (k : VKind) (vm : Bool) (vd s1 vs2 : Reg) : State → Host.Outcome State Fault Refusal :=
  wideOp 0x16 k vm vd s1 vs2 fun a b w => wrap (sint a w + sint b w) (2 * w)

/-- VWADDN (R301). -/
def execVwaddn (k : VKind) (vm : Bool) (vd s1 vs2 : Reg) : State → Host.Outcome State Fault Refusal :=
  wideOp 0x17 k vm vd s1 vs2 fun a b _ => a + b

/-- VWMUL (R301). -/
def execVwmul (k : VKind) (vm : Bool) (vd s1 vs2 : Reg) : State → Host.Outcome State Fault Refusal :=
  wideOp 0x18 k vm vd s1 vs2 fun a b w => wrap (sint a w * sint b w) (2 * w)

/-- VWMULN (R301). -/
def execVwmuln (k : VKind) (vm : Bool) (vd s1 vs2 : Reg) : State → Host.Outcome State Fault Refusal :=
  wideOp 0x19 k vm vd s1 vs2 fun a b _ => a * b

/-- VSADD (R302). -/
def execVsadd (k : VKind) (vm : Bool) (vd s1 vs2 : Reg) : State → Host.Outcome State Fault Refusal :=
  satOp 0x1A k vm vd s1 vs2 true fun a b => a + b

/-- VSADDN (R302). -/
def execVsaddn (k : VKind) (vm : Bool) (vd s1 vs2 : Reg) : State → Host.Outcome State Fault Refusal :=
  satOp 0x1B k vm vd s1 vs2 false fun a b => a + b

/-- VSSUB (R302). -/
def execVssub (k : VKind) (vm : Bool) (vd s1 vs2 : Reg) : State → Host.Outcome State Fault Refusal :=
  satOp 0x1C k vm vd s1 vs2 true fun a b => a - b

/-- VSSUBN (R302). -/
def execVssubn (k : VKind) (vm : Bool) (vd s1 vs2 : Reg) : State → Host.Outcome State Fault Refusal :=
  satOp 0x1D k vm vd s1 vs2 false fun a b => a - b

/-- VMACC (R301). -/
def execVmacc (k : VKind) (vm : Bool) (vd s1 vs2 : Reg) : State → Host.Outcome State Fault Refusal :=
  intOp 0x1E k vm vd s1 vs2 true false fun c a b o => ((o + a * b) % 2 ^ c.sew, 0)

/-- VNMSAC (R301). -/
def execVnmsac (k : VKind) (vm : Bool) (vd s1 vs2 : Reg) : State → Host.Outcome State Fault Refusal :=
  intOp 0x1F k vm vd s1 vs2 true false fun c a b o => (wrap ((o : Int) - a * b) c.sew, 0)

/-- VMERGE (R305): active are the elements whose v0 bit is 1; it writes every element of the range. -/
def execVmerge (k : VKind) (vd s1 vs2 : Reg) : State → Host.Outcome State Fault Refusal :=
  VSpec.run
    { dst := fun c => c.grp vd c.sew
      srcs := vvSrcs k s1 vs2 VCtx.sew VCtx.sew
      keySrcs := vvKeys k s1 vs2
      elems := fun c _ => c.range.map fun i =>
        (i, if c.bit 0 i then c.s1 k s1 c.sew false .f64 i else c.elem vs2 c.sew i, 0) }
    { major := 0x1D, f6 := 0x20, kind := k, vm := false, vd := vd, s1 := s1, vs2 := vs2 }

/-- VMV (R305). -/
def execVmv (k : VKind) (vd s1 : Reg) : State → Host.Outcome State Fault Refusal :=
  VSpec.run
    { dst := fun c => c.grp vd c.sew
      srcs := fun c => if k == .vv then [c.grp s1 c.sew] else []
      keySrcs := if k == .vv then [s1] else []
      elems := fun c act => act.map fun i => (i, c.s1 k s1 c.sew false .f64 i, 0) }
    { major := 0x1D, f6 := 0x21, kind := k, vd := vd, s1 := s1 }

/-- VCMP (R304). -/
def execVcmp (c : VCond) (k : VKind) (vm : Bool) (vd s1 vs2 : Reg) : State → Host.Outcome State Fault Refusal :=
  VSpec.run
    { dst := fun _ => maskOp vd
      srcs := vvSrcs k s1 vs2 VCtx.sew VCtx.sew
      keySrcs := vvKeys k s1 vs2
      elems := fun x act => act.map fun i =>
        (i, if vcmpHolds c (x.elem vs2 x.sew i) (x.s1 k s1 x.sew false .f64 i) x.sew then 1 else 0, 0) }
    { major := 0x1D, f6 := c.code, kind := k, vm := vm, vd := vd, s1 := s1, vs2 := vs2 }

end Sys2Proof.Machine
end

