-- ==== Sys2Proof/Machine/VecFp.lean ====
section
/-! DEFINITION. Vector floating point, major 0x1E (R87, R306 - R308), and the log format, major 0x1F (R309 - R312). -/
namespace Sys2Proof.Machine

/-- The rounding mode of ctl.fcsr.frm; a reserved frm has raised ILLEGAL before (R103). -/
def VCtx.rnd (c : VCtx) : Rnd := (rndOf c.frm).getD .rne

/-- SEW 8 is reserved, the alternate format exists at SEW 16 only, and a rounding form needs a legal frm (R85, R87,
R103). -/
def fpBad (alt rounds : Bool) (c : VCtx) : Bool := c.sew == 8 || (alt && c.sew != 16) || (rounds && decide (4 < c.frm))

def subAlt (alt : Bool) : Nat := if alt then 1 else 0

/-- A two-operand floating step: format, mode, s2, f1, old vd (R306). -/
def vfOp (f6 : Nat) (k : VKind) (alt vm : Bool) (vd s1 vs2 : Reg) (acc rounds : Bool)
    (step : Fl → Rnd → Nat → Nat → Nat → Nat × Nat) : State → Host.Outcome State Fault Refusal :=
  VSpec.run
    { bad := fpBad alt rounds
      dst := fun c => c.grp vd c.sew
      srcs := fun c => vvSrcs k s1 vs2 VCtx.sew VCtx.sew c ++ (if acc then [c.grp vd c.sew] else [])
      keySrcs := vvKeys k s1 vs2
      keep := acc
      fp := true
      elems := fun c act => act.map fun i =>
        (i, step (vfmt c.sew alt) c.rnd (c.elem vs2 c.sew i) (c.s1 k s1 c.sew false (vfmt c.sew alt) i)
          (c.elem vd c.sew i)) }
    { major := 0x1E, f6 := f6, kind := k, sub := subAlt alt, vm := vm, vd := vd, s1 := s1, vs2 := vs2 }

/-- A one-operand floating step (R306, R307). -/
def vfUnary (f6 : Nat) (alt vm : Bool) (vd vs2 : Reg) (rounds : Bool) (step : Fl → Rnd → Nat → Nat × Nat) :
    State → Host.Outcome State Fault Refusal :=
  VSpec.run
    { bad := fpBad alt rounds
      dst := fun c => c.grp vd c.sew
      srcs := fun c => [c.grp vs2 c.sew]
      keySrcs := [vs2]
      fp := true
      elems := fun c act => act.map fun i => (i, step (vfmt c.sew alt) c.rnd (c.elem vs2 c.sew i)) }
    { major := 0x1E, f6 := f6, sub := subAlt alt, vm := vm, vd := vd, vs2 := vs2 }

/-- Combinations of VFCVT that R308 excludes. -/
def vfcvtBad (code : Nat) (salt dalt : Bool) (c : VCtx) : Bool :=
  (code != 4 && code != 5 && decide (4 < c.frm)) ||
  (if code < 2 then c.sew == 8 || salt || (dalt && c.sew != 16)
   else if code < 6 then c.sew == 8 || dalt || (salt && c.sew != 16)
   else if code = 6 then c.sew == 64 || (salt && decide (16 < c.sew)) || (dalt && c.sew != 8)
   else if c.sew = 8 then salt == dalt
   else (salt && c.sew != 16) || (dalt && c.sew == 64))

/-- Destination width of VFCVT (R308). -/
def vfcvtDst (code sew : Nat) : Nat :=
  if code = 6 then 2 * sew else if code = 7 then (if sew = 8 then 8 else sew / 2) else sew

/-- One element converted (R120, R308). -/
def vfcvtElem (code : Nat) (salt dalt : Bool) (sew : Nat) (r : Rnd) (a : Nat) : Nat × Nat :=
  let src := vfmt sew salt
  let dst := vfmt (vfcvtDst code sew) dalt
  match code with
  | 0 => dst.ofInt r (sint a sew)
  | 1 => dst.ofInt r a
  | 2 => toIntV (src.decode a) r true sew
  | 3 => toIntV (src.decode a) r false sew
  | 4 => toIntV (src.decode a) .rtz true sew
  | 5 => toIntV (src.decode a) .rtz false sew
  | _ => Fl.convert src dst r a

/-- VFCVT (R308). -/
def execVfcvt (code : BitVec 3) (salt dalt vm : Bool) (vd vs2 : Reg) : State → Host.Outcome State Fault Refusal :=
  VSpec.run
    { bad := vfcvtBad code.toNat salt dalt
      dst := fun c => c.grp vd (vfcvtDst code.toNat c.sew)
      srcs := fun c => [c.grp vs2 c.sew]
      keySrcs := [vs2]
      fp := true
      codeInS1 := true
      elems := fun c act => act.map fun i =>
        (i, vfcvtElem code.toNat salt dalt c.sew c.rnd (c.elem vs2 c.sew i)) }
    { major := 0x1E, f6 := 0x13, sub := subAlt salt + 2 * subAlt dalt, vm := vm, vd := vd, s1 := code.zeroExtend 5
      vs2 := vs2 }

/-- VFCMP (R306, R121). -/
def execVfcmp (c : FCond) (k : VKind) (alt vm : Bool) (vd s1 vs2 : Reg) : State → Host.Outcome State Fault Refusal :=
  VSpec.run
    { bad := fpBad alt false
      dst := fun _ => maskOp vd
      srcs := vvSrcs k s1 vs2 VCtx.sew VCtx.sew
      keySrcs := vvKeys k s1 vs2
      fp := true
      elems := fun x act => act.map fun i =>
        let r := (vfmt x.sew alt).cmp c (x.elem vs2 x.sew i) (x.s1 k s1 x.sew false (vfmt x.sew alt) i)
        (i, if r.1 then 1 else 0, r.2) }
    { major := 0x1E, f6 := c.code, kind := k, sub := subAlt alt, vm := vm, vd := vd, s1 := s1, vs2 := vs2 }

/-- VFADD (R306). -/
def execVfadd (k : VKind) (alt vm : Bool) (vd s1 vs2 : Reg) : State → Host.Outcome State Fault Refusal :=
  vfOp 0x00 k alt vm vd s1 vs2 false true fun f r a b _ => f.add r a b

/-- VFSUB (R306). -/
def execVfsub (k : VKind) (alt vm : Bool) (vd s1 vs2 : Reg) : State → Host.Outcome State Fault Refusal :=
  vfOp 0x01 k alt vm vd s1 vs2 false true fun f r a b _ => f.sub r a b

/-- VFRSUB (R306). -/
def execVfrsub (k : VKind) (alt vm : Bool) (vd s1 vs2 : Reg) : State → Host.Outcome State Fault Refusal :=
  vfOp 0x02 k alt vm vd s1 vs2 false true fun f r a b _ => f.sub r b a

/-- VFMUL (R306). -/
def execVfmul (k : VKind) (alt vm : Bool) (vd s1 vs2 : Reg) : State → Host.Outcome State Fault Refusal :=
  vfOp 0x03 k alt vm vd s1 vs2 false true fun f r a b _ => f.mul r a b

/-- VFDIV (R306). -/
def execVfdiv (k : VKind) (alt vm : Bool) (vd s1 vs2 : Reg) : State → Host.Outcome State Fault Refusal :=
  vfOp 0x04 k alt vm vd s1 vs2 false true fun f r a b _ => f.div r a b

/-- VFRDIV (R306). -/
def execVfrdiv (k : VKind) (alt vm : Bool) (vd s1 vs2 : Reg) : State → Host.Outcome State Fault Refusal :=
  vfOp 0x05 k alt vm vd s1 vs2 false true fun f r a b _ => f.div r b a

/-- VFSQRT (R306). -/
def execVfsqrt (alt vm : Bool) (vd vs2 : Reg) : State → Host.Outcome State Fault Refusal :=
  vfUnary 0x06 alt vm vd vs2 true fun f r a => f.sqrt r a

/-- VFRECE (R307). -/
def execVfrece (alt vm : Bool) (vd vs2 : Reg) : State → Host.Outcome State Fault Refusal :=
  vfUnary 0x07 alt vm vd vs2 false fun f _ a => f.recip a

/-- VFRSQE (R307). -/
def execVfrsqe (alt vm : Bool) (vd vs2 : Reg) : State → Host.Outcome State Fault Refusal :=
  vfUnary 0x08 alt vm vd vs2 false fun f _ a => f.rsqrt a

/-- VFEXP2 (R306). -/
def execVfexp2 (alt vm : Bool) (vd vs2 : Reg) : State → Host.Outcome State Fault Refusal :=
  vfUnary 0x09 alt vm vd vs2 true fun f r a => f.exp2 r a

/-- VFLOG2 (R306). -/
def execVflog2 (alt vm : Bool) (vd vs2 : Reg) : State → Host.Outcome State Fault Refusal :=
  vfUnary 0x0A alt vm vd vs2 true fun f r a => f.log2 r a

/-- VFMACC (R306). -/
def execVfmacc (k : VKind) (alt vm : Bool) (vd s1 vs2 : Reg) : State → Host.Outcome State Fault Refusal :=
  vfOp 0x0B k alt vm vd s1 vs2 true true fun f r a b o => f.fma r false false b a o

/-- VFNMACC (R306). -/
def execVfnmacc (k : VKind) (alt vm : Bool) (vd s1 vs2 : Reg) : State → Host.Outcome State Fault Refusal :=
  vfOp 0x0C k alt vm vd s1 vs2 true true fun f r a b o => f.fma r true true b a o

/-- VFMSAC (R306). -/
def execVfmsac (k : VKind) (alt vm : Bool) (vd s1 vs2 : Reg) : State → Host.Outcome State Fault Refusal :=
  vfOp 0x0D k alt vm vd s1 vs2 true true fun f r a b o => f.fma r false true b a o

/-- VFNMSAC (R306). -/
def execVfnmsac (k : VKind) (alt vm : Bool) (vd s1 vs2 : Reg) : State → Host.Outcome State Fault Refusal :=
  vfOp 0x0E k alt vm vd s1 vs2 true true fun f r a b o => f.fma r true false b a o

/-- VFMIN (R306). -/
def execVfmin (k : VKind) (alt vm : Bool) (vd s1 vs2 : Reg) : State → Host.Outcome State Fault Refusal :=
  vfOp 0x0F k alt vm vd s1 vs2 false false fun f _ a b _ => f.minmax false a b

/-- VFMAX (R306). -/
def execVfmax (k : VKind) (alt vm : Bool) (vd s1 vs2 : Reg) : State → Host.Outcome State Fault Refusal :=
  vfOp 0x10 k alt vm vd s1 vs2 false false fun f _ a b _ => f.minmax true a b

/-- VFSGNJ (R306). -/
def execVfsgnj (k : VKind) (alt vm : Bool) (vd s1 vs2 : Reg) : State → Host.Outcome State Fault Refusal :=
  vfOp 0x11 k alt vm vd s1 vs2 false false fun f _ a b _ => (f.sgnj 0 a b, 0)

/-- VFSGNJ_N (R306). -/
def execVfsgnjN (k : VKind) (alt vm : Bool) (vd s1 vs2 : Reg) : State → Host.Outcome State Fault Refusal :=
  vfOp 0x14 k alt vm vd s1 vs2 false false fun f _ a b _ => (f.sgnj 1 a b, 0)

/-- VFSGNJ_X (R306). -/
def execVfsgnjX (k : VKind) (alt vm : Bool) (vd s1 vs2 : Reg) : State → Host.Outcome State Fault Refusal :=
  vfOp 0x15 k alt vm vd s1 vs2 false false fun f _ a b _ => (f.sgnj 2 a b, 0)

/-- VFCLASS (R306). -/
def execVfclass (alt vm : Bool) (vd vs2 : Reg) : State → Host.Outcome State Fault Refusal :=
  vfUnary 0x12 alt vm vd vs2 false fun f _ a => (f.classify a, 0)

/-! ### The log format (R309 - R312) -/

/-- VLMUL (R310): the exact product, converted by R124. -/
def lgMul (a b : Nat) : Nat × Nat :=
  match lgProduct a b with
  | none => (0x20, 0)
  | some v => lgOf (.num (decide (v < 0)) v.natAbs (-20))

/-- VLSCALE (R310): k added to the code. -/
def lgScale (a : Nat) (k : Int) : Nat × Nat :=
  let code := a % 32
  let sign := a / 32 % 2 * 32
  if code = 0 then (sign, 0)
  else
    let c := (code : Int) + k
    if 31 < c then (sign + 31, flagOF + flagNX)
    else if c < 1 then (0, flagUF + flagNX)
    else (sign + c.toNat, 0)

/-- VLMUL (R310). -/
def execVlmul (vm : Bool) (vd vs1 vs2 : Reg) : State → Host.Outcome State Fault Refusal :=
  VSpec.run
    { bad := fun c => c.sew != 8
      dst := fun c => c.grp vd c.sew
      srcs := vvSrcs .vv vs1 vs2 VCtx.sew VCtx.sew
      keySrcs := [vs2, vs1]
      fp := true
      elems := fun c act => act.map fun i => (i, lgMul (c.elem vs2 8 i) (c.elem vs1 8 i)) }
    { major := 0x1F, f6 := 0, vm := vm, vd := vd, s1 := vs1, vs2 := vs2 }

/-- VLSCALE (R310). -/
def execVlscale (k : VKind) (vm : Bool) (vd s1 vs2 : Reg) : State → Host.Outcome State Fault Refusal :=
  VSpec.run
    { bad := fun c => c.sew != 8
      dst := fun c => c.grp vd c.sew
      srcs := vvSrcs k s1 vs2 VCtx.sew VCtx.sew
      keySrcs := vvKeys k s1 vs2
      fp := true
      elems := fun c act => act.map fun i => (i, lgScale (c.elem vs2 8 i) (sint (c.s1 k s1 8 false .f64 i) 8)) }
    { major := 0x1F, f6 := 3, kind := k, vm := vm, vd := vd, s1 := s1, vs2 := vs2 }

/-- One group of VLDOT (R311): the old element, and the products of its active elements. -/
def lgDot (old : Nat) (ps : List (Option Int)) : Nat × Nat :=
  let g := lgGroup ps
  let r := Fl.add .f32 .rne old g.1
  (r.1, orFlags (orFlags g.2 r.2) (if ps.any Option.isNone then flagNV else 0))

/-- VLDOT (R311). -/
def execVldot (vm : Bool) (vd vs1 vs2 : Reg) : State → Host.Outcome State Fault Refusal :=
  VSpec.run
    { bad := fun c => c.sew != 8
      dst := fun _ => oneOp vd 32
      srcs := fun c => [c.grp vs2 8, c.grp vs1 8, oneOp vd 32]
      keySrcs := [vs2, vs1]
      keep := true
      fp := true
      trapAt := fun c j => Nat.max c.vstart (32 * j)
      elems := fun c act => ((List.range ((c.vl + 31) / 32)).filter fun j => act.any fun i => i / 32 == j).map fun j =>
        (j, lgDot (c.elem vd 32 j)
          ((act.filter fun i => i / 32 == j).map fun i => lgProduct (c.elem vs2 8 i) (c.elem vs1 8 i))) }
    { major := 0x1F, f6 := 1, vm := vm, vd := vd, s1 := vs1, vs2 := vs2 }

/-- VLCVT (R312): to lg6 by R124, or from it, rounded by RNE. -/
def execVlcvt (fromLg alt vm : Bool) (vd vs2 : Reg) : State → Host.Outcome State Fault Refusal :=
  VSpec.run
    { bad := fun c => c.sew == 8 || (alt && c.sew != 16)
      dst := fun c => c.grp vd (if fromLg then c.sew else 8)
      srcs := fun c => [c.grp vs2 (if fromLg then 8 else c.sew)]
      keySrcs := [vs2]
      fp := true
      elems := fun c act => act.map fun i =>
        (i, if fromLg then (vfmt c.sew alt).deliver .rne (lgDecode (c.elem vs2 8 i))
          else lgOf ((vfmt c.sew alt).decode (c.elem vs2 c.sew i))) }
    { major := 0x1F, f6 := 2, sub := subAlt fromLg + 2 * subAlt alt, vm := vm, vd := vd, vs2 := vs2 }

end Sys2Proof.Machine
end

