-- ==== Sys2Proof/Machine/VecPerm.lean ====
section
/-! DEFINITION. Reductions, permutations, chains and masks, majors 0x20 and 0x21 (R88, R128 - R130, R313 - R320). -/
namespace Sys2Proof.Machine

/-! ### Reductions (R313) -/

/-- A reduction of the active elements of vs2 into element 0 of vd: `f` from the context, the active indices and
element 0 of vs1. -/
def redOp (f6 : Nat) (alt vm : Bool) (vd vs1 vs2 : Reg) (bad : VCtx → Bool) (fp : Bool)
    (f : VCtx → List Nat → Nat → Nat × Nat) : State → Host.Outcome State Fault Refusal :=
  VSpec.run
    { bad := bad
      dst := fun c => oneOp vd c.sew
      srcs := fun c => [c.grp vs2 c.sew, oneOp vs1 c.sew]
      keySrcs := [vs2, vs1]
      keep := true
      fp := fp
      reduction := true
      elems := fun c act => [(0, f c act (c.elem vs1 c.sew 0))] }
    { major := 0x20, f6 := f6, sub := subAlt alt, vm := vm, vd := vd, s1 := vs1, vs2 := vs2 }

/-- An integer reduction: the accumulator, the element and SEW. -/
def redInt (f6 : Nat) (vm : Bool) (vd vs1 vs2 : Reg) (f : Nat → Nat → Nat → Nat) :
    State → Host.Outcome State Fault Refusal :=
  redOp f6 false vm vd vs1 vs2 (fun _ => false) false fun c act a =>
    (act.foldl (fun x i => f x (c.elem vs2 c.sew i) c.sew) a, 0)

/-- Neighbours of one level of a tree combined, with the flags raised (R129). -/
def pairUp (f : Nat → Nat → Nat × Nat) : List Nat → List Nat × Nat
  | a :: b :: rest =>
    let r := f a b
    let t := pairUp f rest
    (r.1 :: t.1, orFlags r.2 t.2)
  | l => (l, 0)

/-- A whole tree, level by level (R129). -/
def treeOf (f : Nat → Nat → Nat × Nat) : Nat → List Nat → Nat × Nat
  | 0, l => (l.headD 0, 0)
  | n + 1, l =>
    match l with
    | [a] => (a, 0)
    | l =>
      let t := pairUp f l
      let r := treeOf f n t.1
      (r.1, orFlags t.2 r.2)

/-- The least power of two not below n, as its exponent. -/
def ceilLog2 (n : Nat) : Nat := if n ≤ 1 then 0 else Nat.log2 (n - 1) + 1

/-- A floating tree reduction: positions without an active element hold `pad` (R129, R130). -/
def redTree (f6 : Nat) (alt vm : Bool) (vd vs1 vs2 : Reg) (rounds : Bool) (pad : Fl → Nat)
    (f : Fl → Rnd → Nat → Nat → Nat × Nat) : State → Host.Outcome State Fault Refusal :=
  redOp f6 alt vm vd vs1 vs2 (fpBad alt rounds) true fun c act a =>
    let fm := vfmt c.sew alt
    let n := ceilLog2 c.vlmax
    let leaves := (List.range (2 ^ n)).map fun j => if act.contains j then c.elem vs2 c.sew j else pad fm
    let t := treeOf (f fm c.rnd) n leaves
    let r := f fm c.rnd a t.1
    (r.1, orFlags t.2 r.2)

/-- VFREDOSUM (R128). -/
def execVfredosum (alt vm : Bool) (vd vs1 vs2 : Reg) : State → Host.Outcome State Fault Refusal :=
  redOp 0x09 alt vm vd vs1 vs2 (fpBad alt true) true fun c act a =>
    act.foldl (fun x i =>
      let r := (vfmt c.sew alt).add c.rnd x.1 (c.elem vs2 c.sew i)
      (r.1, orFlags x.2 r.2)) (a, 0)

/-- VFREDSUM (R129). -/
def execVfredsum (alt vm : Bool) (vd vs1 vs2 : Reg) : State → Host.Outcome State Fault Refusal :=
  redTree 0x08 alt vm vd vs1 vs2 true (fun f => f.zero true) fun f r a b => f.add r a b
/-- VFREDMIN (R130). -/
def execVfredmin (alt vm : Bool) (vd vs1 vs2 : Reg) : State → Host.Outcome State Fault Refusal :=
  redTree 0x0A alt vm vd vs1 vs2 false Fl.canonNaN fun f _ a b => f.minmax false a b
/-- VFREDMAX (R130). -/
def execVfredmax (alt vm : Bool) (vd vs1 vs2 : Reg) : State → Host.Outcome State Fault Refusal :=
  redTree 0x0B alt vm vd vs1 vs2 false Fl.canonNaN fun f _ a b => f.minmax true a b
/-- VREDSUM (R313). -/
def execVredsum (vm : Bool) (vd vs1 vs2 : Reg) : State → Host.Outcome State Fault Refusal :=
  redInt 0x00 vm vd vs1 vs2 fun a b w => (a + b) % 2 ^ w
/-- VREDMIN (R313). -/
def execVredmin (vm : Bool) (vd vs1 vs2 : Reg) : State → Host.Outcome State Fault Refusal :=
  redInt 0x01 vm vd vs1 vs2 fun a b w => if sint a w ≤ sint b w then a else b
/-- VREDMAX (R313). -/
def execVredmax (vm : Bool) (vd vs1 vs2 : Reg) : State → Host.Outcome State Fault Refusal :=
  redInt 0x02 vm vd vs1 vs2 fun a b w => if sint a w ≤ sint b w then b else a
/-- VREDMINN (R313). -/
def execVredminn (vm : Bool) (vd vs1 vs2 : Reg) : State → Host.Outcome State Fault Refusal :=
  redInt 0x03 vm vd vs1 vs2 fun a b _ => Nat.min a b
/-- VREDMAXN (R313). -/
def execVredmaxn (vm : Bool) (vd vs1 vs2 : Reg) : State → Host.Outcome State Fault Refusal :=
  redInt 0x04 vm vd vs1 vs2 fun a b _ => Nat.max a b
/-- VREDAND (R313). -/
def execVredand (vm : Bool) (vd vs1 vs2 : Reg) : State → Host.Outcome State Fault Refusal :=
  redInt 0x05 vm vd vs1 vs2 fun a b _ => a &&& b
/-- VREDOR (R313). -/
def execVredor (vm : Bool) (vd vs1 vs2 : Reg) : State → Host.Outcome State Fault Refusal :=
  redInt 0x06 vm vd vs1 vs2 fun a b _ => a ||| b
/-- VREDXOR (R313). -/
def execVredxor (vm : Bool) (vd vs1 vs2 : Reg) : State → Host.Outcome State Fault Refusal :=
  redInt 0x07 vm vd vs1 vs2 fun a b _ => a ^^^ b

/-! ### Permutations (R314) -/

/-- A permutation: the written elements from the context and the active indices. -/
def permOp (f6 : Nat) (k : VKind) (vm : Bool) (vd s1 vs2 : Reg) (keep : Bool) (bad : VCtx → Bool)
    (f : VCtx → List Nat → List VElem) : State → Host.Outcome State Fault Refusal :=
  VSpec.run
    { bad := bad
      dst := fun c => c.grp vd c.sew
      srcs := vvSrcs k s1 vs2 VCtx.sew VCtx.sew
      keySrcs := vvKeys k s1 vs2
      keep := keep
      elems := f }
    { major := 0x20, f6 := f6, kind := k, vm := vm, vd := vd, s1 := s1, vs2 := vs2 }

/-- OFF and k (R314): the whole scalar register under vx, imm5 unsigned under vi. -/
def VCtx.offset (c : VCtx) (k : VKind) (s1 : Reg) : Nat := if k == .vx then c.xs.toNat else uimm5 s1

/-- VSLIDEUP (R314). -/
def execVslideup (k : VKind) (vm : Bool) (vd s1 vs2 : Reg) : State → Host.Outcome State Fault Refusal :=
  permOp 0x10 k vm vd s1 vs2 true (fun _ => false) fun c act =>
    (act.filter fun i => decide (c.offset k s1 ≤ i)).map fun i => (i, c.elem vs2 c.sew (i - c.offset k s1), 0)
/-- VSLIDEDN (R314). -/
def execVslidedn (k : VKind) (vm : Bool) (vd s1 vs2 : Reg) : State → Host.Outcome State Fault Refusal :=
  permOp 0x11 k vm vd s1 vs2 false (fun _ => false) fun c act => act.map fun i =>
    (i, if i + c.offset k s1 < c.vlmax then c.elem vs2 c.sew (i + c.offset k s1) else 0, 0)
/-- The scalar of VSLIDE1UP and VSLIDE1DN; under vf a floating SEW is needed (R298, R314). -/
def slideBad (k : VKind) (c : VCtx) : Bool := k == .vf && c.sew == 8
def VCtx.slideIn (c : VCtx) (k : VKind) (s1 : Reg) : Nat := c.s1 k s1 c.sew false (vfmt c.sew false) 0
/-- VSLIDE1UP (R314). -/
def execVslide1up (k : VKind) (vm : Bool) (vd s1 vs2 : Reg) : State → Host.Outcome State Fault Refusal :=
  permOp 0x12 k vm vd s1 vs2 false (slideBad k) fun c act => act.map fun i =>
    (i, if i = 0 then c.slideIn k s1 else c.elem vs2 c.sew (i - 1), 0)
/-- VSLIDE1DN (R314). -/
def execVslide1dn (k : VKind) (vm : Bool) (vd s1 vs2 : Reg) : State → Host.Outcome State Fault Refusal :=
  permOp 0x13 k vm vd s1 vs2 false (slideBad k) fun c act => act.map fun i =>
    (i, if i + 1 = c.vl then c.slideIn k s1 else c.elem vs2 c.sew (i + 1), 0)
/-- VGATHER (R314). -/
def execVgather (k : VKind) (vm : Bool) (vd s1 vs2 : Reg) : State → Host.Outcome State Fault Refusal :=
  permOp 0x14 k vm vd s1 vs2 false (fun _ => false) fun c act => act.map fun i =>
    let j := c.s1 k s1 c.sew true .f64 i
    (i, if j < c.vlmax then c.elem vs2 c.sew j else 0, 0)
/-- VROTL (R314). -/
def execVrotl (k : VKind) (vm : Bool) (vd s1 vs2 : Reg) : State → Host.Outcome State Fault Refusal :=
  permOp 0x16 k vm vd s1 vs2 false (fun _ => false) fun c act => act.map fun i =>
    (i, c.elem vs2 c.sew ((i + c.offset k s1) % c.vl), 0)
/-- VCOMPRESS (R314): from element 0 only. -/
def execVcompress (vd vs1 vs2 : Reg) : State → Host.Outcome State Fault Refusal :=
  VSpec.run
    { bad := fun c => c.vstart != 0
      dst := fun c => c.grp vd c.sew
      srcs := fun c => [c.grp vs2 c.sew, maskOp vs1]
      keySrcs := [vs2, vs1]
      keep := true
      elems := fun c _ => ((c.range.filter fun i => c.bit vs1 i).zipIdx).map fun e => (e.2, c.elem vs2 c.sew e.1, 0) }
    { major := 0x20, f6 := 0x15, vd := vd, s1 := vs1, vs2 := vs2 }

/-- A forcing instruction counts one resynchronisation (R40, R231). -/
def State.resync (s : State) : State := s.modHart fun h => { h with resync := h.resync + 1 }

/-- Write a register with the result of a forcing instruction (R40). -/
def State.setForced (s : State) (rd : Reg) (v : Word) : State :=
  if rd = 0 then s else (s.setX rd v).modHart fun h => { h with forced := rd :: h.forced }

/-- An instruction that moves a vector result to a scalar register (R315, R316): with no active element it moves
nothing and counts. -/
def forceOp (vm : Bool) (rd : Reg) (active : VCtx → List Nat) (srcs : VCtx → List VOpnd)
    (f : VCtx → List Nat → Word) : State → Host.Outcome State Fault Refusal :=
  runInstr 4 (vecWith vm 0 active (fun _ => false) (fun _ => none) srcs State.resync fun c act =>
    modify fun s => ((s.setForced rd (f c act)).endVector).resync)

/-- VMVXS (R315). -/
def execVmvxs (vm : Bool) (rd vs2 : Reg) : State → Host.Outcome State Fault Refusal :=
  forceOp vm rd (fun c => c.active.filter (· == 0)) (fun c => [c.grp vs2 c.sew]) fun c _ =>
    BitVec.ofInt 64 (sint (c.elem vs2 c.sew 0) c.sew)
/-- VMVSX (R315). -/
def execVmvsx (vm : Bool) (vd rs1 : Reg) : State → Host.Outcome State Fault Refusal :=
  VSpec.run
    { active := fun c => c.active.filter (· == 0)
      dst := fun c => c.grp vd c.sew
      srcs := fun _ => []
      keySrcs := []
      keep := true
      elems := fun c _ => [(0, c.xs.toNat % 2 ^ c.sew, 0)] }
    { major := 0x20, f6 := 0x18, kind := .vx, vm := vm, vd := vd, s1 := rs1 }

/-! ### Chains (R317 - R320) -/

/-- Element i of the chain queue. -/
def Chain.at_ (ch : Chain) (w i : Nat) : Nat := bits ch.q.toNat (i * w) w

/-- The chain queue with one element replaced. -/
def Chain.put (ch : Chain) (w i v : Nat) : Chain :=
  let mask : BitVec 32768 := BitVec.ofNat 32768 (2 ^ w - 1) <<< (i * w)
  { ch with q := (ch.q &&& ~~~mask) ||| (BitVec.ofNat 32768 (v % 2 ^ w) <<< (i * w)) }

/-- What the element at i - 1 passes on: Cin at element 0. -/
def Chain.before (ch : Chain) (w i : Nat) : Nat := if i = 0 then ch.cin.toNat % 2 ^ w else ch.at_ w (i - 1)

/-- A head bit set to a value. -/
def Chain.setHead (ch : Chain) (i : Nat) (b : Bool) : Chain :=
  let m : BitVec 4096 := 1#4096 <<< i
  { ch with h := if b then ch.h ||| m else ch.h &&& ~~~m }

/-- VXQW (R318). -/
def execVxqw (vm : Bool) (vs1 vs2 : Reg) : State → Host.Outcome State Fault Refusal :=
  runInstr 4 (vecWith vm 0 VCtx.active (fun _ => false) (fun _ => none) (fun c => [c.grp vs2 c.sew, maskOp vs1]) id
    fun c act => do
      let ch := ((← get).slot c.sl).chain
      let ch := if c.vstart = 0 then { ch with cin := ch.c } else ch
      let ch := c.range.foldl (fun (ch : Chain) i =>
        (ch.setHead i (c.bit vs1 i)).put c.sew i
          (if act.contains i then c.elem vs2 c.sew i else ch.before c.sew i)) { ch with qsew := BitVec.ofNat 2 (Nat.log2 (c.sew / 8)) }
      let ch := { ch with c := BitVec.ofNat 64 (ch.at_ c.sew (c.vl - 1)) }
      modify fun s => (s.modSlot c.sl fun x => { x with chain := ch }).endVector)

/-- VXQ (R319). -/
def execVxq (vm : Bool) (vd vs2 : Reg) : State → Host.Outcome State Fault Refusal :=
  runInstr 4 (do
    let s ← get
    let q := match s.curSlot with | some sl => (s.slot sl).chain.qsew | none => 0
    vecWith vm 0 VCtx.active (fun c => c.sew != 8 * 2 ^ q.toNat) (fun c => some (c.grp vd c.sew))
        (fun c => [c.grp vs2 c.sew]) id fun c act => do
      let ch := ((← get).slot c.sl).chain
      let _ ← putElemwise c (c.grp vd c.sew) id (act.map fun i =>
        (i, if ch.h.getLsbD i then c.elem vs2 c.sew i else ch.before c.sew i, 0)))

/-- The identity that a head puts into a scan (R320). -/
def scanIdentity (op : ScanOp) (w : Nat) : Nat :=
  match op with
  | .add => 0
  | .fadd => 2 ^ (w - 1)
  | .max => 2 ^ (w - 1)
  | .min => 2 ^ (w - 1) - 1

/-- One combination of a scan (R320). -/
def scanStep (op : ScanOp) (w : Nat) (r : Rnd) (a b : Nat) : Nat × Nat :=
  match op with
  | .add => ((a + b) % 2 ^ w, 0)
  | .fadd => (vfmt w false).add r a b
  | .max => (if sint a w < sint b w then b else a, 0)
  | .min => (if sint b w < sint a w then b else a, 0)

/-- A scan over indices: elements written, flags, the carry, and a trapping element (R119, R320). -/
def scanFrom (c : VCtx) (op : ScanOp) (vs1 vs2 : Reg) (act : List Nat) (fte : Nat) :
    List Nat → Nat → List VElem × Nat × Nat × Option (Nat × Nat)
  | [], acc => ([], 0, acc, none)
  | i :: rest, acc =>
    let a := if c.bit vs1 i then scanIdentity op c.sew else acc
    if act.contains i then
      let r := scanStep op c.sew c.rnd a (c.elem vs2 c.sew i)
      if r.2 &&& fte ≠ 0 then ([], r.2, acc, some (i, r.2))
      else
        let t := scanFrom c op vs1 vs2 act fte rest r.1
        ((i, r.1, r.2) :: t.1, orFlags r.2 t.2.1, t.2.2)
    else scanFrom c op vs1 vs2 act fte rest a

/-- VSCAN (R320). -/
def execVscan (op : ScanOp) (vm : Bool) (vd vs1 vs2 : Reg) : State → Host.Outcome State Fault Refusal :=
  runInstr 4 (vecWith vm 0 VCtx.active (fun c => op == .fadd && (c.sew == 8 || decide (4 < c.frm)))
    (fun c => some (c.grp vd c.sew)) (fun c => [c.grp vs2 c.sew, maskOp vs1]) id fun c act => do
      let s ← get
      let acc := (s.slot c.sl).chain.s.toNat % 2 ^ c.sew
      let t := scanFrom c op vs1 vs2 act (fcsrFte s.hart.fcsr) c.range acc
      modify fun s => (((s.putElems c (c.grp vd c.sew) t.1).accrueV t.2.1).modSlot c.sl fun x =>
        { x with chain := { x.chain with s := BitVec.ofNat 64 t.2.2.1 } })
      match t.2.2.2 with
      | some (i, fl) =>
        modify fun s => s.modHart fun h => { h with vstart := BitVec.ofNat 12 i }
        fpTrapAt i fl
      | none => modify State.endVector)

/-! ### Masks (R316) -/

/-- A mask operation on bits s2 and s1 (R316). -/
def maskLogic (f6 : Nat) (vd vs1 vs2 : Reg) (f : Bool → Bool → Bool) : State → Host.Outcome State Fault Refusal :=
  VSpec.run
    { dst := fun _ => maskOp vd
      srcs := fun _ => [maskOp vs2, maskOp vs1]
      keySrcs := [vs2, vs1]
      elems := fun c act => act.map fun i => (i, if f (c.bit vs2 i) (c.bit vs1 i) then 1 else 0, 0) }
    { major := 0x21, f6 := f6, vd := vd, s1 := vs1, vs2 := vs2 }

/-- VMAND (R316). -/
def execVmand (vd vs1 vs2 : Reg) : State → Host.Outcome State Fault Refusal := maskLogic 0 vd vs1 vs2 fun a b => a && b
/-- VMOR (R316). -/
def execVmor (vd vs1 vs2 : Reg) : State → Host.Outcome State Fault Refusal := maskLogic 1 vd vs1 vs2 fun a b => a || b
/-- VMXOR (R316). -/
def execVmxor (vd vs1 vs2 : Reg) : State → Host.Outcome State Fault Refusal := maskLogic 2 vd vs1 vs2 fun a b => a != b
/-- VMANDN (R316). -/
def execVmandn (vd vs1 vs2 : Reg) : State → Host.Outcome State Fault Refusal := maskLogic 3 vd vs1 vs2 fun a b => a && !b
/-- VMNAND (R316). -/
def execVmnand (vd vs1 vs2 : Reg) : State → Host.Outcome State Fault Refusal := maskLogic 4 vd vs1 vs2 fun a b => !(a && b)

/-- VMPOP (R316). -/
def execVmpop (vm : Bool) (rd vs2 : Reg) : State → Host.Outcome State Fault Refusal :=
  forceOp vm rd VCtx.active (fun _ => [maskOp vs2]) fun c act =>
    BitVec.ofNat 64 (act.filter fun i => c.bit vs2 i).length
/-- VMFIRST (R316). -/
def execVmfirst (vm : Bool) (rd vs2 : Reg) : State → Host.Outcome State Fault Refusal :=
  forceOp vm rd VCtx.active (fun _ => [maskOp vs2]) fun c act =>
    match act.find? fun i => c.bit vs2 i with
    | some i => BitVec.ofNat 64 i
    | none => -1
/-- VIOTA (R316). -/
def execViota (vm : Bool) (vd vs2 : Reg) : State → Host.Outcome State Fault Refusal :=
  VSpec.run
    { dst := fun c => c.grp vd c.sew
      srcs := fun _ => [maskOp vs2]
      keySrcs := [vs2]
      elems := fun c act => act.map fun i =>
        (i, (act.filter fun j => decide (j < i) && c.bit vs2 j).length % 2 ^ c.sew, 0) }
    { major := 0x21, f6 := 0x0A, vm := vm, vd := vd, vs2 := vs2 }
/-- VID (R316). -/
def execVid (vm : Bool) (vd : Reg) : State → Host.Outcome State Fault Refusal :=
  VSpec.run
    { dst := fun c => c.grp vd c.sew
      srcs := fun _ => []
      keySrcs := []
      elems := fun c act => act.map fun i => (i, i % 2 ^ c.sew, 0) }
    { major := 0x21, f6 := 0x0B, vm := vm, vd := vd }

end Sys2Proof.Machine
end

