-- ==== Sys2Proof/Machine/VecMem.lean ====
section
/-! DEFINITION. Vector loads and stores, their reuse, sequentially consistent forms, atomics, remote-reduce stores and
VWAIT (R321 - R331, R366, R367). -/
namespace Sys2Proof.Machine

/-- Bits of an element width (R89). -/
def eewBits (e : Eew) : Nat := 8 * 2 ^ e.code

/-- How the elements of an access are addressed (R322). -/
inductive VAddr where
  | unit
  | stride (r : Reg)
  | index (vs2 : Reg) (eew : Nat)
  deriving DecidableEq, Repr

/-- The address of element i, of eb bytes (R322). -/
def VCtx.addr (c : VCtx) (s : State) (a : VAddr) (eb i : Nat) : Word :=
  match a with
  | .unit => c.xs + BitVec.ofNat 64 (i * eb)
  | .stride r => c.xs + BitVec.ofNat 64 i * s.getX r
  | .index v w => c.xs + BitVec.ofNat 64 (c.elem v w i)

/-- Set the element field of ctl.tcoord (R104, R323). -/
def State.setCoordElem (s : State) (i : Nat) : State :=
  s.modHart fun h => { h with tcoord := (h.tcoord &&& 0xFFFFFFFFFF) ||| tcoordElem i }

/-- A trap of element i (R323): its index goes to ctl.tcoord and the fault record, and to ctl.vstart where `start`. -/
def elemTrap {α : Type} (i : Nat) (start : Bool) (t : Trap) : M α := do
  modify fun s =>
    let s := s.setCoordElem i
    if start then s.modHart fun h => { h with vstart := BitVec.ofNat 12 i } else s
  trap { t with elem := some (BitVec.ofNat 32 i), tcoord := tcoordElem i }

/-- A computation for element i: its trap carries the element. -/
def atElem {α : Type} (i : Nat) (start : Bool) (m : M α) : M α := do
  match ← attempt m with
  | .ok a => return a
  | .error .stall => stall
  | .error (.trap t) => elemTrap i start t

/-- Loads in ascending index up to the first that faults (R323, R326): elements, the places read, the fault. -/
def loadLoop (hint : Hint) (u : Use) (eb : Nat) : List (Nat × Word) → M (List VElem × List Loc × Option (Nat × Trap))
  | [] => return ([], [], none)
  | (i, va) :: rest => do
    let one : M (List Byte × List Loc) := do
      let ps ← locate u (cutGranules 3 va eb)
      let bs ← readParts hint ps
      return (bs, ps.map (·.loc))
    match ← attempt one with
    | .error .stall => stall
    | .error (.trap t) => return ([], [], some (i, t))
    | .ok (bs, ls) =>
      let r ← loadLoop hint u eb rest
      return ((i, natOfBytes bs, 0) :: r.1, ls ++ r.2.1, r.2.2)

/-- Which kind of reuse the places of a load allow (R367): kind, first and last chunk. -/
def loadKind (core : Nat) (ls : List Loc) : Option (BitVec 2 × Nat × Nat) :=
  let chunk (l : Loc) : Option Nat := match regionOf l.pa with
    | .core c off => if c == core && decide (off < 0x80000) then some (off / 512) else none
    | _ => none
  if ls.isEmpty then none
  else if ls.all fun l => (chunk l).isSome then
    let cs := ls.map fun l => (chunk l).getD 0
    some (1, cs.foldl Nat.min 1024, cs.foldl Nat.max 0)
  else if ls.all fun l => pteConst l.pte && pteMem l.pte != 2 then some (2, 0, 0)
  else none

/-- The word of a load with its register fields 0 (R361). -/
def loadWord (mop : Nat) (eew : Eew) (hint : Hint) (vm : Bool) : BitVec 32 :=
  BitVec.ofNat 32 (0x22 * 2 ^ 26 + (if vm then 2 ^ 10 else 0) + mop * 2 ^ 7 + eew.code * 16 + hint.code)

/-- A vector load's use (R28, R453). -/
def vloadUse : Use := { acc := .load, cmpOk := true, vector := true }
def vstoreUse : Use := { acc := .store, vector := true }

/-- Index vector of an address form. -/
def VAddr.vec : VAddr → List Reg | .index v _ => [v] | _ => []

/-- The key of a load (R361). -/
def loadKey (c : VCtx) (s : State) (word : BitVec 32) (a : VAddr) (vd : Reg) : SettKey :=
  { ctx := (s.slot c.sl).ctx, word := word, vtype := s.hart.vtype, lanes := c.grant, vl := c.vl, frm := c.frm
    vxrm := c.vxrm
    srcs := a.vec.map (fun r => some (c.reg r.toNat))
      ++ [if !c.vm || decide (c.vl < c.vlmax) then some (c.reg vd.toNat) else none,
          if c.vm then none else some (c.reg 0)]
    scalars := c.xs :: (match a with | .stride r => [s.getX r] | _ => []) }

/-- Registers whose names the key of a load takes. -/
def loadKeyRegs (c : VCtx) (a : VAddr) (vd : Reg) : List Reg :=
  a.vec ++ (if !c.vm || decide (c.vl < c.vlmax) then [vd] else []) ++ (if c.vm then [] else [0])

/-- A load may enter the Sett (R362). -/
def loadLooksUp (c : VCtx) (s : State) (dst : VOpnd) (srcs : List VOpnd) : Bool :=
  c.vstart == 0 && dst.emul8 == 8 && srcs.all (fun o => o.emul8 == 8) && s.hart.sett.getLsbD 0
    && !s.hart.sett.getLsbD 1 && (popped (s.slot c.sl) srcs).isEmpty && (s.slot c.sl).cut.isNone

/-- The elements of a load, read and written; the fault of the first that faults (R323). Answers the places read. -/
def performLoad (c : VCtx) (act : List Nat) (hint : Hint) (a : VAddr) (dst : VOpnd) : M (List Loc) := do
  let s ← get
  let eb := dst.eew / 8
  let r ← loadLoop hint vloadUse eb (act.map fun i => (i, c.addr s a eb i))
  modify fun s => s.putElems c dst r.1
  match r.2.2 with
  | some (i, t) => elemTrap i true t
  | none =>
    modify State.endVector
    return r.2.1

/-- The reuse that a load qualifies for by where its active elements lie, read from the page tables alone (R367). -/
def State.loadReuse (s : State) (c : VCtx) (act : List Nat) (a : VAddr) (eb : Nat) : Option (BitVec 2 × Nat × Nat) :=
  let qs := act.flatMap fun i => s.pages (s.slot c.sl).ctx (c.addr s a eb i).toNat eb
  if qs.all fun q => q.2.2.isSome then loadKind (slotCore c.sl) (qs.filterMap fun q => q.2.2) else none

/-- Older stores of the slot to an on-chip window are outstanding: functions of TMAP and TRED, and writes that a stream queue
holds. A scratchpad load's lookup waits for them (R369). -/
def State.chipStores (s : State) (sl : SlotId) : Bool :=
  let x := s.slot sl
  (x.call.isNone && x.work.any fun t => match t.op with | .map _ _ _ _ _ => true | _ => false) || s.anyHeld sl fun _ => true

/-- VLE, VLSE and VLXE after their checks (R323, R364 - R367, R369, R372). A load that traps counts its miss where the page
tables say that it qualified; one that parks looks up again. -/
def issueLoad (word : BitVec 32) (hint : Hint) (a : VAddr) (vd : Reg) (dst : VCtx → VOpnd) (srcs : VCtx → List VOpnd)
    (c : VCtx) (act : List Nat) : M Unit := do
  let s ← get
  if !loadLooksUp c s (dst c) (srcs c) then
    let _ ← performLoad c act hint a (dst c)
  else
    modify fun s => s.nameRegs c.sl (loadKeyRegs c a vd)
    let s ← get
    let k := loadKey c s word a vd
    if !s.allNamed c.sl (loadKeyRegs c a vd) then
      let _ ← performLoad c act hint a (dst c)
    else
      let found := (s.settFind (slotCore c.sl) 1 k).or (s.settFind (slotCore c.sl) 2 k)
      let reuse := s.loadReuse c act a ((dst c).eew / 8)
      if ((found.map (·.kind)).or (reuse.map (·.1))) == some 1 && s.chipStores c.sl then stall
      match found with
      | some e => set (s.settHit c.sl vd e)
      | none =>
        match ← attempt (performLoad c act hint a (dst c)) with
        | .ok ls =>
          match loadKind (slotCore c.sl) ls with
          | none => return ()
          | some (kind, first, last) => modify fun s => s.countMiss.settInstall c.sl vd kind k first last 0
        | .error (.trap t) =>
          if reuse.isSome && t.cause.delivery ≠ .park then modify State.countMiss
          trap t
        | .error .stall => stall

/-- A plain load (R322, R323). -/
def vload (mop : Nat) (eew : Eew) (hint : Hint) (vm : Bool) (vd rs1 : Reg) (a : VAddr) :
    State → Host.Outcome State Fault Refusal :=
  let dst (c : VCtx) : VOpnd := match a with | .index _ _ => c.grp vd c.sew | _ => c.grp vd (eewBits eew)
  let srcs (c : VCtx) : List VOpnd := match a with | .index v w => [c.grp v w] | _ => []
  runInstr 4 (vecWith vm rs1 VCtx.active (fun _ => false) (fun c => some (dst c)) srcs id
    (issueLoad (loadWord mop eew hint vm) hint a vd dst srcs))

/-- VLE (R323). -/
def execVle (eew : Eew) (hint : Hint) (vm : Bool) (vd rs1 : Reg) : State → Host.Outcome State Fault Refusal :=
  vload 0 eew hint vm vd rs1 .unit
/-- VLSE (R323). -/
def execVlse (eew : Eew) (hint : Hint) (vm : Bool) (vd rs1 rs2 : Reg) : State → Host.Outcome State Fault Refusal :=
  vload 1 eew hint vm vd rs1 (.stride rs2)
/-- VLXE (R323). -/
def execVlxe (eew : Eew) (hint : Hint) (vm : Bool) (vd rs1 vs2 : Reg) : State → Host.Outcome State Fault Refusal :=
  vload 2 eew hint vm vd rs1 (.index vs2 (eewBits eew))

/-- VLEFF (R326): a fault past the first element, other than FENCED and DECODE, shortens vl. -/
def execVleff (eew : Eew) (hint : Hint) (vm : Bool) (vd rs1 : Reg) : State → Host.Outcome State Fault Refusal :=
  runInstr 4 (vecWith vm rs1 VCtx.active (fun _ => false) (fun c => some (c.grp vd (eewBits eew))) (fun _ => []) id
    fun c act => do
      let s ← get
      let eb := eewBits eew / 8
      let r ← loadLoop hint vloadUse eb (act.map fun i => (i, c.addr s .unit eb i))
      modify fun s => s.putElems c (c.grp vd (eewBits eew)) r.1
      match r.2.2 with
      | some (i, t) =>
        if i = c.vstart || t.cause == .fenced || t.cause == .decode then elemTrap i true t
        else
          let n := if r.1.isEmpty then c.vstart else i
          modify fun s => (s.modHart fun h => { h with vl := BitVec.ofNat 64 n, vlForced := true }).endVector
      | none => modify fun s => (s.modHart fun h => { h with vlForced := true }).endVector)

/-! ### Stores -/

/-- Translate and check every element of a store before any is performed (R323). -/
def checkElems (u : Use) (eb : Nat) (align : Bool) : List (Nat × Word) → M (List (Nat × List Part))
  | [] => return []
  | (i, va) :: rest => do
    let ps ← atElem i false (do
      if align && crosses va eb then trap { cause := .align, va := va, vaValid := true, tval := va }
      locate u (cutGranules 3 va eb))
    let r ← checkElems u eb align rest
    return (i, ps) :: r

/-- A plain store (R322, R323). -/
def vstore (hint : Hint) (vm : Bool) (vs3 rs1 : Reg) (a : VAddr) (w : VCtx → Nat) :
    State → Host.Outcome State Fault Refusal :=
  runInstr 4 (vecWith vm rs1 VCtx.active (fun _ => false) (fun _ => none)
    (fun c => c.grp vs3 (w c) :: (match a with | .index v e => [c.grp v e] | _ => [])) id fun c act => do
      let s ← get
      let eb := w c / 8
      let es ← checkElems vstoreUse eb false (act.map fun i => (i, c.addr s a eb i))
      modify fun s => (es.foldl (fun s e =>
        s.writeParts hint e.2 (bytesOfNat eb (c.elem vs3 (w c) e.1)) (some (BitVec.ofNat 32 e.1))) s).endVector)

/-- VSE (R323). -/
def execVse (eew : Eew) (hint : Hint) (vm : Bool) (vs3 rs1 : Reg) : State → Host.Outcome State Fault Refusal :=
  vstore hint vm vs3 rs1 .unit fun _ => eewBits eew
/-- VSSE (R323). -/
def execVsse (eew : Eew) (hint : Hint) (vm : Bool) (vs3 rs1 rs2 : Reg) : State → Host.Outcome State Fault Refusal :=
  vstore hint vm vs3 rs1 (.stride rs2) fun _ => eewBits eew
/-- VSXE (R323). -/
def execVsxe (eew : Eew) (hint : Hint) (vm : Bool) (vs3 rs1 vs2 : Reg) : State → Host.Outcome State Fault Refusal :=
  vstore hint vm vs3 rs1 (.index vs2 (eewBits eew)) VCtx.sew

/-! ### Sequentially consistent forms (R327) -/

/-- Draw the next ticket of the device-wide counter (R327). -/
def drawTicket : M Unit := modify fun s => { s with ticket := s.ticket + 1 }

/-- What a sequentially consistent element may reach. -/
def scUse (acc : Access) : Use := { acc := acc, atomic := true, noChip := true, vector := true }

/-- The elements of a VLSC, each with its ticket, up to the first that faults. -/
def scLoop (hint : Hint) (eb : Nat) : List (Nat × Word) → M (List VElem × Option (Nat × Trap))
  | [] => return ([], none)
  | (i, va) :: rest => do
    let one : M (List Byte) := do
      if crosses va eb then trap { cause := .align, va := va, vaValid := true, tval := va }
      let ps ← locate (scUse .load) (cutGranules 3 va eb)
      drawTicket
      readParts hint ps
    match ← attempt one with
    | .error .stall => stall
    | .error (.trap t) => return ([], some (i, t))
    | .ok bs =>
      let r ← scLoop hint eb rest
      return ((i, natOfBytes bs, 0) :: r.1, r.2)

/-- VLSC (R327): a step performs its elements in ticket order, which is the order of steps (log 8). -/
def execVlsc (eew : Eew) (hint : Hint) (vm : Bool) (vd rs1 rs2 : Reg) : State → Host.Outcome State Fault Refusal :=
  runInstr 4 (vecWith vm rs1 VCtx.active (fun _ => false) (fun c => some (c.grp vd (eewBits eew))) (fun _ => []) id
    fun c act => do
      releaseWait .ar
      let s ← get
      let eb := eewBits eew / 8
      let r ← scLoop hint eb (act.map fun i => (i, c.addr s (.stride rs2) eb i))
      modify fun s => s.putElems c (c.grp vd (eewBits eew)) r.1
      match r.2 with
      | some (i, t) => elemTrap i true t
      | none => modify State.endVector)

/-- VSSC (R327): every element is checked before a ticket is drawn. -/
def execVssc (eew : Eew) (hint : Hint) (vm : Bool) (vs3 rs1 rs2 : Reg) : State → Host.Outcome State Fault Refusal :=
  runInstr 4 (vecWith vm rs1 VCtx.active (fun _ => false) (fun _ => none) (fun c => [c.grp vs3 (eewBits eew)]) id
    fun c act => do
      let s ← get
      let eb := eewBits eew / 8
      let es ← checkElems (scUse .store) eb true (act.map fun i => (i, c.addr s (.stride rs2) eb i))
      releaseWait .ar
      modify fun s => (es.foldl (fun s e =>
        { (s.writeParts hint e.2 (bytesOfNat eb (c.elem vs3 (eewBits eew) e.1)) (some (BitVec.ofNat 32 e.1))) with
          ticket := s.ticket + 1 }) s).endVector)

/-! ### Vector atomics and remote-reduce stores (R328, R329) -/

/-- The combination of a VRRS (R329): floating forms round by RNE and raise nothing. -/
def rrsNew (op : RrsOp) (n old b : Nat) : Nat :=
  let w := 8 * n
  let f : Fl := if n = 4 then .f32 else .f64
  match op with
  | .add => (old + b) % 2 ^ w
  | .fadd => (f.add .rne old b).1
  | .min => if sint b w < sint old w then b else old
  | .max => if sint old w < sint b w then b else old
  | .fmin => (f.minmax false old b).1
  | .fmax => (f.minmax true old b).1

/-- The one place of an element that lies within a granule. -/
def onlyPart (ps : List Part) : Part := ps.headD ⟨0, ⟨0, 0, 0, 0⟩, 0⟩

/-- Perform atomics in ascending index: old values of those performed, and the lowest element whose granule holds
uncorrectable data (R329). -/
def amoElems (eb : Nat) (f : Nat → Nat → Nat) : List (Nat × List Part × Nat) → M (List VElem × Option (Nat × Word))
  | [] => return ([], none)
  | (i, ps, b) :: rest => do
    let p := onlyPart ps
    let s ← get
    if s.corrupt p.loc.pa then
      let r ← amoElems eb f rest
      return (r.1, some (i, p.va))
    else
      let old := Memory.nat s.mem p.loc.pa eb
      set (s.hartWrite .normal p (bytesOfNat eb (f old b)) (some (BitVec.ofNat 32 i)))
      let r ← amoElems eb f rest
      return ((i, old, 0) :: r.1, r.2)

/-- Elements of an atomic form, checked, with its release done (R329). -/
def atomicElems (c : VCtx) (act : List Nat) (order : Order) (w : Nat) (vd vs2 : Reg) :
    M (List (Nat × List Part × Nat)) := do
  let s ← get
  let es ← checkElems (scUse .store) (w / 8) true (act.map fun i => (i, c.addr s (.index vs2 w) (w / 8) i))
  releaseWait order
  return es.map fun e => (e.1, e.2, c.elem vd w e.1)

/-- VAMO (R329). -/
def execVamo (op : AmoOp) (order : Order) (width : AWidth) (vm : Bool) (vd rs1 vs2 : Reg) :
    State → Host.Outcome State Fault Refusal :=
  let w := 8 * awidthBytes width
  runInstr 4 (vecWith vm rs1 VCtx.active (fun _ => false) (fun c => some (c.grp vd w))
    (fun c => [c.grp vs2 w, c.grp vd w]) id fun c act => do
      let es ← atomicElems c act order w vd vs2
      let r ← amoElems (w / 8) (amoNew op (w / 8)) es
      modify fun s => s.putElems c (c.grp vd w) r.1
      match r.2 with
      | some (i, va) => elemTrap i false { cause := .decode, va := va, vaValid := true, acc := .store }
      | none => modify State.endVector)

/-- VRRS (R329): an element of uncorrectable data is a failed write (R173). -/
def execVrrs (op : RrsOp) (order : Order) (width : AWidth) (vm : Bool) (vd rs1 vs2 : Reg) :
    State → Host.Outcome State Fault Refusal :=
  let w := 8 * awidthBytes width
  runInstr 4 (vecWith vm rs1 VCtx.active (fun _ => false) (fun _ => none) (fun c => [c.grp vd w, c.grp vs2 w]) id
    fun c act => do
      let es ← atomicElems c act order w vd vs2
      modify fun s => (es.foldl (fun (s : State) e =>
        let p := onlyPart e.2.1
        if s.corrupt p.loc.pa then
          s.recordFailed c.sl { iva := s.pc, tile := none, elem := some (BitVec.ofNat 32 e.1), va := p.va } true
        else
          let v := rrsNew op (w / 8) (Memory.nat s.mem p.loc.pa (w / 8)) e.2.2
          s.hartWrite .normal p (bytesOfNat (w / 8) v) (some (BitVec.ofNat 32 e.1))) s).endVector)

/-! ### VWAIT (R330, R331, R155) -/

/-- The condition of a VWAIT on W-bit values. -/
def wcondHolds (c : WCond) (a b : Nat) : Bool :=
  match c with
  | .eq => a == b
  | .ne => a != b
  | .gen => decide (b ≤ a)

/-- v0 with the bits of the active elements replaced by the unmet mask (R330). -/
def State.setUnmet (s : State) (c : VCtx) (es : List (Nat × Bool)) : State :=
  s.putElems c (maskOp 0) (es.map fun e => (e.1, if e.2 then 0 else 1, 0))

/-- Granules that a wait watches (R331). -/
def Wait.granules : Wait → List Nat
  | .vwait _ flags => flags.map fun f => f.1 / 32
  | _ => []

/-- Granules that the block's own stream watches while a call stands before it. -/
def Slot.ownGranules (x : Slot) : List Nat :=
  match x.call with
  | some c => if c.asleep then c.savedWait.granules else []
  | none => []

/-- A wait that is over: no watch, no deadline. -/
def State.endWait (s : State) (sl : SlotId) : State :=
  (s.modSlot sl fun x => { x with wait := .none, met := false }).dropWatchesBut (.slot sl) (s.slot sl).ownGranules

/-- The block sleeps on its flags (R42, R331): a watch on each, and a WAIT event each time it goes to sleep (R145). -/
def State.sleepOn (s : State) (sl : SlotId) (w : Wait) (typ : Word) (left : Word) (flags : List Loc) : State :=
  let s := flags.foldl (fun s l => s.addWatch (.slot sl) l.home l.pa) s
  let s := s.postEvent (slotCluster sl) (s.slotEvent sl 6 typ left)
  s.modSlot sl fun x => { x with wait := w, run := .asleep }

/-- The flags of a VWAIT read once more: which elements are met. -/
def readFlags (c : WCond) (w : Nat) (x : VCtx) (vd : Reg) : List (Nat × List Part) → M (List (Nat × Bool))
  | [] => return []
  | (i, ps) :: rest => do
    let bs ← atElem i false (readParts .normal ps)
    let r ← readFlags c w x vd rest
    return (i, wcondHolds c (natOfBytes bs) (x.elem vd w i)) :: r

/-- The deadline of the VWAIT under way: it counts from the issue, and stays while the VWAIT is tried again (R330). -/
def waitDeadline (sl : SlotId) (t : Word) : M (Option Nat) := do
  let s ← get
  match (s.slot sl).wait with
  | .vwait d _ => return d
  | _ =>
    let d : Option Nat := if t = 0 then none else some (s.clock + t.toNat)
    set (s.modSlot sl fun x => { x with wait := .vwait d [] })
    return d

/-- A computation whose trap, a park apart, ends the wait under way. -/
def orEndWait (sl : SlotId) (m : M Unit) : M Unit := do
  match ← attempt m with
  | .ok _ => return ()
  | .error (.trap t) =>
    if t.cause.delivery ≠ .park then modify fun s => s.endWait sl
    trap t
  | .error .stall => stall

/-- VWAIT (R330): met, timed out, or asleep with the PC at the VWAIT. -/
def execVwait (cond : WCond) (order : Order) (width : AWidth) (vm : Bool) (vd rs1 vs2 : Reg) :
    State → Host.Outcome State Fault Refusal :=
  let w := 8 * awidthBytes width
  let onMask (c : VCtx) (o : VOpnd) : Bool := o.overlaps (maskOp 0) && decide (0 < c.vl)
  runInstr 4 (vecWith vm rs1 VCtx.active (fun _ => false) (fun _ => none) (fun c => [c.grp vd w, c.grp vs2 64])
    id fun c act => do
      if onMask c (c.grp vd w) || onMask c (c.grp vs2 64) then illreg
      let s ← get
      let x := s.slot c.sl
      if x.met then set (((s.setUnmet c (act.map fun i => (i, true))).endWait c.sl).endVector)
      else orEndWait c.sl do
        let deadline ← waitDeadline c.sl c.xs
        let es ← checkElems { acc := .load, vector := true } (w / 8) true (act.map fun i => (i, BitVec.ofNat 64 (c.elem vs2 64 i)))
        releaseWait order
        let met ← readFlags cond w c vd es
        let s ← get
        let out := match deadline with | some d => decide (d ≤ s.clock) | none => false
        if out || met.all (·.2) then set (((s.setUnmet c met).endWait c.sl).endVector)
        else
          let left := match deadline with | some d => BitVec.ofNat 64 (d - s.clock) | none => 0
          let flags := es.map fun e => ((onlyPart e.2).loc.pa, w / 8, cond, c.elem vd w e.1)
          set (s.sleepOn c.sl (.vwait deadline flags) 1 left (es.flatMap fun e => e.2.map (·.loc)))
          stall)

end Sys2Proof.Machine
end

