-- ==== Sys2Proof/Machine/Threads.lean ====
section
/-! DEFINITION. Stream registers (R332 - R337) and lane threads (R338 - R343). -/
namespace Sys2Proof.Machine

/-! ### Streams -/

/-- A reserved value in a stream descriptor (R333). -/
def streamDescBad (bs : List Byte) : Bool :=
  let f (o n : Nat) : Nat := natOfBytes ((bs.drop o).take n)
  (f 0 8 == 0 && (f 8 8 != 0 || f 16 8 != 0)) || decide (3 < f 24 1) || decide (2 < f 25 1) || f 26 6 != 0

/-- A stream as its descriptor binds it to a register (R333). A pull-mode binding keeps the writes that the queue holds, and
VUNSTREAM fails them: the model's choice (log 89). -/
def streamOf (bs : List Byte) (desc : Word) (vd : Reg) (inCall : Bool) (after : Nat) (old : Stream) : Stream :=
  let f (o n : Nat) : Nat := natOfBytes ((bs.drop o).take n)
  let push := f 0 8 == 0
  { bound := true, inCall := inCall, reg := vd, base := BitVec.ofNat 64 (f 0 8), estride := BitVec.ofNat 64 (f 8 8)
    count := BitVec.ofNat 64 (f 16 8), eew := BitVec.ofNat 2 (f 24 1), hint := BitVec.ofNat 2 (f 25 1), desc := desc
    push := push
    frame := if push then old.frame else 0
    data := if push then old.data else 0
    written := if push then old.written else 0
    held := old.held, after := after }

/-- A refill of a stream that has started and not ended (R266, R334). -/
def State.refillBusy (s : State) (sl : SlotId) (k : BitVec 3) : Bool :=
  (List.range 32).any fun c => (s.cluster c).porter.cmds.any fun m => m.slot == sl && m.src == .refill k && m.started

/-- Writes that a queue holds fail when it goes (R336). -/
def State.failHeld (s : State) (q : Stream) : State :=
  q.held.foldl State.heldFails s

/-- End a stream as VUNSTREAM does (R334). -/
def State.unstream (s : State) (sl : SlotId) (k : BitVec 3) : State :=
  let q := (s.slot sl).streams[k.toNat]!
  let s := (s.failHeld q).modSlot sl fun x => { x with streams := x.streams.set! k.toNat {} }
  (List.range 32).foldl (fun s c => s.modCluster c fun y =>
    { y with porter := { y.porter with cmds := y.porter.cmds.filter fun m => !(m.slot == sl && m.src == .refill k) } }) s

/-- VSTREAM (R333). -/
def execVstream (vd rs1 : Reg) (k : BitVec 3) : State → Host.Outcome State Fault Refusal :=
  runInstr 4 (do
    let sl ← vecGate
    let s ← get
    let x := s.slot sl
    let badReg := vd == 0 || decide (s.nvreg ≤ vd.toNat)
      || x.streamsHere.any (fun e => e.2.reg == vd && e.1 != k.toNat)
    let a := s.getX rs1
    let read : M (List Byte) := do
      if a.toNat % 32 ≠ 0 then trap { cause := .align, va := a, vaValid := true, tval := a }
      loadBytes a 32 vloadUse .normal
    match ← attempt read with
    | .error e =>
      if badReg then illreg
      throw e
    | .ok bs =>
      if streamDescBad bs then illegal
      if badReg then illreg
      let old := x.streams[k.toNat]!
      if old.bound && s.refillBusy sl k then stall
      modify fun s =>
        let s := if old.bound then s.unstream sl k else s
        (s.modSlot sl fun y =>
          { y with streams := y.streams.set! k.toNat (streamOf bs a vd x.call.isSome x.nextId y.streams[k.toNat]!) }).endVector)

/-- VUNSTREAM (R334). -/
def execVunstream (k : BitVec 3) : State → Host.Outcome State Fault Refusal :=
  runInstr 4 (do
    let sl ← vecGate
    let s ← get
    if (s.slot sl).streams[k.toNat]!.bound then
      if s.refillBusy sl k then stall
      set (s.unstream sl k).endVector
    else set s.endVector)

/-! ### Lane threads -/

/-- Words of the lane instruction buffer in use on a core (R339, R345). -/
def State.libUsed (s : State) (c : Nat) : Nat := ((s.core c).lib.map fun e => e.words.length).sum

/-- Fetch n words from an address through the instruction path (R339, R345). -/
def fetchWords (va : Word) : Nat → M (List (BitVec 32))
  | 0 => return []
  | n + 1 => do
    let w ← fetchWord va
    let r ← fetchWords (va + 4) n
    return BitVec.ofNat 32 w :: r

/-- The word of VJOIN (R338). -/
def vjoinWord : BitVec 32 := 0x9400E000

/-- VSPLIT (R339): lane threads for the selected elements; with no active element it retires as a no-operation. -/
def execVsplit (va : Reg) (off : BitVec 13) : State → Host.Outcome State Fault Refusal :=
  runJump (do
    let sl ← vecGate
    let s ← get
    let c := s.vctx sl true 0
    let pc := s.pc
    if c.vl ≤ c.vstart then
      set s.endVector
      return pc + 4
    let d := off.toInt
    if c.sew ≠ 64 || c.lmul ≠ 1 || decide (d < 1) then illegal
    let n := d.toNat
    let badReg := decide (s.nvreg ≤ va.toNat) || !streamsOk (s.slot sl) none [maskOp va]
    let j := pc + BitVec.ofNat 64 (4 * n)
    if 256 < n then
      if badReg then illreg
      trap { cause := .libovf }
    match ← attempt (fetchWords (pc + 4) n) with
    | .error e =>
      if badReg then illreg
      throw e
    | .ok ws =>
      if ws.getLast? ≠ some vjoinWord then illegal
      if badReg then illreg
      if (← get).ownLent sl then stall
      let s ← get
      let inFn := (s.slot sl).call.isSome
      if !inFn && decide (256 < s.libUsed (slotCore sl) + n) then stall
      let lanes := c.range.filter fun i => c.bit va i
      match lanes with
      | [] =>
        set s.endVector
        return j + 4
      | i :: _ =>
        let s := s.modCore (slotCore sl) fun x =>
          if inFn then x else { x with lib := ⟨(s.slot sl).ctx, pc + 4, false, ws⟩ :: x.lib }
        set ((s.setPc pc).modSlot sl fun x =>
          { x with threads := some { split := pc, join := j, lanes := lanes.map fun i => (i, pc + 4, false), cur := i, mask := lanes } })
        return pc + 4)

/-- Comparisons of LBR (R341). -/
def lcondHolds (c : LCond) (a b : Word) : Bool :=
  match c with
  | .eq => a == b
  | .ne => a != b
  | .lt => a.slt b
  | .ge => !a.slt b
  | .ltn => a.ult b
  | .gen => !a.ult b

/-- Threads of the current slot. -/
def State.threads (s : State) : Option Threads :=
  match s.curSlot with | some sl => (s.slot sl).threads | none => none

/-- Outside a lane thread, LBR raises ILLEGAL when vl > vstart and is a no-operation otherwise (R95, R341). -/
def strayLbr : M Word := do
  let s ← get
  match s.curSlot with
  | none => illegal
  | some sl =>
    let c := s.vctx sl true 0
    if c.vstart < c.vl then illegal
    set s.endVector
    return s.pc + 4

/-- LBR (R341). -/
def execLbr (c : LCond) (ra rb : Reg) (off : BitVec 13) : State → Host.Outcome State Fault Refusal :=
  runJump (do
    let s ← get
    match s.threads with
    | none => strayLbr
    | some t =>
      scalarGate [ra, rb] 0
      let pc := s.pc
      if lcondHolds c (s.getX ra) (s.getX rb) then
        let dest := wordsFrom pc off
        if dest.ult (t.split + 4) || t.join.ult dest then illegal
        return dest
      else return pc + 4)

/-- The region of a VSPLIT leaves the lane instruction buffer. -/
def State.dropRegion (s : State) (sl : SlotId) (t : Threads) : State :=
  s.modCore (slotCore sl) fun x =>
    { x with lib := eraseFirst (fun e => !e.fn && e.addr == t.split + 4 && e.ctx == (s.slot sl).ctx) x.lib }

/-- VJOIN (R341): the thread stops; the vector re-forms when every thread has. -/
def execVjoin : State → Host.Outcome State Fault Refusal :=
  runJump (do
    let s ← get
    match s.curSlot, s.threads with
    | none, _ => illegal
    | some _, none =>
      set s.endVector
      return s.pc + 4
    | some sl, some t =>
      let pc := s.pc
      let lanes := t.lanes.map fun l => if l.1 == t.cur then (l.1, pc, true) else l
      if lanes.all fun l => l.2.2 then
        set ((s.dropRegion sl t).modSlot sl fun x => { x with threads := none }).endVector
        return t.after.getD (t.join + 4)
      else
        set (s.modSlot sl fun x => { x with threads := some { t with lanes := lanes } })
        return pc)

/-- The next lane thread in turn (R342): the first unjoined one after the current lane. -/
def Threads.rotate (t : Threads) : Threads :=
  let live := (t.lanes.filter fun l => !l.2.2).map (·.1)
  match (live.find? fun i => decide (t.cur < i)).or live.head? with
  | some i => { t with cur := i }
  | none => t

end Sys2Proof.Machine
end

