-- ==== Sys2Proof/Machine/VecConfig.lean ====
section
/-! DEFINITION. Vector configuration: the grant and VSETVLI, VSETVL (R292, R295 - R297). -/
namespace Sys2Proof.Machine

/-- The lowest-numbered free and enabled lane group of a core (R292). -/
def State.freeGroup (s : State) (c : Nat) : Option (Fin 16) :=
  (List.finRange 16).find? fun g => (s.core c).lanes[g].enabled && (s.core c).lanes[g].owner.isNone

/-- Take free groups until the grant is `want` or none is left (R292). -/
def State.takeGroups (s : State) (sl : SlotId) (want : Nat) : Nat → State
  | 0 => s
  | f + 1 =>
    if want ≤ s.grant sl then s
    else match s.freeGroup (slotCore sl) with
      | none => s
      | some g =>
        (s.modCore (slotCore sl) fun c =>
          { c with lanes := c.lanes.set g { c.lanes[g] with owner := some (BitVec.ofNat 2 (slotNum sl)) } }).takeGroups
          sl want f

/-- The grant that VSETVL wants for an AVL under a vtype (R292). -/
def wantGrant (r : LaunchRec) (avl : Nat) (v : BitVec 6) : Nat :=
  Nat.max r.lanesMin.toNat (Nat.min r.lanesMax.toNat ((avl * vtypeSew v + 256 * vtypeLmul v - 1) / (256 * vtypeLmul v)))

/-- A group that becomes owned is lent at that moment (R292). -/
def State.takesLent (s u : State) (c : Nat) : Bool :=
  (List.finRange 16).any fun g =>
    (s.core c).lanes[g].strip && (s.core c).lanes[g].owner.isNone && (u.core c).lanes[g].owner.isSome

/-- A slot takes back its own groups that are lent (R294). -/
def State.reclaim (s : State) (sl : SlotId) : State :=
  if s.ownLent sl then
    s.modCore (slotCore sl) fun c =>
      { c with lanes := c.lanes.map fun e =>
          if e.owner == some (BitVec.ofNat 2 (slotNum sl)) then { e with borrower := none, strip := false } else e }
  else s

/-- VSETVLI and VSETVL after their vtype is known (R296). A free group that is lent is waited for (R292); the slot's own
lent groups are reclaimed (R294). -/
def setVl (rd rs1 : Reg) (nt : Word) : M Unit := do
  let sl ← vecGate
  let s ← get
  if nt.toNat / 64 ≠ 0 || !vtypeOk (nt.truncate 6) then illegal
  let v : BitVec 6 := nt.truncate 6
  let avl := if rs1 ≠ 0 then (s.getX rs1).toNat else if rd ≠ 0 then 2 ^ 64 - 1 else s.hart.vl.toNat
  let want := wantGrant (s.slot sl).lrec avl v
  let u := (s.reclaim sl).takeGroups sl want 16
  if s.takesLent u (slotCore sl) then stall
  let s := u
  let vl := BitVec.ofNat 64 (Nat.min avl (vlmaxOf (s.grant sl) v))
  set ((s.modHart fun h => { h with vtype := v, vl := vl, vstart := 0, vlForced := false }).setX rd vl)

/-- VSETVLI (R296). -/
def execVsetvli (rd rs1 : Reg) (vtype : BitVec 6) : State → Host.Outcome State Fault Refusal :=
  runInstr 4 (setVl rd rs1 (vtype.zeroExtend 64))

/-- VSETVL (R296). -/
def execVsetvl (rd rs1 rs2 : Reg) : State → Host.Outcome State Fault Refusal :=
  runInstr 4 (do setVl rd rs1 ((← get).getX rs2))

end Sys2Proof.Machine
end

