-- ==== Sys2Proof/Machine/Tile.lean ====
section
/-! DEFINITION. The Innkeeper (spec/06_innkeeper.md): tile shape records, instances and rooms, chunk states, commit, and
the short tile control instructions. -/
namespace Sys2Proof.Machine

/-! ### Tile shape records (R157, R158) -/

def recField (r : TileRec) (off n : Nat) : Nat := bits r.toNat (8 * off) (8 * n)
def recTy (r : TileRec) : Ty := (Ty.ofCode (bits r.toNat 0 4)).getD .none
def recColMajor (r : TileRec) : Bool := r.getLsbD 4
def recFixed (r : TileRec) : Bool := r.getLsbD 8
def recRemote (r : TileRec) : Bool := r.getLsbD 9
def recRows (r : TileRec) : Nat := recField r 2 2
def recCols (r : TileRec) : Nat := recField r 4 2
def recInstances (r : TileRec) : Nat := recField r 6 1
def recGroup (r : TileRec) : Nat := recField r 7 1 % 16
def recChunk (r : TileRec) : Nat := recField r 0xC 2
def recCore (r : TileRec) : Nat := recField r 0xE 1 % 8
/-- Neither fixed nor remote (R161). -/
def recRenamable (r : TileRec) : Bool := !recFixed r && !recRemote r

/-- Bytes of an element; lg6 elements are packed instead (R72, R122). -/
def tyBytes : Ty → Nat
  | .i8 | .n8 | .f8e4 | .f8e5 => 1
  | .i16 | .n16 | .f16 | .bf16 => 2
  | .i32 | .n32 | .f32 => 4
  | .i64 | .n64 | .f64 => 8
  | .lg6 | .none => 1

/-- RowBytes of `len` elements of a type (R158). -/
def rowBytes (t : Ty) (len : Nat) : Nat := if t = .lg6 then 3 * ((len + 3) / 4) else len * tyBytes t

def recLines (r : TileRec) : Nat := if recColMajor r then recCols r else recRows r
def recLen (r : TileRec) : Nat := if recColMajor r then recRows r else recCols r
def recRowBytes (r : TileRec) : Nat := rowBytes (recTy r) (recLen r)
def recPitch (r : TileRec) : Nat := if recField r 8 4 = 0 then recRowBytes r else recField r 8 4
def recFootprint (r : TileRec) : Nat := (recLines r - 1) * recPitch r + recRowBytes r
def recChunks (r : TileRec) : Nat := (recFootprint r + 511) / 512
/-- All chunks of a tile, as a set. -/
def recAll (r : TileRec) : BitVec 256 := BitVec.ofNat 256 (2 ^ recChunks r - 1)

/-- Byte of the room where element (line, pos) begins: the byte that holds its bit 0 (R158, R168). -/
def elemByte (r : TileRec) (line pos : Nat) : Nat :=
  line * recPitch r + (if recTy r = .lg6 then 3 * (pos / 4) + 6 * (pos % 4) / 8 else pos * tyBytes (recTy r))

/-- (row, col) of (line, pos) under a record's layout, and back. -/
def rowCol (r : TileRec) (line pos : Nat) : Nat × Nat := if recColMajor r then (pos, line) else (line, pos)

/-- The first element that begins in a chunk or after it (R168), as (row, col); where none does, element 0 of the line past
the last one looked at (log 74). -/
def firstElem (r : TileRec) (chunk : Nat) : Nat × Nat :=
  let b := 512 * chunk
  let l := b / Nat.max 1 (recPitch r)
  match (List.range (recLen r)).find? (fun p => decide (b ≤ elemByte r l p)) with
  | some p => rowCol r l p
  | none => rowCol r (l + 1) 0

/-- The reason of R159 for which a record fails, apart from EMPTY and from its use, in a room area of `area` chunks. -/
def recReason (area : Nat) (r : TileRec) : Option Nat :=
  let pitch := recField r 8 4
  let inst := recInstances r
  let chunk := recChunk r
  if r = 0 then some 1
  else if bits r.toNat 5 3 ≠ 0 || bits r.toNat 10 6 ≠ 0 || 16 ≤ recField r 7 1 || 8 ≤ recField r 0xE 1
      || recField r 0xF 17 ≠ 0 then some 2
  else if recTy r = .none then some 3
  else if recRows r = 0 || recCols r = 0 || (pitch ≠ 0 && (pitch < recRowBytes r || pitch % 4 ≠ 0))
      || inst = 0 || 3 < inst then some 4
  else if (recFixed r && recRemote r) || ((recFixed r || recRemote r) && inst ≠ 1)
      || (recFixed r && area < chunk + recChunks r) || (recRemote r && 1024 < chunk + recChunks r)
      || (recRenamable r && chunk ≠ 0) || (!recRemote r && (recGroup r ≠ 0 || recCore r ≠ 0)) then some 6
  else if 256 < recChunks r then some 7
  else none

/-- TILESHAPE naming a tile, with its reason (R159). -/
def tileShape {α : Type} (n : TName) (reason : Nat) : M α :=
  trap { cause := .tileshape, tile := some (n, 0, 0), reason := BitVec.ofNat 32 reason }

/-! ### Entries (R161 - R165) -/

def Slot.entry? (x : Slot) (id : Nat) : Option Entry := x.entries.find? fun e => e.id == id
def Slot.modEntry (x : Slot) (id : Nat) (f : Entry → Entry) : Slot :=
  { x with entries := x.entries.map fun e => if e.id == id then f e else e }
/-- The current instance of a name (R161). -/
def Slot.current (x : Slot) (n : TName) : Option Entry := x.entries.find? fun e => e.name == n && e.current

/-- Tile instructions of a slot that have been decoded and have not finished, oldest first. -/
def Slot.unfinished (x : Slot) : List TileInstr := x.work ++ x.rob.toList

def TileInstr.reads (t : TileInstr) (id : Nat) : Bool :=
  (t.ta.any fun r => r.entry == some id) || (t.tb.any fun r => r.entry == some id)
def TileInstr.names (t : TileInstr) (n : TName) : Bool :=
  (t.td.any fun r => r.name == n) || (t.ta.any fun r => r.name == n) || (t.tb.any fun r => r.name == n)

/-- The readers column of an entry (R165). -/
def Slot.readers (x : Slot) (id : Nat) : Nat := (x.unfinished.filter fun t => t.reads id).length

/-- An instance that nothing needs is released (R162). -/
def Slot.release (x : Slot) : Slot :=
  { x with entries := x.entries.filter fun e =>
      e.current || x.readers e.id != 0 || e.pstate == .speculative || e.pstate == .committed }

/-- Entries in use by a core's slots beyond the four reserved to each (R165). -/
def State.sharedEntries (s : State) (core : Nat) : Nat :=
  ((List.range 4).map fun n => (s.slot (slotOf core n)).entries.length - 4).sum

/-- Chunks of the room area that no fixed tile holds, from the start of the area (R163). -/
def Slot.pool (x : Slot) : List Nat :=
  (List.range x.roomChunks).filter fun i =>
    x.tiles.toList.all fun r => !(recFixed r && decide (recChunk r ≤ i) && decide (i < recChunk r + recChunks r))

/-- Chunks that an entry's room holds. -/
def Entry.holds (e : Entry) (c : Nat) : Bool :=
  match e.first with | some f => decide (f ≤ c) && decide (c < f + e.chunks) | none => false

/-- Free pool chunks, beside the room of `but`. -/
def Slot.freePool (x : Slot) (but : Nat) : List Nat :=
  x.pool.filter fun i => x.entries.all fun e => e.fixed || e.id == but || !e.holds (x.roomFirst + i)

/-- The lowest run of n free pool chunks (R163), as a chunk of the scratchpad. -/
def Slot.findRun (x : Slot) (but n : Nat) : Option Nat :=
  let free := x.freePool but
  (free.find? fun i => (List.range n).all fun j => free.contains (i + j)).map (x.roomFirst + ·)

/-- Bytes of scratchpad written at the window port for the core's own engines: the order counters rise (R406), those who watch
them get notices (R45), Sett load entries of their chunks die (R368). -/
def State.putRoom (s : State) (core off : Nat) (bs : List Byte) : State :=
  if bs.isEmpty then s
  else
    let s := (s.setMem (Memory.putAll s.mem (scratchPA core off) bs)).countRange (scratchPA core off) bs.length
    let s := s.notifyRange (scratchPA core off) bs.length
    (List.range' (off / 512) ((off + bs.length - 1) / 512 + 1 - off / 512)).foldl (fun s c => s.settKillChunk core c) s

/-- Move an instance's room towards the start of the pool (R163). -/
def State.moveRoom (s : State) (sl : SlotId) (id : Nat) : State :=
  let x := s.slot sl
  match x.entry? id with
  | none => s
  | some e =>
    match e.first, x.findRun id e.chunks with
    | some f, some g =>
      if g < f then
        let bs := Memory.bytes s.mem (scratchPA (slotCore sl) (f * 512)) (e.chunks * 512)
        (s.putRoom (slotCore sl) (g * 512) bs).modSlot sl fun x => x.modEntry id fun e => { e with first := some g }
      else s
    | _, _ => s

/-- Insert by first chunk. -/
def insertByFirst (e : Entry) : List Entry → List Entry
  | [] => [e]
  | f :: t => if e.first.getD 0 ≤ f.first.getD 0 then e :: f :: t else f :: insertByFirst e t

/-- Compaction of a slot's renamable rooms (R163). -/
def State.compact (s : State) (sl : SlotId) : State :=
  let es := ((s.slot sl).entries.filter fun e => !e.fixed && e.first.isSome).foldr insertByFirst []
  es.foldl (fun s e => s.moveRoom sl e.id) s

/-- Give an entry its room and its instance number (R161, R399). -/
def Slot.giveRoom (x : Slot) (id : Nat) (n : TName) (first : Nat) : Slot :=
  let i := x.nextInst[n.toFin]
  { x.modEntry id (fun e => { e with first := some first, inst := i.val }) with nextInst := x.nextInst.set n.toFin (i + 1) }

/-- The live instances of a name beside an entry (R162). -/
def Slot.liveOf (x : Slot) (n : TName) (but : Nat) : List Entry :=
  x.entries.filter fun f => f.name == n && f.id != but && !f.fixed && f.first.isSome

/-- The current instance of a name is released before its next writer commits (R162): in place of the first condition alone,
so that one which the writer itself reads stays (log 84). -/
def Slot.supersede (x : Slot) (n : TName) : Slot :=
  { x with entries := x.entries.filter fun f => !(f.current && !f.fixed && f.name == n && x.readers f.id == 0) }

/-- The room of an uncommitted writer (R162, R163). The record of ROOMS names the tile (log 76). -/
def allocRoom (sl : SlotId) (r : TileRef) : M Unit := do
  modify fun s => s.modSlot sl Slot.release
  let x := (← get).slot sl
  match r.entry with
  | none => return ()
  | some id =>
    match x.entry? id with
    | none => return ()
    | some e =>
      if e.first.isSome then return ()
      let fits (x : Slot) : Option Nat := if (x.liveOf r.name id).length < recInstances r.shape then x.findRun id e.chunks else none
      match fits x with
      | some f => modify fun s => s.modSlot sl fun x => x.giveRoom id r.name f
      | none =>
        if !x.work.isEmpty then stall
        let others := ((x.entries.filter fun f => f.current && !f.fixed && f.name != r.name).map (·.chunks)).sum
        if x.pool.length < e.chunks + others then trap { cause := .rooms, tile := some (r.name, 0, 0) }
        modify fun s => (s.modSlot sl fun x => x.supersede r.name).compact sl
        match fits ((← get).slot sl) with
        | some f => modify fun s => s.modSlot sl fun x => x.giveRoom id r.name f
        | none => stall

/-! ### Chunk states (R166 - R168) -/

/-- Whether chunk c of a captured tile is ready; a fixed tile with no writer since placement, and a remote tile, is. -/
def Slot.chunkReady (x : Slot) (r : TileRef) (c : Nat) : Bool :=
  match r.entry with
  | none => true
  | some id => match x.entry? id with | some e => e.ready.getLsbD c | none => true
def Slot.chunkAbandoned (x : Slot) (r : TileRef) (c : Nat) : Bool :=
  match r.entry with
  | none => false
  | some id => match x.entry? id with | some e => e.abandoned.getLsbD c | none => false

def Slot.allReady (x : Slot) (r : TileRef) : Bool := (List.range (recChunks r.shape)).all (x.chunkReady r)

/-- The lowest abandoned chunk of a list. -/
def Slot.lowestAbandoned (x : Slot) (r : TileRef) (cs : List Nat) : Option Nat :=
  (cs.filter fun c => x.chunkAbandoned r c).foldl (fun m c => match m with
    | none => some c
    | some d => some (Nat.min d c)) none

/-- The CHUNKABANDON trap of a read of an abandoned chunk (R168). -/
def abandonTrap (r : TileRef) (c : Nat) : Trap :=
  let rc := firstElem r.shape c
  { cause := .chunkabandon, tile := some (r.name, BitVec.ofNat 16 rc.1, BitVec.ofNat 16 rc.2) }

/-- A block asleep in some wait looks at it again: its own, which a call may stand before, or its call's. -/
def Slot.rouse (x : Slot) (p : Wait → Bool) : Slot :=
  match x.call with
  | some c =>
    let x : Slot := if c.asleep && p c.savedWait then { x with call := some { c with asleep := false } } else x
    if x.run == .asleep && p x.wait then { x with run := .running } else x
  | none => if x.run == .asleep && p x.wait then { x with run := .running } else x

def State.rouse (s : State) (sl : SlotId) (p : Wait → Bool) : State :=
  if (s.slot sl).run == .empty then s else s.modSlot sl fun x => x.rouse p

/-- A wait on tile state that is over, or is to be looked at again (R180, R277, R278). -/
def Slot.tileWaitOver (x : Slot) : Wait → Bool
  | .twait (some id) cs => match x.entry? id with
    | some e => e.ready &&& cs == cs || e.abandoned &&& cs != 0
    | none => true
  | .twait none _ | .tsend | .trecv => true
  | _ => false

/-- Tile state of a block has changed: what waits on it looks again. -/
def State.rouseTiles (s : State) (sl : SlotId) : State := s.rouse sl (s.slot sl).tileWaitOver

/-- A chunk becomes ready (R167). -/
def State.setReady (s : State) (sl : SlotId) (id c : Nat) : State :=
  (s.modSlot sl fun x => x.modEntry id fun e => { e with ready := e.ready ||| (1#256 <<< c) }).rouseTiles sl

/-- The chunks of an entry that are not ready are abandoned (R168). -/
def State.abandonRest (s : State) (sl : SlotId) (id : Nat) : State :=
  (s.modSlot sl fun x => x.modEntry id fun e =>
    { e with abandoned := e.abandoned ||| (BitVec.ofNat 256 (2 ^ e.chunks - 1) &&& ~~~e.ready) }).rouseTiles sl

/-- Where a captured tile's bytes stand: core and offset in its scratchpad (R163, R164). -/
def State.tileAt (s : State) (sl : SlotId) (r : TileRef) : Nat × Nat :=
  let x := s.slot sl
  if recRemote r.shape then (slotCluster sl * 8 + recCore r.shape, recChunk r.shape * 512)
  else
    let f := match r.entry.bind x.entry? with
      | some e => e.first.getD 0
      | none => x.roomFirst + recChunk r.shape
    (slotCore sl, f * 512)

/-- Element (row, col) of a captured tile, from the bytes `rd off n` of its room. -/
def elemFrom (r : TileRec) (rd : Nat → Nat → Nat) (row col : Nat) : Nat :=
  let lp := rowCol r row col
  if recTy r = .lg6 then bits (rd (lp.1 * recPitch r + 3 * (lp.2 / 4)) 3) (6 * (lp.2 % 4)) 6
  else rd (elemByte r lp.1 lp.2) (tyBytes (recTy r))

/-- Element (row, col) of a captured tile. -/
def State.tileElem (s : State) (sl : SlotId) (r : TileRef) (row col : Nat) : Nat :=
  let at_ := s.tileAt sl r
  elemFrom r.shape (fun off n => Memory.nat s.mem (scratchPA at_.1 (at_.2 + off)) n) row col

/-- Write element (row, col) of a local tile; an lg6 element keeps its neighbours' bits. -/
def State.putTileElem (s : State) (sl : SlotId) (r : TileRef) (row col v : Nat) : State :=
  let at_ := s.tileAt sl r
  let lp := rowCol r.shape row col
  if recTy r.shape = .lg6 then
    let off := at_.2 + lp.1 * recPitch r.shape + 3 * (lp.2 / 4)
    let old := Memory.nat s.mem (scratchPA at_.1 off) 3
    let k := 6 * (lp.2 % 4)
    let last := if lp.2 + 1 = recLen r.shape then bits old 0 k + v % 64 * 2 ^ k
      else old - bits old k 6 * 2 ^ k + v % 64 * 2 ^ k
    s.putRoom at_.1 off (bytesOfNat 3 last)
  else s.putRoom at_.1 (at_.2 + elemByte r.shape lp.1 lp.2) (bytesOfNat (tyBytes (recTy r.shape)) v)

/-! ### Decode of a tile operand (R156, R159) -/

/-- A core that no tile may name (R159): ACCESS. -/
def State.coreGone (s : State) (c : Nat) : Bool := (s.core c).fused || (s.core c).fenced

/-- A tile that an instruction reads. -/
def readTile (sl : SlotId) (n : TName) : M TileRef := do
  let s ← get
  let x := s.slot sl
  let r := x.tiles[n.toFin]
  let empty := recRenamable r && (x.current n).isNone
  match recReason x.roomChunks r with
  | some k => tileShape n (if empty && decide (5 < k) then 5 else k)
  | none =>
    if empty then tileShape n 5
    if recRemote r && s.coreGone (slotCluster sl * 8 + recCore r) then trap { cause := .access }
    return ⟨n, r, (x.current n).map (·.id)⟩

/-- A tile that an instruction writes: its record; the entry is made after every check. -/
def destTile (sl : SlotId) (n : TName) : M TileRef := do
  let x := (← get).slot sl
  let r := x.tiles[n.toFin]
  match recReason x.roomChunks r with
  | some k => tileShape n (if recRemote r && decide (6 < k) then 6 else k)
  | none =>
    if recRemote r then tileShape n 6
    return ⟨n, r, none⟩

/-- A fresh name of the model's own for an entry or an instruction. -/
def freshId (sl : SlotId) : M Nat := do
  let n := ((← get).slot sl).nextId
  modify fun s => s.modSlot sl fun x => { x with nextId := n + 1 }
  return n

/-- The reorder-buffer index of a slot's uncommitted tile instruction (R165, R169): a slot has one at a time, which takes the
first of the eight entries reserved to the slot, so that none waits for a free one (log 38). -/
def robIndex (sl : SlotId) : BitVec 6 := BitVec.ofNat 6 (8 * slotNum sl)

/-- Take an entry for a write (R165): it waits where neither a reserved nor a shared one is free. -/
def takeEntry (sl : SlotId) (r : TileRef) : M TileRef := do
  modify fun s => s.modSlot sl Slot.release
  let s ← get
  let x := s.slot sl
  if 4 ≤ x.entries.length && 48 ≤ s.sharedEntries (slotCore sl) then stall
  let id ← freshId sl
  let e : Entry := { id := id, name := r.name, inst := 0, fixed := recFixed r.shape
                     first := if recFixed r.shape then some (x.roomFirst + recChunk r.shape) else none
                     chunks := recChunks r.shape, producer := robIndex sl, pstate := .speculative, ready := 0, abandoned := 0
                     current := false }
  modify fun s => s.modSlot sl fun x => { x with entries := x.entries ++ [e] }
  return { r with entry := some id }

/-! ### Commit (R169, R171) -/

/-- A squashed instruction leaves nothing (R171, R399). -/
def Slot.squash (x : Slot) : Slot :=
  match x.rob with
  | none => x
  | some t =>
    { x with rob := none, pbRead := []
             entries := match t.td.bind (·.entry) with
               | some id => x.entries.filter fun e => e.id != id
               | none => x.entries }

/-- The committed writer's instance becomes the current one (R161, R165). -/
def Slot.makeCurrent (x : Slot) (r : TileRef) : Slot :=
  match r.entry with
  | none => x
  | some id => { x with entries := x.entries.map fun e =>
      if e.id == id then { e with current := true, pstate := .committed }
      else if e.name == r.name then { e with current := false } else e }

/-- An instruction with work left joins the committed, unfinished ones; its writer's instance is current. -/
def Slot.commit (x : Slot) (t : TileInstr) : Slot :=
  let x := match t.td with | some r => x.makeCurrent r | none => x
  { x with rob := none, work := x.work ++ [t], pbRead := [] }

/-- Words of functions and regions that no block uses any more leave the lane instruction buffer (R339, R345). -/
def State.libSweep (s : State) (core : Nat) : State :=
  let used (e : LaneCode) : Bool := (List.range 4).any fun n =>
    let x := s.slot (slotOf core n)
    x.ctx == e.ctx && (if e.fn then
        x.unfinished.any fun t => match t.op with | .map _ _ _ fn _ => fn == e.addr | _ => false
      else match x.threads with | some t => t.split + 4 == e.addr | none => false)
  s.modCore core fun c => { c with lib := c.lib.filter used }

/-- A committed instruction finishes: its readers go, its instance is finished (R162, R165). -/
def State.finishTile (s : State) (sl : SlotId) (t : TileInstr) : State :=
  (s.modSlot sl fun x =>
    let x := { x with work := x.work.filter fun u => u.id != t.id }
    match t.td.bind (·.entry) with
    | some id => x.modEntry id fun e => { e with pstate := .finished }
    | none => x).libSweep (slotCore sl)

/-- A write of a fixed tile waits for every earlier instruction that reads or writes the name (R164). -/
def fixedWait (sl : SlotId) (t : TileInstr) : M Unit := do
  match t.td with
  | some r =>
    if recFixed r.shape && ((← get).slot sl).work.any (fun u => u.names r.name) then stall
  | none => return ()

/-- A tile instruction from decode to commit: `dec` checks it and captures its operands; `com` acts at commit and says
whether it is done. It stays uncommitted while `com` waits; a trap squashes it (R169, R171). -/
def tileInstr (dec : SlotId → M TileInstr) (com : SlotId → TileInstr → M Unit) : M Unit := do
  let sl ← tileGate
  let t ← match ((← get).slot sl).rob with
    | some t => pure t
    | none => do
      let t ← dec sl
      modify fun s => s.modSlot sl fun x => { x with rob := some t }
      pure t
  match ← attempt (com sl t) with
  | .ok _ => return ()
  | .error .stall => stall
  | .error e =>
    modify fun s => s.modSlot sl Slot.squash
    throw e

/-- Commit of an instruction whose work goes on after it: the fixed-tile wait, `pre`, the room, then the reorder buffer
gives it up (R163, R164, R169). -/
def commitWork (pre : SlotId → TileInstr → M TileInstr) (sl : SlotId) (t : TileInstr) : M Unit := do
  fixedWait sl t
  match t.td with
  | some r => allocRoom sl r
  | none => pure ()
  let t ← pre sl t
  modify fun s => s.modSlot sl fun x => x.commit t

/-! ### Releases and failed writes (R173) -/

/-- The trap by which TSIGNAL, TBAR and TEND report a failed write (R173). -/
def failedTrap (f : FailedWrite) : Trap :=
  { cause := .chunkabandon, tile := f.tile, elem := f.elem, va := f.va, vaValid := true, at? := some f.iva }

/-- Every write and every Porter command of the current block is done: what TSIGNAL, TBAR and TEND wait for, whatever the
page (R183 - R185, R256). -/
def State.commandsDone (s : State) (sl : SlotId) : Bool :=
  s.settledFor false true && (List.range 32).all fun k => (s.cluster k).porter.cmds.all fun c => c.slot != sl || c.src == .tile

/-- Wait until every older write of the block is acknowledged; a failed one is reported (R173, R183). -/
def releaseChecked (sl : SlotId) : M Unit := do
  if !(← get).commandsDone sl then stall
  match ((← get).slot sl).failed with
  | some f => trap (failedTrap f)
  | none => return ()

/-! ### Short tile control instructions (R176 - R186) -/

/-- TDEF (R177): an undefined record needs no check of its own. -/
def execTdef (tn : TName) (ra : Reg) : State → Host.Outcome State Fault Refusal :=
  runInstr 4 (do
    let sl ← tileGate
    let s ← get
    let a := s.getX ra
    let new : TileRec ← if ra = 0 then pure 0 else do
      if a.toNat % 32 ≠ 0 then trap { cause := .align, va := a, vaValid := true, tval := a }
      let bs ← loadBytes a 32 (scalarUse .load) .normal
      pure (BitVec.ofNat 256 (natOfBytes bs))
    let x := (← get).slot sl
    let old := x.tiles[tn.toFin]
    let moved := recFixed old && (recField new 1 1 != recField old 1 1 || recChunk new != recChunk old)
    match (if new = 0 then none else recReason x.roomChunks new) with
    | some k => tileShape tn (if moved && decide (6 < k) then 6 else k)
    | none => if moved then tileShape tn 6
    if recRemote new && (← get).coreGone (slotCluster sl * 8 + recCore new) then trap { cause := .access }
    modify fun s => s.modSlot sl fun x =>
      { x with tiles := x.tiles.set tn.toFin new
               entries := x.entries.map fun e => if e.name == tn && !e.fixed then { e with current := false } else e })

/-- TSHAPE (R178). -/
def execTshape (ra : Reg) : State → Host.Outcome State Fault Refusal :=
  runInstr 4 (do
    let _ ← tileGate
    let req := ((← get).getX ra).toNat
    let f (i : Nat) : Nat := Nat.min (bits req (16 * i) 16) 128 * 2 ^ (16 * i)
    modify fun s => s.modHart fun h => { h with tshape := BitVec.ofNat 48 (f 0 + f 1 + f 2) })

/-- TFREE (R179). -/
def execTfree (tn : TName) : State → Host.Outcome State Fault Refusal :=
  runInstr 4 (do
    let sl ← tileGate
    modify fun s => s.modSlot sl fun x =>
      { x with entries := x.entries.map fun e => if e.name == tn && !e.fixed then { e with current := false } else e })

/-- The name of a TWAIT, TCHK or TACQ (R180 - R182): a remote one raises TILESHAPE, as a check of its record, before the
ACCESS of a core that is gone (R159; the order is the model's choice, log 72). -/
def watchTile (sl : SlotId) (n : TName) : M TileRef := do
  let x := (← get).slot sl
  let r := x.tiles[n.toFin]
  if recRemote r && (recReason x.roomChunks r).all (fun k => decide (6 < k)) then tileShape n 6
  readTile sl n

/-- Chunks of a captured tile that are ready and not abandoned (R181). -/
def Slot.readySet (x : Slot) (r : TileRef) : BitVec 256 :=
  let e := match r.entry with
    | none => (BitVec.allOnes 256, 0#256)
    | some id => match x.entry? id with | some e => (e.ready, e.abandoned) | none => (BitVec.allOnes 256, 0#256)
  recAll r.shape &&& e.1 &&& ~~~e.2

/-- TWAIT (R180): asleep with the PC at the TWAIT until its chunks are ready. -/
def execTwait (tn : TName) (ra : Reg) (g : BitVec 2) : State → Host.Outcome State Fault Refusal :=
  runInstr 4 (do
    let sl ← tileGate
    let r ← watchTile sl tn
    let s ← get
    let x := s.slot sl
    let all := recAll r.shape
    let set? := if ra = 0 then all else ((s.getX ra).zeroExtend 256 <<< (64 * g.toNat)) &&& all
    let cs := (List.range 256).filter fun c => set?.getLsbD c
    match x.lowestAbandoned r cs with
    | some c =>
      modify fun s => s.endWait sl
      trap (abandonTrap r c)
    | none =>
      if cs.all (x.chunkReady r) then modify fun s => s.endWait sl
      else
        set (s.sleepOn sl (.twait r.entry set?) 0 0 [])
        stall)

/-- TCHK (R181). -/
def execTchk (tn : TName) (ra : Reg) (g : BitVec 2) : State → Host.Outcome State Fault Refusal :=
  runInstr 4 (do
    let sl ← tileGate
    let r ← watchTile sl tn
    let x := (← get).slot sl
    writeX ra (((x.readySet r) >>> (64 * g.toNat)).truncate 64))

/-- TACQ (R182): bits 256 and above of the register stay. -/
def execTacq (tn : TName) (va : Reg) : State → Host.Outcome State Fault Refusal :=
  runInstr 4 (do
    let sl ← tileGate
    let s ← get
    if s.nvreg ≤ va.toNat || (s.slot sl).streamsHere.any (fun e => e.2.reg == va) then illreg
    let r ← watchTile sl tn
    let x := (← get).slot sl
    let v : VReg := x.vregs[va.toFin]
    let new : VReg := (v &&& ~~~(BitVec.ofNat 4096 (2 ^ 256 - 1))) ||| (x.readySet r).zeroExtend 4096
    modify fun s => s.setVregs sl 4096 (x.vregs.set va.toFin new) ⟨va, 0, 8⟩)

/-- TSIGNAL and TSIGNAL.add (R183). -/
def tsignal (add : Bool) (ra rb : Reg) : M Unit := do
  let sl ← tileGate
  let s ← get
  let a := s.getX ra
  let v := (s.getX rb).toNat
  if a.toNat % 8 ≠ 0 then trap { cause := .align, va := a, vaValid := true, tval := a }
  releaseChecked sl
  let _ ← atomicBytes a 8 (atomicUse .store) (pure ()) fun bs =>
    some (bytesOfNat 8 (if add then natOfBytes bs + v else v))
  return ()

/-- TSIGNAL (R183). -/
def execTsignal (ra rb : Reg) : State → Host.Outcome State Fault Refusal := runInstr 4 (tsignal false ra rb)
/-- TSIGNAL.add (R183). -/
def execTsignalAdd (ra rb : Reg) : State → Host.Outcome State Fault Refusal := runInstr 4 (tsignal true ra rb)

def Crossroads.barrier (x : Crossroads) (b : BitVec 4) : Barrier := x.barriers[b.toFin]

/-- An arrival at a barrier (R184): the first fixes the count; the last releases every waiter of the cluster. -/
def State.arrive (s : State) (k : Nat) (b : BitVec 4) (n : Nat) : State :=
  let old := (s.cluster k).xr.barrier b
  let n := if old.arrivals = 0 then n else old.n
  let full := decide (n ≤ old.arrivals + 1)
  let new : Barrier := if full then { n := n, arrivals := 0, gen := old.gen + 1 }
    else { n := n, arrivals := old.arrivals + 1, gen := old.gen }
  let s := s.modCluster k fun c => { c with xr := { c.xr with barriers := c.xr.barriers.set b.toFin new } }
  if full then
    (List.range 32).foldl (fun s i => s.rouse (BitVec.ofNat 10 (k * 32 + i)) fun w =>
      match w with | .tbar b' g => b' == b && g == old.gen | _ => false) s
  else s

/-- TBAR (R184). -/
def execTbar (ra : Reg) (b : BitVec 4) : State → Host.Outcome State Fault Refusal :=
  runInstr 4 (do
    let sl ← tileGate
    let s ← get
    let x := s.slot sl
    let k := slotCluster sl
    if !x.lrec.barriers.getLsbD b.toNat then trap { cause := .slotcoll, reason := 3 }
    let n := Nat.min (s.getX ra).toNat 32
    match x.wait with
    | .tbar b' g =>
      if b' = b ∧ ((s.cluster k).xr.barrier b).gen ≠ g then modify fun s => s.endWait sl
      else
        modify fun s => s.modSlot sl fun x => { x with run := .asleep }
        stall
    | _ =>
      if n = 0 then return ()
      releaseChecked sl
      let g := (((← get).cluster k).xr.barrier b).gen
      modify fun s => s.arrive k b n
      if (((← get).cluster k).xr.barrier b).gen ≠ g then return ()
      modify fun s => s.modSlot sl fun x => { x with wait := .tbar b g, run := .asleep }
      stall)

/-- The blocks of a core look again at what they sleep on. -/
def State.rouseCore (s : State) (c : Nat) (p : Wait → Bool) : State :=
  (List.range 4).foldl (fun s n => s.rouse (slotOf c n) p) s

/-- The TSENDs of a cluster that sleep look at its postings again (R278). -/
def State.rouseSends (s : State) (k : Nat) : State :=
  (List.range 8).foldl (fun s i => s.rouseCore (k * 8 + i) fun w => w == .tsend) s

/-- A TSEND has bound the posting (R278). -/
def Posting.bound (p : Posting) : Bool := p.sender.isSome

/-- Committed receives of a core's blocks whose posting was withdrawn open it again where the channel is free (R277, R285). -/
def State.reopen (s : State) (c : Nat) : State :=
  (List.range 4).foldl (fun s n =>
    let sl := slotOf c n
    let x := s.slot sl
    if x.run == .empty || x.run == .evicting || x.halted then s
    else x.work.foldl (fun s t => match t.op with
      | .recv src ch =>
        if (s.core c).postings.any fun p => p.ch == ch || (p.slot == sl && p.instr == t.id) then s
        else (s.modCore c fun y => { y with postings := y.postings ++ [⟨sl, ch, src, t.id, none⟩] }).rouseSends (coreCluster c)
      | _ => s) s) s

/-- A channel of a core has come free: a withdrawn posting opens again, and waiting TRECVs look (R277). -/
def State.channelFreed (s : State) (c : Nat) : State := (s.reopen c).rouseCore c fun w => w == .trecv

/-- A receive that a TSEND has bound ends: all its chunks have come, or no more will (R277, R280). -/
def State.endPosting (s : State) (c : Nat) (by_ : SlotId × Nat) : State :=
  match (s.core c).postings.find? (fun p => p.sender == some by_) with
  | none => s
  | some p =>
    let s := s.modCore c fun x => { x with postings := x.postings.filter fun q => q != p }
    let s := match (s.slot p.slot).work.find? (fun t => t.id == p.instr) with
      | none => s
      | some t =>
        let s := match t.td.bind (·.entry) with | some id => s.abandonRest p.slot id | none => s
        s.finishTile p.slot t
    s.channelFreed c

/-- A bound send ends: its receivers keep what has come (R280). -/
def State.endSend (s : State) (k : Nat) (m : Send) : State :=
  let s := s.modCluster k fun c => { c with xr := { c.xr with sends := c.xr.sends.filter fun n => n != m } }
  (List.range 8).foldl (fun s d =>
    if m.dests.getLsbD d then s.endPosting (k * 8 + d) (m.slot, m.instr) else s) s

/-- What leaves with a block: its stream writes that are held, its lane groups, postings, sends, Porter commands,
watches, functions, and its slot (R185, R280, R290, R336). -/
def State.freeSlot (s : State) (sl : SlotId) : State :=
  let n := BitVec.ofNat 2 (slotNum sl)
  let c := slotCore sl
  let k := slotCluster sl
  let s := (s.slot sl).streams.toList.foldl (fun s q => s.failHeld q) s
  let s := (s.dropWatches (.slot sl)).dropSnoops c
  let s := { s with watches := s.watches.filter fun w => match w.who with | .coll _ i => i % 1024 != sl.toNat | _ => true }
  let s := (List.range 32).foldl (fun s j => s.modCluster j fun y =>
    { y with porter := { y.porter with cmds := y.porter.cmds.filter fun m => m.slot != sl } }) s
  let s := ((s.cluster k).xr.sends.filter fun m => m.slot == sl).foldl (fun s m => s.endSend k m) s
  let s := s.modCluster k fun y => { y with xr := { y.xr with
    remote := y.xr.remote.filter fun m => m.reader != sl } }
  let s := s.modCore c fun y =>
    { y with lanes := y.lanes.map fun e =>
               { e with owner := if e.owner == some n then none else e.owner
                        borrower := if e.borrower == some n then none else e.borrower
                        strip := e.strip && e.borrower != some n }
             postings := y.postings.filter fun p => p.slot != sl
             opbuf := y.opbuf.filter fun p => p.slot != sl
             fills := y.fills.filter fun f => f.2.1 != sl
             hints := y.hints.filter fun h => h.2 != sl
             stamp := y.stamp.set n.toFin (y.stamp[n.toFin] + 1) }
  (((s.setSlot sl {}).libSweep c).sweepDens c).channelFreed c

/-- Whether any work of a block is still under way (R185, R256). -/
def State.slotBusy (s : State) (sl : SlotId) : Bool :=
  !(s.slot sl).work.isEmpty
  || ((List.range 32).any fun k => (s.cluster k).porter.cmds.any fun m =>
        m.slot == sl && (m.src == .tile || m.started))

/-- TEND (R185): DONE is in the event queue before the block's slot is free. -/
def execTend : State → Host.Outcome State Fault Refusal := fun s =>
  if s.power = .off then .fault .poweredOff
  else finish ((do
    let sl ← tileGate
    let s ← get
    if s.slotBusy sl then stall
    releaseChecked sl
    let s ← get
    if !s.eventRoom (slotCluster sl) then stall
    set ((s.pushEvent (slotCluster sl) (s.slotEvent sl 2 0 0)).freeSlot sl)).run s)

/-- TLAUNCH (R186): asleep until the Steward returns the status word. -/
def execTlaunch (ra rb : Reg) : State → Host.Outcome State Fault Refusal :=
  runInstr 4 (do
    let sl ← tileGate
    let s ← get
    match (s.slot sl).wait with
    | .tlaunch _ _ (some v) =>
      modify fun s => (s.endWait sl).setX ra v
    | .tlaunch _ _ none =>
      modify fun s => s.modSlot sl fun x => { x with run := .asleep }
      stall
    | _ =>
      let rec? := s.getX rb
      if !(← get).settledFor false true then stall
      modify fun s => (s.postEvent (slotCluster sl) (s.slotEvent sl 8 rec? (ra.zeroExtend 64))).modSlot sl fun x =>
        { x with wait := .tlaunch rec? ra none, run := .asleep }
      stall)

end Sys2Proof.Machine
end

