-- ==== Sys2Proof/Machine/MicroOp.lean ====
section
/-! DEFINITION. What the micro-operations of tile instructions share: their operands, remote ones among them, and a fault of
committed work (R166, R168, R282, R394, R508). -/
namespace Sys2Proof.Machine

/-! ### Operands of a micro-operation -/

/-- Chunks of a room that hold any byte of element (row, col). -/
def elemChunks (r : TileRec) (row col : Nat) : List Nat :=
  let lp := rowCol r row col
  let a := elemByte r lp.1 lp.2 / 512
  let b := (elemByte r lp.1 lp.2 + (if recTy r = .lg6 then bits (6 * lp.2 % 8 + 5) 3 1 else tyBytes (recTy r) - 1)) / 512
  if a = b then [a] else [a, b]

/-- Chunks that hold any of some elements, in ascending number (R394). -/
def chunksOf (r : TileRec) (es : List (Nat × Nat)) : List Nat :=
  let cs := es.flatMap fun e => elemChunks r e.1 e.2
  (List.range (recChunks r)).filter cs.contains

/-- How the operands of a micro-operation stand (R166, R168, R282). -/
inductive Operands where
  | ready
  | wait
  /-- Remote chunks to be asked for. -/
  | ask (rs : List RemoteReq)
  /-- A fault of committed work (R508). -/
  | stop (t : Trap)
  deriving DecidableEq, Repr

/-- A remote tile of another core of the cluster is read over Crossroads (R164, R282). -/
def viaCrossroads (sl : SlotId) (r : TileRec) : Bool := recRemote r && slotCore sl % 8 != recCore r

/-- Remote chunks of an operand that its micro-operation has not latched. -/
def State.unlatched (s : State) (sl : SlotId) (id : Nat) (r : TileRef) (cs : List Nat) : List RemoteReq :=
  if viaCrossroads sl r.shape then
    (cs.filter fun c => !(s.core (slotCore sl)).opbuf.any fun o =>
      o.slot == sl && o.instr == id && o.owner == recCore r.shape && o.chunk == recChunk r.shape + c).map fun c =>
        { reader := sl, instr := id, owner := BitVec.ofNat 3 (recCore r.shape), chunk := recChunk r.shape + c
          group := BitVec.ofNat 4 (recGroup r.shape) }
  else []

/-- The operands of a micro-operation of an instruction: each tile with the chunks it reads, ta's before tb's (R394). -/
def State.operands (s : State) (sl : SlotId) (t : TileInstr) (os : List (TileRef × List Nat)) : Operands :=
  let x := s.slot sl
  match os.findSome? fun o => (x.lowestAbandoned o.1 o.2).map fun c => abandonTrap o.1 c with
  | some f => .stop { f with at? := some t.pc }
  | none =>
    if os.any fun o => viaCrossroads sl o.1.shape && s.coreGone (slotCluster sl * 8 + recCore o.1.shape) then
      .stop { cause := .access, at? := some t.pc }
    else if !(os.all fun o => recRemote o.1.shape || o.2.all (x.chunkReady o.1)) then .wait
    else
      let rs := os.flatMap fun o => s.unlatched sl t.id o.1 o.2
      if rs.isEmpty then .ready else .ask rs

/-- An element of an operand, from the room or from the operand buffer. -/
def State.opElem (s : State) (sl : SlotId) (id : Nat) (r : TileRef) (row col : Nat) : Nat :=
  if viaCrossroads sl r.shape then
    let buf := (s.core (slotCore sl)).opbuf
    let byte (off : Nat) : Byte :=
      match buf.find? fun o => o.slot == sl && o.instr == id && o.owner == recCore r.shape && o.chunk == recChunk r.shape + off / 512 with
      | some o => BitVec.ofNat 8 (bits o.data.toNat (8 * (off % 512)) 8)
      | none => 0
    elemFrom r.shape (fun off n => natOfBytes (tabulate (fun i => byte (off + i)) n)) row col
  else s.tileElem sl r row col

/-- The operand buffer keeps nothing between micro-operations (R394). -/
def State.clearOps (s : State) (sl : SlotId) (id : Nat) : State :=
  s.modCore (slotCore sl) fun c => { c with opbuf := c.opbuf.filter fun o => !(o.slot == sl && o.instr == id) }

/-- Committed tile work fails: its td is abandoned, and its slot stops (R398, R508). -/
def State.failTile (s : State) (sl : SlotId) (t : TileInstr) (tr : Trap) : State :=
  let s := match t.td.bind (·.entry) with
    | some id => s.abandonRest sl id
    | none => s
  ((s.finishTile sl t).clearOps sl t.id).modSlot sl fun x => { x with stop := x.stop.or (some tr) }

end Sys2Proof.Machine
end

