-- ==== Sys2Proof/Machine/Copy.lean ====
section
/-! DEFINITION. Porters (spec/09_porters.md): copy instructions, parameter blocks, and the carrying out of commands. -/
namespace Sys2Proof.Machine

/-! ### Accesses of an agent that is no hart -/

/-- Bytes read for an agent, granule by granule, under its context (R205, R258); registers as they read (R28, R143). -/
def agentRead (w : WalkSrc) (src : Source) (ctx : BitVec 16) (u : Use) (hint : Hint) :
    List (Word × Nat) → M (List Byte)
  | [] => return []
  | (va, n) :: rest => do
    let l ← translate w false ctx va u
    dataCheck src u va l
    let bs ← if pteCmp l.pte then do
        match ← readCompressed src l.pa n with
        | .ok bs => pure bs
        | .error c => accessFault c va 0 u.acc
      else if isIo l.pa then do
        match (← get).ioRead l.pa n with
        | .ok bs => pure bs
        | .error c => accessFault c va 0 u.acc
      else do
        let s ← get
        set ((s.didRead src l.home l.pa hint).snoopDone l.pa)
        pure (Memory.bytes s.mem l.pa n)
    let more ← agentRead w src ctx u hint rest
    return bs ++ more

/-- Bytes written for an agent; `h` says for which block, and what failed write the bytes are if they are lost. -/
def agentWrite (w : WalkSrc) (src : Source) (ctx : BitVec 16) (u : Use) (hint : Hint) (h : HeldWrite) :
    List (Word × Nat) → List Byte → M Unit
  | [], _ => return ()
  | (va, n) :: rest, bs => do
    let l ← translate w false ctx va u
    dataCheck src u va l
    let s ← get
    let here := bs.take n
    let fail : FailedWrite := { h.fail with va := va }
    if isIo l.pa then
      match s.ioFault (cutWords 5 l.pa n) with
      | some c => accessFault c va 0 u.acc
      | none => set (s.regWrite src l.pa here)
    else match regionOf l.pa with
    | .core c off =>
      match winPart off with
      | .stream t k o =>
        if s.streamRefuses (slotOf c t) k then accessFault .access va 0 u.acc
        set (s.streamIn (slotOf c t) k o here { h with fail := fail, un := pteOrd l.pte == 2, so := pteOrd l.pte == 1 })
      | _ => set (s.performWrite src l.home l.pa hint here)
    | _ =>
      if s.corrupt l.pa && n != 32 then accessFault .decode va 0 u.acc
      let s := s.performWrite src l.home l.pa hint here
      set ((match h.writer with | some sl => s.noteHost l.home l.pa sl fail | none => s).snoopDone l.pa)
    agentWrite w src ctx u hint h rest (bs.drop n)

/-- An indivisible addition of an agent to a 64-bit flag (R257, R264): ORDKIND, ACCESS and alignment as for atomics. `h` says for
which block, and what failed write it is if it is lost (R486). -/
def agentAdd (w : WalkSrc) (src : Source) (ctx : BitVec 16) (h : SlotId × FailedWrite) (va : Word) (v : Nat) : M Unit := do
  if crosses va 8 then trap { cause := .align, va := va, vaValid := true, acc := .store }
  let u : Use := { acc := .store, atomic := true, noChip := true, reads := true, who := .copy }
  let l ← translate w false ctx va u
  dataCheck src u va l
  let s ← get
  let s := s.performWrite src l.home l.pa .normal (bytesOfNat 8 (Memory.nat s.mem l.pa 8 + v))
  set ((s.noteHost l.home l.pa h.1 { h.2 with va := va }).snoopDone l.pa)

/-! ### Conversions (R252) -/

/-- Whether a copy may convert (R252). -/
def convOk (src dst : Ty) : Bool :=
  let wide (t : Ty) : Bool := t == .f64 || t == .f32 || t == .f16 || t == .bf16
  src == dst || ((tyFl src).isSome && (tyFl dst).isSome) || (src == .lg6 && wide dst) || (wide src && dst == .lg6)

/-- One element converted (R252): every NaN it produces is canonical. -/
def convert (src dst : Ty) (v : Nat) : Nat :=
  if src = dst then v
  else match tyFl src, tyFl dst with
    | some a, some b => (a.convert b .rne v).1
    | none, some b => (b.deliver .rne (lgDecode v)).1
    | some a, none => (lgOf (a.decode v)).1
    | none, none => v

/-! ### The shape of a copy in memory (R244, R246) -/

/-- Memory elements of a copy: type, lines and elements of a line, and the address of an element (of its group for
lg6); none where the element is out of range. -/
structure Geom where
  ty : Ty
  lines : Nat
  len : Nat
  addr : Nat → Nat → Option Word

/-- Byte of an element, or of its group, within a line (R122, R244). -/
def posByte (t : Ty) (pos : Nat) : Nat := if t = .lg6 then 3 * (pos / 4) else pos * tyBytes t

/-- A plain copy (R244). -/
def plainGeom (r : TileRec) (mty : Ty) (base step : Word) : Geom :=
  let m := if mty = .none then recTy r else mty
  let st := if step = 0 then BitVec.ofNat 64 (rowBytes m (recLen r)) else step
  { ty := m, lines := recLines r, len := recLen r
    addr := fun l p => some (base + BitVec.ofNat 64 l * st + BitVec.ofNat 64 (posByte m p)) }

/-! ### Parameter blocks (R245 - R249) -/

def pbField (p : PBlock) (off n : Nat) : Nat := bits p.toNat (8 * off) (8 * n)
def pbGen (p : PBlock) : BitVec 16 := BitVec.ofNat 16 (pbField p 0 2)
def pbDims (p : PBlock) : Nat := pbField p 2 1
def pbTy (p : PBlock) : Option Ty := if pbField p 3 1 < 16 then Ty.ofCode (pbField p 3 1) else none
def pbMask (p : PBlock) : Bool := bits (pbField p 4 2) 0 1 == 1
def pbSignal (p : PBlock) : Bool := bits (pbField p 4 2) 1 1 == 1
def pbExtent (p : PBlock) (d : Nat) : Int := (pbField p (0x18 + 4 * d) 4 : Nat)
def pbOrigin (p : PBlock) (d : Nat) : Int := sint (pbField p (0x2C + 4 * d) 4) 32
def pbBox (p : PBlock) (d : Nat) : Nat := pbField p (0x40 + 2 * d) 2
def pbStride (p : PBlock) (d : Nat) : Int := sint (pbField p (0x50 + 8 * (d - 1)) 8) 64
def pbLen (p : PBlock) : Nat := pbBox p 0
def pbLines (p : PBlock) : Nat := (List.range' 1 (pbDims p - 1)).foldl (fun n d => n * pbBox p d) 1

/-- Index taken in dimension d by element (line, pos) (R246). -/
def pbIndex (p : PBlock) (line pos d : Nat) : Nat :=
  if d = 0 then pos else line / (List.range' 1 (d - 1)).foldl (fun n e => n * pbBox p e) 1 % Nat.max 1 (pbBox p d)

/-- The copy that a block describes (R246). -/
def pbGeom (p : PBlock) : Geom :=
  let t := (pbTy p).getD .none
  let dims := List.range (pbDims p)
  { ty := t, lines := pbLines p, len := pbLen p
    addr := fun l pos =>
      let i (d : Nat) : Int := pbOrigin p d + (pbIndex p l pos d : Nat)
      if dims.all fun d => decide (0 ≤ i d) && decide (i d < pbExtent p d) then
        let at0 : Int := (posByte t (i 0).toNat : Nat)
        let off := (dims.filter (· ≠ 0)).foldl (fun (a : Int) d => a + i d * pbStride p d) at0
        some (BitVec.ofInt 64 ((pbField p 8 8 : Nat) + off))
      else none }

/-- The fields of a block are as R245 requires. -/
def pbFieldsOk (p : PBlock) : Bool :=
  let nd := pbDims p
  let pad := pbField p 0x10 8
  decide (1 ≤ nd) && decide (nd ≤ 5)
    && (match pbTy p with
      | none => false
      | some t => t != .none && (if t == .lg6 then decide (pad < 64) else decide (pad < 2 ^ (8 * tyBytes t))))
    && decide (pbField p 4 2 < 4) && pbField p 6 2 == 0 && pbField p 0x4A 6 == 0
    && ((List.range 5).all fun d =>
        if d < nd then pbBox p d != 0
        else pbField p (0x18 + 4 * d) 4 == 0 && pbField p (0x2C + 4 * d) 4 == 0 && pbBox p d == 0
          && (d == 0 || pbField p (0x50 + 8 * (d - 1)) 8 == 0))
    && (pbSignal p || pbField p 0x70 8 == 0)
    && (if pbMask p then pbField p 0x78 8 % 8 == 0 else pbField p 0x78 8 == 0)

/-- lg6 groups are whole (R247). -/
def pbLgOk (p : PBlock) : Bool :=
  pbTy p != some .lg6
    || (pbOrigin p 0 % 4 == 0 && pbBox p 0 % 4 == 0 && pbExtent p 0 % 4 == 0)

/-- A block is valid for a tile (R247). `load`: memory to tile. -/
def pbValid (p : PBlock) (r : TileRec) (load : Bool) : Bool :=
  pbFieldsOk p && pbLgOk p && pbLen p == recLen r && pbLines p == recLines r
    && (match pbTy p with
      | some t => if load then convOk t (recTy r) else convOk (recTy r) t
      | none => false)

/-- A pair of blocks agrees (R253). -/
def pairValid (a b : PBlock) : Bool :=
  pbFieldsOk a && pbFieldsOk b && pbLgOk a && pbLgOk b && pbLen a == pbLen b && pbLines a == pbLines b
    && (match pbTy a, pbTy b with | some s, some d => convOk s d | _, _ => false)

/-- The Porter that serves a cluster (R263): its own, or the first that is not fenced of the clusters after it. -/
def State.servingPorter (s : State) (k : Nat) : Option Nat :=
  ((List.range 16).map fun i => k / 16 * 16 + (k + i) % 16).find? fun j => !(s.cluster j).porter.fenced

/-- The Porter that serves a cluster for the firmware's collectives (R263, R265): its own, or a substitute that holds the
same image and context. -/
def State.fwPorter (s : State) (k : Nat) : Option Nat :=
  let own := (s.cluster k).porter
  if !own.fenced then some k
  else ((List.range 16).map fun i => k / 16 * 16 + (k + i) % 16).find? fun j =>
    let p := (s.cluster j).porter
    !p.fenced && p.custom && p.image == own.image && p.ctx == own.ctx

/-- PARAMTORN (R248). -/
def paramTorn {α : Type} (tile : Option TName) (reason : Nat) : M α :=
  trap { cause := .paramtorn, tile := tile.map fun n => (n, 0, 0), reason := BitVec.ofNat 32 reason }

/-- The use of a Porter's read of a parameter block or of copy data (R453). -/
def copyLoad : Use := { acc := .load, cmpOk := true, who := .copy }
def copyStore : Use := { acc := .store, who := .copy }

/-- Read a parameter block at commit, or take it from the Porter's cache (R248, R249): granules 0 to 3 at one turn, after the
block's older copies that touch them and its functions, which may (R172, R258, R347), and granule 0 once more at a later one.
What an instruction has taken it takes no second time. -/
def readPb (sl : SlotId) (va : Word) (gen : BitVec 16) (tile : Option TName) (valid : PBlock → Bool) : M PBlock := do
  let s ← get
  let k := (s.servingPorter (slotCluster sl)).getD (slotCluster sl)
  let ctx := (s.slot sl).ctx
  let tag (e : BitVec 16 × Word × PBlock) : Bool := e.1 == ctx && e.2.1 == va
  let note (p : PBlock) (done : Bool) : M Unit := modify fun s => s.modSlot sl fun x =>
    { x with pbRead := (va, p, done) :: x.pbRead.filter fun e => e.1 != va }
  let read (n : Nat) : M (List Byte) :=
    agentRead (.porter (BitVec.ofNat 5 k)) (porterSrc k) ctx copyLoad .normal (cutGranules 5 va n)
  let take (p : PBlock) : M PBlock := do
    if va.toNat % 128 ≠ 0 || !valid p then paramTorn tile 3
    modify fun s => s.modCluster k fun c => { c with porter := { c.porter with
      pbcache := ((ctx, va, p) :: c.porter.pbcache.filter fun f => !tag f).take 64 } }
    note p true
    return p
  match (s.slot sl).pbRead.find? (fun e => e.1 == va), (s.cluster k).porter.pbcache.find? fun e => tag e && pbGen e.2.2 == gen with
  | some (_, p, true), _ => return p
  | some (_, p, false), _ =>
    let again ← read 32
    if natOfBytes (again.take 2) ≠ (pbGen p).toNat then paramTorn tile 2
    take p
  | none, some e => take e.2.2
  | none, none =>
    if (s.slot sl).work.any fun t => t.isMap || t.ranges.any (s.rangesOrder ctx (va, 128)) then stall
    let p : PBlock := BitVec.ofNat 1024 (natOfBytes (← read 128))
    if pbGen p ≠ gen then paramTorn tile 1
    note p false
    stall

/-! ### Ranges of memory that a copy touches (R172) -/

/-- Ranges of a copy, line by line. -/
def Geom.ranges (g : Geom) : List (Word × Nat) :=
  (List.range g.lines).flatMap fun l =>
    let ps := (List.range g.len).filter fun p => (g.addr l p).isSome
    match ps.head?, ps.getLast? with
    | some a, some b => match g.addr l a with
      | some va => [(va, posByte g.ty b - posByte g.ty a + (if g.ty = .lg6 then 3 else tyBytes g.ty))]
      | none => []
    | _, _ => []

/-- Bytes of a block's mask area (R250). -/
def maskBytes (p : PBlock) : Nat := (pbLines p * pbLen p + 63) / 64 * 8 + 2 * pbLines p

def pbRanges (p : PBlock) : List (Word × Nat) :=
  (pbGeom p).ranges ++ (if pbMask p then [(BitVec.ofNat 64 (pbField p 0x78 8), maskBytes p)] else [])
    ++ (if pbSignal p then [(BitVec.ofNat 64 (pbField p 0x70 8), 8)] else [])

/-! ### Instructions (R242 - R254, R264) -/

/-- A fresh tile instruction of the current PC. -/
def newTile (sl : SlotId) (op : TileOp) (td ta tb : Option TileRef) (ranges : List (Word × Nat)) : M TileInstr := do
  let id ← freshId sl
  return { id := id, pc := (← get).pc, op := op, td := td, ta := ta, tb := tb, ranges := ranges }

def keep (_ : SlotId) (t : TileInstr) : M TileInstr := return t

/-- A plain copy whose type field names a conversion that R252 does not allow is reserved; before the checks of the record,
those of a record whose type code is 0 among them (the order is the model's choice, log 72). -/
def convGate (sl : SlotId) (n : TName) (ty : Ty) (load : Bool) : M Unit := do
  let r := ((← get).slot sl).tiles[n.toFin]
  if ty ≠ .none ∧ r ≠ 0 ∧ !(if load then convOk ty (recTy r) else convOk (recTy r) ty) then illegal

/-- TLD (R244). -/
def execTld (hint : Hint) (ev : Bool) (ty : Ty) (td : TName) (ra rb : Reg) :
    State → Host.Outcome State Fault Refusal :=
  runInstr 8 (tileInstr (fun sl => do
    convGate sl td ty true
    let r ← destTile sl td
    let s ← get
    let r ← takeEntry sl r
    newTile sl (.load hint ev ty (s.getX ra) (s.getX rb)) (some r) none none
      (plainGeom r.shape ty (s.getX ra) (s.getX rb)).ranges) (commitWork keep))

/-- The parameter blocks of a .pb form are read at commit (R240, R248). -/
def pbCommit (sl : SlotId) (t : TileInstr) : M TileInstr := do
  match t.op, t.td, t.ta with
  | .loadPb _ _ va gen, some r, _ =>
    let p ← readPb sl va gen (some r.name) fun p => pbValid p r.shape true
    return { t with pbs := [p], ranges := pbRanges p }
  | .storePb _ _ va gen, _, some r =>
    let p ← readPb sl va gen (some r.name) fun p => pbValid p r.shape false
    return { t with pbs := [p], ranges := pbRanges p }
  | .copyPb _ _ va gen, _, _ =>
    let a ← readPb sl va gen none fun p => pbFieldsOk p && pbLgOk p
    let b ← readPb sl (va + 128) gen none fun p => pairValid a p
    return { t with pbs := [a, b], ranges := pbRanges a ++ pbRanges b }
  | _, _, _ => return t

/-- TLD.pb (R250). -/
def execTldPb (hint : Hint) (ev : Bool) (td : TName) (ra : Reg) (gen : BitVec 16) :
    State → Host.Outcome State Fault Refusal :=
  runInstr 8 (tileInstr (fun sl => do
    let r ← destTile sl td
    let s ← get
    let r ← takeEntry sl r
    newTile sl (.loadPb hint ev (s.getX ra) gen) (some r) none none [])
    (commitWork pbCommit))

/-- TST (R244). -/
def execTst (hint : Hint) (ev : Bool) (ty : Ty) (ta : TName) (ra rb : Reg) :
    State → Host.Outcome State Fault Refusal :=
  runInstr 8 (tileInstr (fun sl => do
    convGate sl ta ty false
    let r ← readTile sl ta
    let s ← get
    newTile sl (.store hint ev ty (s.getX ra) (s.getX rb)) none (some r) none
      (plainGeom r.shape ty (s.getX ra) (s.getX rb)).ranges) (commitWork keep))

/-- TST.pb (R250). -/
def execTstPb (hint : Hint) (ev : Bool) (ta : TName) (ra : Reg) (gen : BitVec 16) :
    State → Host.Outcome State Fault Refusal :=
  runInstr 8 (tileInstr (fun sl => do
    let r ← readTile sl ta
    let s ← get
    newTile sl (.storePb hint ev (s.getX ra) gen) none (some r) none [])
    (commitWork pbCommit))

/-- TCPY td, ta (R253). -/
def execTcpy (ev : Bool) (td ta : TName) : State → Host.Outcome State Fault Refusal :=
  runInstr 8 (tileInstr (fun sl => do
    let d ← destTile sl td
    let a ← readTile sl ta
    if recRows d.shape ≠ recRows a.shape || recCols d.shape ≠ recCols a.shape then tileShape td 4
    if !convOk (recTy a.shape) (recTy d.shape) then tileShape td 4
    let d ← takeEntry sl d
    newTile sl (.copy ev) (some d) (some a) none []) (commitWork keep))

/-- TCPY.pb (R253). -/
def execTcpyPb (hint : Hint) (ev : Bool) (ra : Reg) (gen : BitVec 16) : State → Host.Outcome State Fault Refusal :=
  runInstr 8 (tileInstr (fun sl => do
    let s ← get
    newTile sl (.copyPb hint ev (s.getX ra) gen) none none none [])
    (commitWork pbCommit))

/-- TZERO (R254). -/
def execTzero (ev : Bool) (td : TName) : State → Host.Outcome State Fault Refusal :=
  runInstr 8 (tileInstr (fun sl => do
    let d ← destTile sl td
    let d ← takeEntry sl d
    newTile sl (.zero ev) (some d) none none []) (commitWork keep))

/-- The participants, rank and round of a TCOLL (R264). -/
def collN (par : Word) : Nat := Nat.max 1 (Nat.min 256 (bits par.toNat 0 16))
def collK (par : Word) : Nat := bits par.toNat 16 16 % collN par
def collRound (par : Word) : Nat := bits par.toNat 32 32

/-- Type, layout, rows and cols agree (R265). -/
def recsEqual (a b : TileRec) : Bool :=
  recTy a == recTy b && recColMajor a == recColMajor b && recRows a == recRows b && recCols a == recCols b

/-- Bytes of a tile's packed image (R264). -/
def packedBytes (r : TileRec) : Nat := recLines r * recRowBytes r

/-- TCOLL (R264, R265). -/
def execTcoll (hint : Hint) (ev : Bool) (op : CollOp) (td ta : TName) (ra rb : Reg) :
    State → Host.Outcome State Fault Refusal :=
  runInstr 8 (tileInstr (fun sl => do
    let s ← get
    let k := (s.fwPorter (slotCluster sl)).getD (slotCluster sl)
    match op with
    | .fw j => if !(s.cluster k).porter.fwops.getLsbD j.toNat then illegal
    | .sum | .min | .max =>
      if [td, ta].any (fun n => recTy (s.slot sl).tiles[n.toFin] == .lg6) then illegal
    | _ => pure ()
    let d ← destTile sl td
    let a ← readTile sl ta
    let h := s.getX ra
    let par := s.getX rb
    let ok := match op with
      | .sum | .min | .max | .bcast => recsEqual d.shape a.shape
      | .gather => recTy d.shape == recTy a.shape && recLen d.shape == recLen a.shape
          && recColMajor d.shape == recColMajor a.shape && recLines d.shape == collN par * recLines a.shape
      | .fw _ => true
    if !ok then tileShape td 4
    if h.toNat % 64 ≠ 0 then trap { cause := .align, va := h, vaValid := true, tval := h }
    let d ← takeEntry sl d
    newTile sl (.coll hint ev op h par) (some d) (some a) none [(h, 64 + collN par * packedBytes a.shape)])
    (commitWork keep))

/-! ### TDISCARD (R409 - R411) -/

/-- The granules of a range, each translated as a store; HBM only, none compressed (R410). -/
def discardParts : List (Word × Nat) → M (List Part)
  | [] => return []
  | (va, n) :: rest => do
    let l ← hartLoc va { acc := .store }
    if pteMem l.pte ≠ 0 then accessFault .access va l.level .store
    followPart { acc := .store } ⟨va, l, n⟩
    let ps ← discardParts rest
    return ⟨va, l, n⟩ :: ps

/-- One granule is discarded (R410, R411): zero-on-read, one write of 32 zero bytes in its granule order. -/
def State.discardGranule (s : State) (p : Part) : State :=
  let (seq, s) := s.nextSeq (sliceOf p.loc.pa) (s.src p.loc.pa)
  (s.sliceDiscard (s.src p.loc.pa) seq p.loc.pa).snoopDone p.loc.pa

/-- The granules of a committed TDISCARD (R410): each waits for its place and its snoop; one whose snoop has failed is a
failed write (R173, R484). -/
def discardAll (ps : List Part) : M Unit := do
  let s ← get
  let gate (p : Part) : EStateM.Result Exc State (Option Cause) := (snoopGate (s.src p.loc.pa) p.loc.pa true).run s
  let stop (p : Part) : Option Cause := match gate p with | .ok c _ => c | .error _ _ => none
  match ps.findSome? fun p => match gate p with | .error _ t => some t | .ok _ _ => none with
  | some t => set t; stall
  | none =>
    let t := ps.foldl (fun t p => match stop p with
      | some c => match t.curSlot with
        | some sl => t.recordFailed sl { iva := t.pc, tile := none, elem := none, va := p.va, cause := c.code } false
        | none => t
      | none => t.discardGranule p) s
    set { t with snoops := t.snoops.filter fun x => !(x.failed && ps.any fun p => (stop p).isSome && x.line == p.loc.pa / 64
      && x.who == waiterOf (s.src p.loc.pa)) }

/-- TDISCARD (R410). -/
def execTdiscard (ra rb : Reg) : State → Host.Outcome State Fault Refusal :=
  runInstr 8 (do
    let _ ← tileGate
    let s ← get
    let a := s.getX ra
    let n := (s.getX rb).toNat
    if n = 0 then return ()
    if a.toNat % 32 ≠ 0 || n % 32 ≠ 0 then trap { cause := .align, va := a, vaValid := true, tval := a }
    if 2 ^ 24 < n then trap { cause := .access, va := a, vaValid := true, acc := .store }
    let ps ← discardParts (cutGranules (n / 32) a n)
    discardAll ps)

/-! ### Commands (R240, R241, R255, R256) -/

/-- Hint of a command's accesses. -/
def TileInstr.hint (t : TileInstr) : Hint :=
  match t.op with
  | .load h _ _ _ _ | .loadPb h _ _ _ | .store h _ _ _ _ | .storePb h _ _ _ | .copyPb h _ _ _ | .coll h _ _ _ _ => h
  | _ => .normal
/-- COPYDONE is asked for (R257). -/
def TileInstr.ev (t : TileInstr) : Bool :=
  match t.op with
  | .load _ e _ _ _ | .loadPb _ e _ _ | .store _ e _ _ _ | .storePb _ e _ _ | .copyPb _ e _ _ | .coll _ e _ _ _
  | .copy e | .zero e => e
  | _ => false
/-- Carried out by a Porter as a command (R240). -/
def TileInstr.isCopy (t : TileInstr) : Bool :=
  match t.op with
  | .load _ _ _ _ _ | .loadPb _ _ _ _ | .store _ _ _ _ _ | .storePb _ _ _ _ | .copy _ | .copyPb _ _ _ _
  | .zero _ | .coll _ _ _ _ _ => true
  | _ => false
/-- A collective, and one of the firmware's (R264, R265). -/
def TileInstr.isColl (t : TileInstr) : Bool := match t.op with | .coll _ _ _ _ _ => true | _ => false
def TileInstr.isFw (t : TileInstr) : Bool := match t.op with | .coll _ _ (.fw _) _ _ => true | _ => false

/-- VA of element (line, pos), or its group, of slot j of a collective. -/
def collAddr (h : Word) (r : TileRec) (j line pos : Nat) : Word :=
  h + BitVec.ofNat 64 (64 + j * packedBytes r + line * recRowBytes r + posByte (recTy r) pos)

/-- The slot of the memory of a collective that a participant writes (R264). -/
def collGeom (h par : Word) (a : TileRec) : Geom :=
  { ty := recTy a, lines := recLines a, len := recLen a, addr := fun l p => some (collAddr h a (collK par) l p) }

/-- The geometry of a copy between memory and a tile; of TCPY.pb's destination; of a collective's slot. -/
def TileInstr.geom (t : TileInstr) : Option Geom :=
  match t.op, t.td, t.ta, t.pbs with
  | .coll _ _ _ h par, _, some r, _ => some (collGeom h par r.shape)
  | .load _ _ ty b st, some r, _, _ => some (plainGeom r.shape ty b st)
  | .store _ _ ty b st, _, some r, _ => some (plainGeom r.shape ty b st)
  | .loadPb _ _ _ _, _, _, p :: _ => some (pbGeom p)
  | .storePb _ _ _ _, _, _, p :: _ => some (pbGeom p)
  | .copyPb _ _ _ _, _, _, [_, p] => some (pbGeom p)
  | _, _, _, _ => none

/-- Bytes of a line of the packed tile whose 512-byte units a store delivers (R257). -/
def TileInstr.unitRow (t : TileInstr) : Nat × Nat × Ty :=
  match t.op, t.ta, t.pbs with
  | .copyPb _ _ _ _, _, [_, p] => (pbLines p, pbLen p, (pbTy p).getD .none)
  | _, some r, _ => (recLines r.shape, recLen r.shape, recTy r.shape)
  | _, _, _ => (0, 0, .none)

/-- 512-byte units of a packed image. -/
def unitCount (u : Nat × Nat × Ty) : Nat := (u.1 * rowBytes u.2.2 u.2.1 + 511) / 512

/-- The unit in which element (line, pos) begins. -/
def unitOf (u : Nat × Nat × Ty) (line pos : Nat) : Nat :=
  (line * rowBytes u.2.2 u.2.1 + (if u.2.2 = .lg6 then 3 * (pos / 4) + 6 * (pos % 4) / 8 else pos * tyBytes u.2.2)) / 512

/-- Elements of a unit. -/
def unitElems (u : Nat × Nat × Ty) (i : Nat) : List (Nat × Nat) :=
  let row := Nat.max 1 (rowBytes u.2.2 u.2.1)
  let lo := i * 512 / row
  let hi := Nat.min u.1 ((i * 512 + 511) / row + 1)
  (List.range' lo (hi - lo)).flatMap fun l =>
    ((List.range u.2.1).filter fun p => unitOf u l p == i).map fun p => (l, p)

/-- Elements of a tile with a byte in chunk c; the padding of a last lg6 group goes with the line's last element (R122). -/
def chunkElems (r : TileRec) (c : Nat) : List (Nat × Nat) :=
  let pitch := Nat.max 1 (recPitch r)
  let lo := (c * 512 + 1 - recRowBytes r) / pitch
  let hi := Nat.min (recLines r) ((c * 512 + 511) / pitch + 1)
  let stop (l p : Nat) : Nat := if recTy r ≠ .lg6 then elemByte r l p + tyBytes (recTy r)
    else if p + 1 = recLen r then l * recPitch r + 3 * (p / 4) + 3 else elemByte r l p + 2
  (List.range' lo (hi - lo)).flatMap fun l =>
    ((List.range (recLen r)).filter fun p =>
      decide (elemByte r l p < c * 512 + 512) && decide (c * 512 < stop l p)).map fun p => (l, p)

/-- What a command has to deliver at first: destination chunks, or units of a store. -/
def TileInstr.parts (t : TileInstr) : List Nat :=
  match t.op, t.td with
  | .store _ _ _ _ _, _ | .storePb _ _ _ _, _ | .copyPb _ _ _ _, _ => List.range (unitCount t.unitRow)
  | .coll _ _ (.fw _) _ _, some r => List.range (recChunks r.shape)
  | .coll _ _ _ _ _, _ => []
  | _, some r => List.range (recChunks r.shape)
  | _, none => []

/-- The command of a tile instruction, as its Porter names it. -/
def cmdId (sl : SlotId) (id : Nat) : Nat := id * 1024 + sl.toNat

def State.cmd? (s : State) (k id : Nat) : Option Cmd := (s.cluster k).porter.cmds.find? fun c => c.id == id
def State.modCmds (s : State) (k : Nat) (f : List Cmd → List Cmd) : State :=
  s.modCluster k fun c => { c with porter := { c.porter with cmds := f c.porter.cmds } }
def State.modCmd (s : State) (k id : Nat) (f : Cmd → Cmd) : State :=
  s.modCmds k fun l => l.map fun c => if c.id == id then f c else c

/-- Whether the Porter of a cluster can hold one more command of a core (R240): each of the cluster's cores has 4 entries
reserved; its other commands, and those of other cores, share 96. -/
def Porter.roomFor (p : Porter) (k core : Nat) : Bool :=
  let of (c : Nat) : Nat := (p.cmds.filter fun m => slotCore m.slot == c).length
  let own := ((List.range 8).map fun i => of (k * 8 + i) - 4).sum
  let foreign := (p.cmds.filter fun m => slotCore m.slot / 8 != k).length
  (core / 8 == k && decide (of core < 4)) || decide (own + foreign < 96)

/-- A Porter takes a command (R240, R269): its descriptor has the first free place of the ring. A run that was to be cleared
once no command is outstanding is cleared before it (R267). -/
def Porter.add (p : Porter) (c : Cmd) (clock : Nat) : Porter :=
  let idle := p.cmds.isEmpty
  let ring := ((List.range 128).find? fun i => !p.cmds.any fun m => m.ring == i).getD 0
  { p with cmds := p.cmds ++ [{ c with ring := ring }], run := p.run && !(p.stopping && idle)
           stopping := p.stopping && !idle, idleSince := if idle then clock else p.idleSince }

/-- Element (line, pos) of a copy with memory is accessed: it is in range in every block (R250, R253). -/
def TileInstr.inRange (t : TileInstr) (l p : Nat) : Bool :=
  (t.geom.all fun g => (g.addr l p).isSome)
    && (match t.op, t.pbs with | .copyPb _ _ _ _, a :: _ => ((pbGeom a).addr l p).isSome | _, _ => true)

/-- A command whose data goes to memory. -/
def TileInstr.isStore (t : TileInstr) : Bool :=
  match t.op with | .store _ _ _ _ _ | .storePb _ _ _ _ | .copyPb _ _ _ _ => true | _ => false

/-- The units of a command's data that memory does not hold yet: a collective's are those of its slot, which it writes first,
if it writes any (R264). -/
def Cmd.owed (c : Cmd) : List Nat :=
  match c.instr.op with
  | .coll _ _ (.fw _) _ _ => if c.skip = 0 then [] else List.range (unitCount c.instr.unitRow)
  | .coll _ _ op _ par =>
    if op = .bcast ∧ collK par ≠ 0 then []
    else if c.phase = .waitPrev then List.range (unitCount c.instr.unitRow) else if c.phase = .write then c.todo else []
  | _ => if c.instr.isStore then c.todo else []

/-- The elements that a command owes memory, in order (R173, R261). -/
def Cmd.unperformed (c : Cmd) : List (Nat × Nat) :=
  if c.instr.isFw then (c.owed.flatMap (unitElems c.instr.unitRow)).drop c.skip
  else c.owed.flatMap fun u =>
    ((unitElems c.instr.unitRow u).drop (if c.part = u then c.skip else 0)).filter fun e => c.instr.inRange e.1 e.2

/-- A command that stops now leaves a write to memory unperformed (R173). -/
def Cmd.owesWrite (c : Cmd) : Bool := !c.unperformed.isEmpty

/-- What a failed write of a command is (R173): the tile and its first unperformed element, the address of the failed access
or, where there was none, of that element. A command that has performed every element names (0, 0) (log 67). -/
def Cmd.failedWrite (c : Cmd) (va : Option Word) : FailedWrite :=
  let rest := c.unperformed
  let at_ (r : TileRef) (rc : Nat × Nat) : TName × BitVec 16 × BitVec 16 := (r.name, BitVec.ofNat 16 rc.1, BitVec.ofNat 16 rc.2)
  let tile := match c.instr.ta, c.instr.td, rest with
    | some r, _, (l, p) :: _ => some (at_ r (rowCol r.shape l p))
    | some r, _, [] => some (at_ r (0, 0))
    | none, some r, _ => some (at_ r (match c.todo with | [] => (0, 0) | u :: _ => firstElem r.shape u))
    | none, none, _ => none
  let first : Option Word := match rest, c.instr.geom with
    | (l, p) :: _, some g => g.addr l p
    | _, _ => none
  { iva := c.instr.pc, tile := tile, elem := none, va := (va.or first).getD 0 }

/-- A failed write of a command is recorded against its block (R173). -/
def State.cmdFailed (s : State) (c : Cmd) (va : Option Word) (cause : Cause) : State :=
  s.recordFailed c.slot { c.failedWrite va with cause := cause.code } false

/-- A block that sleeps on a collective wakes. -/
def State.collWake (s : State) (sl : SlotId) : State :=
  s.modSlot sl fun x =>
    match x.call with
    | some c => if c.savedWait == .tcoll then { x with call := some { c with savedWait := .none, asleep := false } } else x
    | none => if x.wait == .tcoll then { x with run := if x.run == .asleep then .running else x.run, wait := .none } else x

/-- A started command stops (R261): chunks not ready are abandoned, an unperformed write is a failed write, a block that
sleeps on it wakes; its mask areas are to be written for what it has performed. -/
def State.stopCmd (s : State) (k : Nat) (c : Cmd) (cause : Cause) (va : Option Word) (failed : Bool) : State :=
  let s := match c.instr.td.bind (·.entry) with
    | some id => s.abandonRest c.slot id
    | none => s
  let s := if failed then s.cmdFailed c va cause else s
  let s := if c.instr.isColl then s.collWake c.slot else s
  (s.dropWatches (.coll (BitVec.ofNat 5 k) c.id)).modCmd k c.id fun c => { c with stopped := some cause, park := none, masks := 0 }

/-- The fault record of a Porter's access for a block. -/
def State.copyRecord (s : State) (sl : SlotId) (pc : Word) (t : Trap) (token : Word) : FaultRec :=
  { cause := t.cause.code, va := t.va, vaValid := true, level := BitVec.ofNat 8 t.level
    core := BitVec.ofNat 8 (slotCore sl), slot := BitVec.ofNat 8 (slotNum sl), iva := pc, wid := (s.slot sl).wid
    token := token }

/-- A fault of a started command's access (R261): a page fault parks it, any other stops it. -/
def State.cmdFault (s : State) (k : Nat) (c : Cmd) (chunk : Nat) (t : Trap) (write : Bool) : State :=
  if t.cause.delivery = .park then
    let (tok, s) := s.takeToken
    let s := s.postFault (s.copyRecord c.slot c.instr.pc t tok) (s.slot c.slot).ctx t.acc 1
    let s := s.postEvent c.home.toNat (s.slotEvent c.slot 4 tok t.va)
    s.modCmd k c.id fun c => { c with park := some (tok, chunk, t.va) }
  else s.stopCmd k c t.cause (some t.va) write

/-- Carry out part of a command: a wait leaves it for later, a fault parks or stops it. `write` says whether an access
that fails is a failed write of the block. -/
def State.runCmd (s : State) (k : Nat) (c : Cmd) (chunk : Nat) (write : Bool) (m : M Unit) : State :=
  match m.run s with
  | .ok _ s' => s'
  | .error .stall s' => s'
  | .error (.trap t) s' =>
    match s'.cmd? k c.id with
    | some c => s'.cmdFault k c chunk t (write || t.acc == .store)
    | none => s'

/-- Bytes of a room written at an offset, those within chunk c only. -/
def State.putClipped (s : State) (core base c off : Nat) (bs : List Byte) : State :=
  let lo := Nat.max off (c * 512)
  let hi := Nat.min (off + bs.length) (c * 512 + 512)
  s.putRoom core (base + lo) ((bs.drop (lo - off)).take (hi - lo))

/-- Element (line, pos) of chunk c of a room written. -/
def State.putInChunk (s : State) (sl : SlotId) (r : TileRef) (c line pos v : Nat) : State :=
  let at_ := s.tileAt sl r
  if recTy r.shape = .lg6 then
    let off := line * recPitch r.shape + 3 * (pos / 4)
    let old := Memory.nat s.mem (scratchPA at_.1 (at_.2 + off)) 3
    let k := 6 * (pos % 4)
    let new := if pos + 1 = recLen r.shape then bits old 0 k + v % 64 * 2 ^ k
      else old - bits old k 6 * 2 ^ k + v % 64 * 2 ^ k
    s.putClipped at_.1 at_.2 c off (bytesOfNat 3 new)
  else s.putClipped at_.1 at_.2 c (elemByte r.shape line pos) (bytesOfNat (tyBytes (recTy r.shape)) v)

/-- A memory element read by a Porter. -/
def porterElem (k : Nat) (ctx : BitVec 16) (u : Use) (hint : Hint) (t : Ty) (va : Word) (pos : Nat) : M Nat := do
  let n := if t = .lg6 then 3 else tyBytes t
  let bs ← agentRead (.porter (BitVec.ofNat 5 k)) (porterSrc k) ctx u hint (cutGranules 3 va n)
  return if t = .lg6 then bits (natOfBytes bs) (6 * (pos % 4)) 6 else natOfBytes bs

/-- Bytes written by a Porter; `e` is the element they are of. -/
def porterPut (k : Nat) (c : Cmd) (ctx : BitVec 16) (u : Use) (e : Option (Nat × Nat)) (va : Word) (bs : List Byte) : M Unit :=
  let tile := match c.instr.ta, e with
    | some r, some (l, p) =>
      let rc := rowCol r.shape l p
      some (r.name, BitVec.ofNat 16 rc.1, BitVec.ofNat 16 rc.2)
    | r, _ => (r.or c.instr.td).map fun r => (r.name, 0, 0)
  agentWrite (.porter (BitVec.ofNat 5 k)) (porterSrc k) ctx u c.instr.hint
    { writer := some c.slot, cmd := some (k, c.id), fail := { iva := c.instr.pc, tile := tile, elem := none, va := va } }
    (cutGranules (bs.length / 32 + 2) va bs.length) bs

/-- The elements of a TLD's chunk (R244, R250). -/
def loadChunk (k : Nat) (c : Cmd) (r : TileRef) (g : Geom) (chunk : Nat) : List (Nat × Nat) → M Unit
  | [] => return ()
  | (l, p) :: rest => do
    let ctx := ((← get).slot c.slot).ctx
    let v ← match g.addr l p with
      | some va => porterElem k ctx copyLoad c.instr.hint g.ty va p
      | none => pure (match c.instr.pbs with | b :: _ => pbField b 0x10 8 | [] => 0)
    modify fun s => s.putInChunk c.slot r chunk l p (convert g.ty (recTy r.shape) v)
    loadChunk k c r g chunk rest

/-- The bytes that a store writes for element (line, pos): a whole group of an lg6 memory type. -/
def storeBytesOf (g : Geom) (val : Nat → Nat → Nat) (l p : Nat) : List Byte :=
  if g.ty = .lg6 then
    bytesOfNat 3 ((List.range 4).foldl (fun n j => if p + j < g.len then n + val l (p + j) % 64 * 2 ^ (6 * j) else n) 0)
  else bytesOfNat (tyBytes g.ty) (val l p)

/-- The 24 bits of an lg6 group from element p on: each element that is written, and `old` for the others; positions past the
line are 0 (R122, R244). -/
def lgBits (len : Nat) (val : Nat → M Nat) (ok : Nat → Bool) (old p : Nat) : Nat → M Nat
  | 0 => return 0
  | n + 1 => do
    let j := 3 - n
    let v ← if len ≤ p + j then pure 0 else if ok (p + j) then val (p + j) else pure (bits old (6 * j) 6)
    return v % 64 * 2 ^ (6 * j) + (← lgBits len val ok old p n)

/-- Elements of a unit stored one after another; `skip` counts those performed of unit `part` (R261). An lg6 group is written
as a whole at its first element; elements of it that are not to be written keep their bits (R253). -/
def storeUnit (k : Nat) (c : Cmd) (part : Nat) (g : Geom) (val : Nat → Nat → M Nat) (ok : Nat → Nat → Bool) (u : Use) :
    List (Nat × Nat) → M Unit
  | [] => return ()
  | (l, p) :: rest => do
    let ctx := ((← get).slot c.slot).ctx
    match g.addr l p with
    | some va =>
      if g.ty = .lg6 then
        let in_ := (List.range 4).filter fun j => decide (p + j < g.len)
        if p % 4 = 0 ∧ in_.any (fun j => ok l (p + j)) then
          let old ← if in_.all (fun j => ok l (p + j)) then pure 0 else do
            let bs ← agentRead (.porter (BitVec.ofNat 5 k)) (porterSrc k) ctx u c.instr.hint (cutGranules 3 va 3)
            pure (natOfBytes bs)
          porterPut k c ctx u (some (l, p)) va (bytesOfNat 3 (← lgBits g.len (val l) (ok l) old p 4))
      else if ok l p then
        let v ← val l p
        porterPut k c ctx u (some (l, p)) va (bytesOfNat (tyBytes g.ty) v)
    | none => pure ()
    modify fun s => s.modCmd k c.id fun c => { c with skip := c.skip + 1, part := part }
    storeUnit k c part g val ok u rest

/-- In-range elements of a line that the command has performed, for the mask area (R250, R261). -/
def maskWord (c : Cmd) (g : Geom) (load : Bool) (l p : Nat) : Bool :=
  (g.addr l p).isSome && (c.stopped.isNone ||
    (match load, c.instr.td with
     | true, some r => !c.todo.contains (elemByte r.shape l p / 512)
     | _, _ =>
       let u := unitOf c.instr.unitRow l p
       !c.todo.contains u || (c.part == u && ((unitElems c.instr.unitRow u).take c.skip).contains (l, p))))

/-- The bytes of a mask area (R250). -/
def maskImage (c : Cmd) (g : Geom) (load : Bool) : List Byte :=
  let bit (i : Nat) : Bool := decide (i < g.lines * g.len) && maskWord c g load (i / g.len) (i % g.len)
  let n := (g.lines * g.len + 63) / 64 * 8
  let map := (List.range n).map fun b =>
    BitVec.ofNat 8 ((List.range 8).foldl (fun v j => if bit (8 * b + j) then v + 2 ^ j else v) 0)
  let lens := (List.range g.lines).flatMap fun l =>
    bytesOfNat 2 ((List.range g.len).foldl (fun v p => if maskWord c g load l p then p + 1 else v) 0)
  map ++ lens

/-- The mask areas that a command owes, from number `from_` on (R250, R251, R253). -/
def writeMasks (k : Nat) (c : Cmd) : Nat → List PBlock → M Unit
  | _, [] => return ()
  | i, p :: rest => do
    if c.masks ≤ i then
      if pbMask p then
        let ctx := ((← get).slot c.slot).ctx
        let g := pbGeom p
        porterPut k c ctx copyStore c.unperformed.head? (BitVec.ofNat 64 (pbField p 0x78 8)) (maskImage c g (!c.instr.isStore))
      modify fun s => s.modCmd k c.id fun c => { c with masks := i + 1 }
    writeMasks k c (i + 1) rest

/-- One element combined (R264). -/
def combine (op : CollOp) (t : Ty) (a b : Nat) : Nat :=
  let w := 8 * tyBytes t
  match tyFl t with
  | some f =>
    (match op with
     | .min => f.minmax false a b
     | .max => f.minmax true a b
     | _ => f.add .rne a b).1
  | none =>
    let signed := t == .i8 || t == .i16 || t == .i32 || t == .i64
    let le := if signed then decide (sint a w ≤ sint b w) else decide (a ≤ b)
    match op with
    | .min => if le then a else b
    | .max => if le then b else a
    | _ => (a + b) % 2 ^ w

/-- Accesses to a collective's header and slots follow the rules of atomics (R264). -/
def collUse (acc : Access) : Use := { acc := acc, atomic := true, noChip := true, who := .copy }

/-- An element of the result (R264): slots in ascending rank. -/
def collElem (k : Nat) (c : Cmd) (op : CollOp) (h : Word) (a : TileRec) (line pos : Nat) (v : Nat) :
    List Nat → M Nat
  | [] => return v
  | j :: rest => do
    let ctx := ((← get).slot c.slot).ctx
    let w ← porterElem k ctx (collUse .load) c.instr.hint (recTy a) (collAddr h a j line pos) pos
    collElem k c op h a line pos (if j = 0 then w else combine op (recTy a) v w) rest

/-- The elements of a chunk of a collective's result. -/
def collChunk (k : Nat) (c : Cmd) (op : CollOp) (h : Word) (n : Nat) (a : TileRec) (d : TileRef) (chunk : Nat) :
    List (Nat × Nat) → M Unit
  | [] => return ()
  | (l, p) :: rest => do
    let ctx := ((← get).slot c.slot).ctx
    let v ← match op with
      | .bcast => porterElem k ctx (collUse .load) c.instr.hint (recTy a) (collAddr h a 0 l p) p
      | .gather =>
        let va := collAddr h a (l / Nat.max 1 (recLines a)) (l % Nat.max 1 (recLines a)) p
        porterElem k ctx (collUse .load) c.instr.hint (recTy a) va p
      | _ => collElem k c op h a l p 0 (List.range n)
    modify fun s => s.putInChunk c.slot d chunk l p v
    collChunk k c op h n a d chunk rest

/-- A chunk or unit is done. -/
def State.partDone (s : State) (k : Nat) (c : Cmd) (chunk : Nat) : State :=
  let s := s.modCmd k c.id fun c => { c with todo := c.todo.filter (· != chunk), skip := 0, part := 0, park := none }
  match c.instr.isStore, c.instr.td.bind (·.entry) with
  | false, some id => s.setReady c.slot id chunk
  | _, _ => s

/-- A word of a collective's header. -/
def collWord (k : Nat) (c : Cmd) (va : Word) : M Nat := do
  let ctx := ((← get).slot c.slot).ctx
  let bs ← agentRead (.porter (BitVec.ofNat 5 k)) (porterSrc k) ctx (collUse .load) .normal (cutGranules 2 va 8)
  return natOfBytes bs

/-- A collective waits for its participants (R42, R264): the block sleeps, a watch stands on the header. -/
def collWait (k : Nat) (c : Cmd) (va : Word) : M Unit := do
  let s ← get
  let ctx := (s.slot c.slot).ctx
  let l ← translate (.porter (BitVec.ofNat 5 k)) false ctx va (collUse .load)
  modify fun s =>
    let s := s.addWatch (.coll (BitVec.ofNat 5 k) c.id) l.home l.pa
    s.modSlot c.slot fun x =>
      if x.run == .running && x.wait == .none then { x with run := .asleep, wait := .tcoll } else x

/-- A collective stands at its header until it is told of a write (R264). -/
def State.collAsleep (s : State) (k : Nat) (c : Cmd) : Bool :=
  let w : Watcher := .coll (BitVec.ofNat 5 k) c.id
  (c.phase == .waitPrev || c.phase == .waitAll) && s.watches.any (fun x => x.who == w) && s.notices.all (fun n => n.who != w)

/-- A collective goes on: its watch goes and its block wakes. -/
def State.collGo (s : State) (k : Nat) (c : Cmd) (p : CollPhase) (todo : List Nat) : State :=
  let s := (s.dropWatches (.coll (BitVec.ofNat 5 k) c.id)).modCmd k c.id fun c => { c with phase := p, todo := todo, skip := 0 }
  s.collWake c.slot

/-- Add to a header word of a collective. -/
def collAdd (k : Nat) (c : Cmd) (va : Word) : M Unit := do
  let ctx := ((← get).slot c.slot).ctx
  agentAdd (.porter (BitVec.ofNat 5 k)) (porterSrc k) ctx (c.slot, c.failedWrite (some va)) va 1

/-- The next part of a collective of ops 0 - 4 (R264). -/
def collStep (k : Nat) (c : Cmd) (op : CollOp) (h par : Word) (a d : TileRef) (chunk : Nat) : M Unit := do
  let n := collN par
  let units := List.range (unitCount c.instr.unitRow)
  match c.phase with
  | .waitPrev =>
    let v ← collWord k c (h + 8)
    if collRound par * n ≤ v then
      modify fun s => s.collGo k c .write (if op = .bcast ∧ collK par ≠ 0 then [] else units)
    else collWait k c (h + 8)
  | .write =>
    match c.todo with
    | [] =>
      collAdd k c h
      modify fun s => s.collGo k c .waitAll []
    | _ =>
      if c.todo.contains chunk then
        storeUnit k c chunk (collGeom h par a.shape) (fun l p => do
            let rc := rowCol a.shape l p
            return (← get).opElem c.slot c.instr.id a rc.1 rc.2) (fun _ _ => true) (collUse .store)
          ((unitElems c.instr.unitRow chunk).drop c.skip)
        modify fun s => s.modCmd k c.id fun c => { c with todo := c.todo.filter (· != chunk), skip := 0, part := 0 }
  | .waitAll =>
    let v ← collWord k c h
    if (collRound par + 1) * n ≤ v then modify fun s => s.collGo k c .combine (List.range (recChunks d.shape))
    else collWait k c h
  | .combine =>
    match c.todo with
    | [] =>
      collAdd k c (h + 8)
      modify fun s => s.collGo k c .depart []
    | _ =>
      if c.todo.contains chunk then
        collChunk k c op h n a.shape d chunk (chunkElems d.shape chunk)
        modify fun s => s.partDone k c chunk
  | .depart => return ()

/-- A chunk of a TZERO: every byte of the footprint (R254). -/
def State.zeroChunk (s : State) (sl : SlotId) (r : TileRef) (chunk : Nat) : State :=
  let at_ := s.tileAt sl r
  let n := Nat.min 512 (recFootprint r.shape - chunk * 512)
  s.putRoom at_.1 (at_.2 + chunk * 512) (List.replicate n 0)

/-- Carry out one chunk or unit of a started command (R167, R244, R250, R251, R253 - R255). -/
def copyPart (k : Nat) (c : Cmd) (chunk : Nat) : M Unit := do
  let t := c.instr
  let last := c.todo == [chunk]
  match t.op, t.td, t.ta, t.geom with
  | .load _ _ _ _ _, some r, _, some g | .loadPb _ _ _ _, some r, _, some g =>
    if last then
      writeMasks k c 0 t.pbs
      if (← get).anyHeld c.slot fun h => h.cmd == some (k, c.id) then stall
    loadChunk k c r g chunk (chunkElems r.shape chunk)
    modify fun s => s.partDone k c chunk
  | .store _ _ _ _ _, _, some r, some g | .storePb _ _ _ _, _, some r, some g =>
    if last then writeMasks k c 0 t.pbs
    storeUnit k c chunk g (fun l p => do
        let rc := rowCol r.shape l p
        return convert (recTy r.shape) g.ty ((← get).opElem c.slot t.id r rc.1 rc.2)) (fun _ _ => true) copyStore
      ((unitElems t.unitRow chunk).drop c.skip)
    modify fun s => s.partDone k c chunk
  | .copyPb _ _ _ _, _, _, some g =>
    match t.pbs with
    | [a, _] =>
      if last then writeMasks k c 0 t.pbs
      let src := pbGeom a
      storeUnit k c chunk g (fun l p => do
          let ctx := ((← get).slot c.slot).ctx
          match src.addr l p with
          | some va =>
            let v ← porterElem k ctx copyLoad t.hint src.ty va p
            return convert src.ty g.ty v
          | none => return 0) (fun l p => (src.addr l p).isSome) copyStore
        ((unitElems t.unitRow chunk).drop c.skip)
      modify fun s => s.partDone k c chunk
    | _ => return ()
  | .copy _, some d, some a, _ =>
    modify fun s => ((chunkElems d.shape chunk).foldl (fun s e =>
      let rc := rowCol d.shape e.1 e.2
      s.putInChunk c.slot d chunk e.1 e.2 (convert (recTy a.shape) (recTy d.shape) (s.opElem c.slot t.id a rc.1 rc.2))) s).partDone
        k c chunk
  | .zero _, some d, _, _ => modify fun s => (s.zeroChunk c.slot d chunk).partDone k c chunk
  | .coll _ _ op h par, some d, some a, _ =>
    match op with
    | .fw _ => return ()
    | _ => collStep k c op h par a d chunk
  | _, _, _, _ => return ()

/-- Whether a command has done all but its signals and its event (R255). -/
def Cmd.drained (c : Cmd) : Bool :=
  match c.instr.op with
  | .coll _ _ (.fw _) _ _ => c.todo.isEmpty
  | .coll _ _ _ _ _ => c.phase == .depart
  | _ => c.todo.isEmpty

/-- Delivered chunks (R257). -/
def State.delivered (s : State) (c : Cmd) : Nat :=
  if c.instr.isStore then
    let full (u : Nat) : Bool := (unitElems c.instr.unitRow u).any fun e => c.instr.inRange e.1 e.2
    unitCount c.instr.unitRow - (c.todo.filter full).length
  else match c.instr.td.bind (·.entry) with
    | some id => match (s.slot c.slot).entry? id with
      | some e => ((List.range 256).filter fun i => e.ready.getLsbD i).length
      | none => 0
    | none => 0

/-- The signals that a command owes (R257). -/
def doSignals (k : Nat) (c : Cmd) (n : Nat) : Nat → List PBlock → M Unit
  | _, [] => return ()
  | i, p :: rest => do
    if c.signals ≤ i then
      if pbSignal p then
        let s ← get
        let va := BitVec.ofNat 64 (pbField p 0x70 8)
        match ← attempt (agentAdd (.porter (BitVec.ofNat 5 k)) (porterSrc k) (s.slot c.slot).ctx (c.slot, c.failedWrite (some va)) va n) with
        | .ok _ => pure ()
        | .error .stall => stall
        | .error (.trap t) =>
          if t.cause.delivery = .park then trap t
          modify fun s => s.cmdFailed c (some va) t.cause
      modify fun s => s.modCmd k c.id fun c => { c with signals := i + 1 }
    doSignals k c n (i + 1) rest

/-- The COPYDONE record of a command (R257). -/
def State.copyDone (s : State) (c : Cmd) : EventRec :=
  let t := c.instr
  let a := match t.op with
    | .loadPb _ _ va _ | .storePb _ _ va _ | .copyPb _ _ va _ => va
    | _ => t.pc
  let name := match t.td, t.ta with | some r, _ => r.name.toNat | none, some r => r.name.toNat | _, _ => 0
  let cause := match c.stopped with | some x => x.code.toNat | none => 0
  s.slotEvent c.slot 11 a (BitVec.ofNat 64 (cause + name * 2 ^ 8 + s.delivered c * 2 ^ 16))

end Sys2Proof.Machine
end

