-- ==== Sys2Proof/Machine/Call.lean ====
section
/-! DEFINITION. TMAP and TRED: the lane function, its frame, its calls strip by strip (R344 - R348). -/
namespace Sys2Proof.Machine

/-- Progress of committed work is recorded. -/
def Slot.setNext (x : Slot) (id n : Nat) : Slot :=
  { x with work := x.work.map fun u => if u.id == id then { u with next := n } else u }

/-- A slot whose committed work may issue (R187, R234). -/
def Slot.live (x : Slot) : Bool :=
  (x.run == .running || x.run == .asleep || x.run == .parked) && !x.halted && x.stop.isNone

/-! ### TMAP and TRED -/

/-- Width at which a lane function sees the elements of a type (R346): 8 for lg6. -/
def fnWidth (t : Ty) : Nat := 8 * tyBytes t

/-- Decode of TMAP and TRED (R344, R347). -/
def mapDec (red : Bool) (len : BitVec 8) (two : Bool) (td ta tb : TName) (ra rb : Reg) (sl : SlotId) : M TileInstr := do
  let d ← destTile sl td
  let a ← readTile sl ta
  let b ← if two then (do let b ← readTile sl tb; return some b) else pure none
  let w := fnWidth (recTy a.shape)
  if fnWidth (recTy d.shape) ≠ w || !(b.all fun b => fnWidth (recTy b.shape) == w) then tileShape td 4
  let same (r : TileRec) : Bool := recRows r == recRows a.shape && recCols r == recCols a.shape
  if !(if red then recLines d.shape == recLines a.shape && recLen d.shape == 1
       else same d.shape && b.all fun b => same b.shape) then tileShape td 4
  let s ← get
  let d ← takeEntry sl d
  newTile sl (.map red len two (s.getX ra &&& ~~~3) (s.getX rb)) (some d) (some a) b []

/-- Functions of a slot's committed, unfinished TMAP and TRED: address and words. -/
def Slot.functions (x : Slot) : List (Word × Nat) :=
  (x.work.filterMap fun t => match t.op with
    | .map _ len _ fn _ => some (fn, len.toNat + 1)
    | _ => none).eraseDups

/-- Words that the lane instruction buffer is to hold for a slot: held already, or fetched through the instruction path; they
wait for space that others hold (R339, R345). -/
def holdCode (sl : SlotId) (va : Word) (n : Nat) (fn : Bool) : M Unit := do
  let s ← get
  let x := s.slot sl
  if fn && (s.core (slotCore sl)).lib.any fun e => e.fn && e.ctx == x.ctx && e.addr == va && e.words.length == n then return ()
  let ws ← fetchWords va n
  if 256 < (← get).libUsed (slotCore sl) + n then stall
  modify fun s => s.modCore (slotCore sl) fun c => { c with lib := ⟨x.ctx, va, fn, ws⟩ :: c.lib }

/-- Commit of TMAP and TRED (R345): the function is loaded into the lane instruction buffer. -/
def mapLoad (sl : SlotId) (t : TileInstr) : M TileInstr := do
  match t.op with
  | .map _ len _ fn _ =>
    let n := len.toNat + 1
    let s ← get
    let x := s.slot sl
    let own := x.functions
    let total : Nat := ((if own.contains (fn, n) then own else (fn, n) :: own).map (·.2)).sum
    if 256 < total then trap { cause := .libovf }
    holdCode sl fn n true
    return t
  | _ => return t

/-- TMAP (R347). -/
def execTmap (len : BitVec 8) (two : Bool) (td ta tb : TName) (ra rb : Reg) : State → Host.Outcome State Fault Refusal :=
  runInstr 8 (tileInstr (mapDec false len two td ta tb ra rb) (commitWork mapLoad))

/-- TRED (R347). -/
def execTred (len : BitVec 8) (two : Bool) (td ta tb : TName) (ra rb : Reg) : State → Host.Outcome State Fault Refusal :=
  runInstr 8 (tileInstr (mapDec true len two td ta tb ra rb) (commitWork mapLoad))

/-- The next strip of a TMAP or TRED under a VLMAX: line, first position, elements (R346). -/
def mapStrip (a : TileRec) (next vlmax : Nat) : Nat × Nat × Nat :=
  let len := Nat.max 1 (recLen a)
  (next / len, next % len, Nat.min (len - next % len) vlmax)

/-- Elements of a strip, as (row, col). -/
def stripElems (a : TileRec) (line lo n : Nat) : List (Nat × Nat) := (List.range n).map fun i => rowCol a line (lo + i)

/-- A register whose elements of w bits are given. -/
def vregOf (w : Nat) (vs : List Nat) : VReg := vs.foldr (fun v (r : VReg) => (r <<< w) ||| BitVec.ofNat 4096 (v % 2 ^ w)) 0

/-- An element of tb at the place of an element of ta: a free value where tb has none there. -/
def State.secondElem (s : State) (sl : SlotId) (id : Nat) (b : TileRef) (e : Nat × Nat) : Nat :=
  if e.1 < recRows b.shape ∧ e.2 < recCols b.shape then s.opElem sl id b e.1 e.2
  else (Config.freeWord (s.free + e.1 * 65536 + e.2)).toNat

/-- The unfinished TMAP or TRED of a slot that runs now: the oldest (R347). -/
def Slot.currentMap (x : Slot) : Option TileInstr := x.work.find? TileInstr.isMap

/-- Whether a slot's next call can be set up: no call, no lane threads, no resumed entry under way. -/
def Slot.canCall (x : Slot) : Bool :=
  (x.run == .running || x.run == .asleep) && !x.halted && x.stop.isNone && x.call.isNone && x.threads.isNone
    && x.flight.isEmpty && !x.needLib

/-- The element width of a strip's vtype: SEW, LMUL 1 (R102, R346). -/
def fnVtype (w : Nat) : BitVec 6 := if w = 8 then 0 else if w = 16 then 8 else if w = 32 then 16 else 24

/-- Operands of the next strip of a TMAP or TRED. -/
def State.mapOperands (s : State) (sl : SlotId) (t : TileInstr) : Operands :=
  match t.ta with
  | none => .wait
  | some a =>
    let (line, lo, n) := mapStrip a.shape t.next (vlmaxOf (s.grant sl) (fnVtype (fnWidth (recTy a.shape))))
    let es := stripElems a.shape line lo n
    if n = 0 then .wait
    else s.operands sl t ((a, chunksOf a.shape es) :: (t.tb.toList.map fun b =>
      (b, chunksOf b.shape (es.filter fun e => decide (e.1 < recRows b.shape) && decide (e.2 < recCols b.shape)))))

/-- A call begins: the block's registers stand aside, and the frame takes the strip (R346). -/
def State.startCall (s : State) (sl : SlotId) (t : TileInstr) : State :=
  match t.op, t.ta with
  | .map red len _ fn arg, some a =>
    let x := s.slot sl
    let w := fnWidth (recTy a.shape)
    let (line, lo, n) := mapStrip a.shape t.next (vlmaxOf (s.grant sl) (fnVtype w))
    let es := stripElems a.shape line lo n
    let carry (i : Nat) : VReg := x.carry.getD i 0
    let v1 := vregOf w (es.map fun e => s.opElem sl t.id a e.1 e.2)
    let v2 := match t.tb with | some b => vregOf w (es.map (s.secondElem sl t.id b)) | none => 0
    let v3 := if red && lo != 0 then carry 0 else 0
    let ones : VReg := BitVec.ofNat 4096 (2 ^ (s.grant sl * 256) - 1)
    let regs : Vector VReg 32 := (((((((Vector.replicate 32 0).set 0 ones).set 1 v1).set 2 v2).set 3 v3).set 4 (carry 1)).set 5
      (carry 2)).set 6 (carry 3)
    let regs := regs.set 7 (carry 4)
    let xs : Vector Word 32 := (((Vector.replicate 32 0).set 10 arg).set 11 (BitVec.ofNat 64 lo)).set 12 (BitVec.ofNat 64 line)
    let h := { x.hart with pc := fn, x := xs, vtype := fnVtype w, vl := BitVec.ofNat 64 n, vstart := 0, forced := [], vlForced := false }
    ({ s with free := s.free + 1 }.setSlot sl
      { x with run := .running, hart := h, vregs := regs, naming := 0xFF, named := 0, wait := .none, met := false, carry := []
               call := some { instr := t, fn := fn, words := len.toNat + 1, line := line, lo := lo, n := n, saved := x.hart
                              savedV := x.vregs, savedNaming := x.naming, savedNamed := x.named, savedWait := x.wait
                              asleep := x.run == Run.asleep, savedMet := x.met } }).clearOps sl t.id
  | _, _ => s

/-- Elements of ta, in the order of its lines, that a TMAP or TRED has done: whether td's element is written (R347). -/
def mapDone (red : Bool) (a d : TileRec) (next line pos : Nat) : Bool :=
  let len := Nat.max 1 (recLen a)
  if red then decide (line < next / len)
  else
    let rc := rowCol d line pos
    let lp := rowCol a rc.1 rc.2
    decide (lp.1 * len + lp.2 < next)

/-- Chunks of td become ready once all their elements are written (R347). -/
def State.mapReady (s : State) (sl : SlotId) (red : Bool) (a : TileRec) (d : TileRef) (next : Nat) : State :=
  match d.entry with
  | none => s
  | some id =>
    (List.range (recChunks d.shape)).foldl (fun s c =>
      if !(s.slot sl).chunkReady d c && (chunkElems d.shape c).all (fun e => mapDone red a d.shape next e.1 e.2) then
        s.setReady sl id c else s) s

/-- The block's own registers come back after a call; what a function shares with its block stays as it left it. -/
def Slot.leaveCall (x : Slot) (c : Call) (done : Bool) : Slot :=
  { x with hart := { x.hart with pc := c.saved.pc, x := c.saved.x, vtype := c.saved.vtype, vl := c.saved.vl
                                 vstart := c.saved.vstart, forced := c.saved.forced, vlForced := c.saved.vlForced }
           carry := if done then [] else [x.vregs[3], x.vregs[4], x.vregs[5], x.vregs[6], x.vregs[7]]
           vregs := c.savedV, naming := c.savedNaming, named := c.savedNamed, wait := c.savedWait, met := c.savedMet
           run := if x.evict.isSome then .evicting else if c.asleep then .asleep else .running
           call := none }

/-- A call ends (R346, R347): its result is stored, and the block's registers come back. -/
def State.endCall (s : State) (sl : SlotId) : State :=
  let x := s.slot sl
  match x.call with
  | none => s
  | some c =>
    let s := (List.range 8).foldl (fun s k =>
      let q := x.streams[k]!
      if q.bound && q.inCall then s.unstream sl (BitVec.ofNat 3 k) else s) s
    match c.instr.op, c.instr.ta, c.instr.td with
    | .map red _ _ _ _, some a, some d =>
      let w := fnWidth (recTy a.shape)
      let r : VReg := x.vregs[3]
      let next := c.instr.next + c.n
      let len := Nat.max 1 (recLen a.shape)
      let s := if red then
          (if c.lo + c.n = len then
            let rc := rowCol d.shape c.line 0
            s.putTileElem sl d rc.1 rc.2 (elemOf r w 0) else s)
        else (List.range c.n).foldl (fun s i =>
          let rc := rowCol a.shape c.line (c.lo + i)
          s.putTileElem sl d rc.1 rc.2 (elemOf r w i)) s
      let done := decide (recLines a.shape * len ≤ next)
      let s := s.modSlot sl fun x => (x.leaveCall c done).setNext c.instr.id next
      let s := s.mapReady sl red a.shape d next
      if done then s.finishTile sl c.instr else s
    | _, _, _ => s.modSlot sl fun x => x.leaveCall c true

/-- A call has reached the address just past its function (R346). -/
def Slot.callOver (x : Slot) : Bool :=
  match x.call with
  | some c => x.threads.isNone && x.hart.pc == c.fn + BitVec.ofNat 64 (4 * c.words)
  | none => false

/-- The next strip of a slot's TMAP or TRED, where it is ready. -/
def State.nextStrip (s : State) (sl : SlotId) : Option State :=
  let x := s.slot sl
  if !x.canCall then none
  else match x.currentMap with
    | none => none
    | some t => match s.mapOperands sl t with
      | .ready => some ((s.startCall sl t).relieve (slotCore sl))
      | .stop tr => some (s.failTile sl t tr)
      | _ => none

/-- It starts, once no borrowed strip stands on a group of the slot (R293, R294). -/
def State.issueMap (s : State) (sl : SlotId) : Option State := if s.ownLent sl then none else s.nextStrip sl

end Sys2Proof.Machine
end

