-- ==== Sys2Proof/Machine/TileMatrix.lean ====
section
/-! DEFINITION. TMMA, TMMAS and TMMV: checks, strips, micro-operations, the out write (R388 - R394, R398). -/
namespace Sys2Proof.Machine

/-- Types that ta and tb may have together (R389). -/
def mmaTypes (kind : BitVec 2) (a b : Ty) : Bool :=
  let fl (t : Ty) : Bool := matTy t && t != .lg6
  (fl a && fl b) || (a == .lg6 && b == .lg6 && kind != 1)

/-- T of a TMMAS (R389). -/
def mmaTaps (kind : BitVec 2) (a b : TileRec) : Nat := if kind = 1 then recCols a / Nat.max 1 (recRows b) else 1

/-- M, N, K (R389). -/
def mmaDims (kind : BitVec 2) (a b : TileRec) : Nat × Nat × Nat :=
  if kind = 0 then (recRows a, recCols b, recCols a)
  else if kind = 1 then (recRows a, recCols b + 1 - mmaTaps 1 a b, recRows b * mmaTaps 1 a b)
  else (recRows b, recCols a, recRows a)

/-- A condition of R389: TILESHAPE naming a tile, reason 4. -/
def shapeNeed (ok : Bool) (n : TName) : M Unit := if ok then return () else tileShape n 4

/-- The conditions of R389 in their order. -/
def mmaCheck (kind : BitVec 2) (d : Option TileRef) (a b : TileRef) : M Unit := do
  let ra := a.shape
  let rb := b.shape
  if kind = 0 then
    shapeNeed (recCols ra == recRows rb && decide (recRows ra ≤ 128)) a.name
    shapeNeed (decide (recCols rb ≤ 128)) b.name
  else if kind = 1 then
    shapeNeed (recCols ra % Nat.max 1 (recRows rb) == 0) a.name
    let t := mmaTaps 1 ra rb
    shapeNeed (decide (t ≤ recCols rb) && decide (recCols rb + 1 - t ≤ 128)) a.name
    shapeNeed (decide (recRows ra ≤ 128)) a.name
  else
    shapeNeed (recCols rb == recRows ra) a.name
    shapeNeed (decide (recRows rb ≤ 128)) b.name
    shapeNeed (decide (recCols ra ≤ 128)) a.name
  shapeNeed (mmaTypes kind (recTy ra) (recTy rb)) a.name
  match d with
  | none => return ()
  | some d =>
    let (m, n, _) := mmaDims kind ra rb
    shapeNeed (recRows d.shape == m && recCols d.shape == n
      && ((tyFl (recTy d.shape)).isSome || recTy d.shape == .lg6)) d.name

/-- Decode of the three (R388, R389, R398). -/
def mmaDec (kind : BitVec 2) (z out : Bool) (ac : Acc) (td ta tb : TName) (sl : SlotId) : M TileInstr := do
  if ((← get).slot sl).accCount ≤ ac.toNat then illreg
  let d ← if out then (do let d ← destTile sl td; return some d) else pure none
  let a ← readTile sl ta
  let b ← readTile sl tb
  mmaCheck kind d a b
  let shape := (← get).hart.tshape
  let d ← match d with
    | some d => (do let d ← takeEntry sl d; return some d)
    | none => pure none
  newTile sl (.mma kind z out ac shape) d (some a) (some b) []

/-- TMMA (R390). -/
def execTmma (z out : Bool) (ac : Acc) (td ta tb : TName) : State → Host.Outcome State Fault Refusal :=
  runInstr 8 (tileInstr (mmaDec 0 z out ac td ta tb) (commitWork keep))
/-- TMMAS (R390). -/
def execTmmas (z out : Bool) (ac : Acc) (td ta tb : TName) : State → Host.Outcome State Fault Refusal :=
  runInstr 8 (tileInstr (mmaDec 1 z out ac td ta tb) (commitWork keep))
/-- TMMV (R390, R391). -/
def execTmmv (z out : Bool) (ac : Acc) (td ta tb : TName) : State → Host.Outcome State Fault Refusal :=
  runInstr 8 (tileInstr (mmaDec 2 z out ac td ta tb) (commitWork keep))

/-! ### Micro-operations (R390, R392) -/

/-- 0, g, 2g, .. below n. -/
def stripStarts (g n : Nat) : List Nat := (List.range ((n + g - 1) / g)).map (· * g)

/-- The granted strip (Mg, Ng, Kg) (R390). -/
def mmaGrant (shape : BitVec 48) (a b : Ty) : Nat × Nat × Nat :=
  let f (i : Nat) : Nat := let v := bits shape.toNat (16 * i) 16; if v = 0 then 128 else Nat.min v 128
  let q := kStep a b
  (f 0, f 1, Nat.min 128 ((f 2 + q - 1) / q * q))

/-- The strips in order (R390). -/
def mmaStrips (dims grant : Nat × Nat × Nat) : List (Nat × Nat × Nat) :=
  (stripStarts grant.1 dims.1).flatMap fun m => (stripStarts grant.2.1 dims.2.1).flatMap fun n =>
    (stripStarts grant.2.2 dims.2.2).map fun k => (m, n, k)

/-- Where the two factors of product k of element (m, n) stand (R391): in the left tile and in the right tile. -/
def mmaPlaces (taps m n k : Nat) : (Nat × Nat) × (Nat × Nat) := ((m, k), (k / taps, n + k % taps))

/-- The left and right factors' tiles (R391). -/
def mmaSides (kind : BitVec 2) (a b : TileRef) : TileRef × TileRef := if kind = 2 then (b, a) else (a, b)

/-- Index ranges of a strip. -/
def stripRange (at_ g n : Nat) : List Nat := List.range' at_ (Nat.min (at_ + g) n - at_)

/-- One micro-operation's elements: rows, columns, K indices (R390). -/
structure MmaStrip where
  ms : List Nat
  ns : List Nat
  ks : List Nat
  deriving DecidableEq, Repr

/-- Strip number i of a tile matrix instruction; none for the out write. -/
def mmaStrip (kind : BitVec 2) (shape : BitVec 48) (a b : TileRec) (i : Nat) : Option MmaStrip :=
  let d := mmaDims kind a b
  let g := mmaGrant shape (recTy a) (recTy b)
  ((mmaStrips d g)[i]?).map fun s =>
    { ms := stripRange s.1 g.1 d.1, ns := stripRange s.2.1 g.2.1 d.2.1, ks := stripRange s.2.2 g.2.2 d.2.2 }

/-- The operands of a micro-operation (R392, R394). -/
def State.mmaOperands (s : State) (sl : SlotId) (t : TileInstr) : Operands :=
  match t.op, t.ta, t.tb with
  | .mma kind _ _ _ shape, some a, some b =>
    match mmaStrip kind shape a.shape b.shape t.next with
    | none => .ready
    | some p =>
      let taps := mmaTaps kind a.shape b.shape
      let (l, r) := mmaSides kind a b
      let left := chunksOf l.shape (p.ms.flatMap fun m => p.ks.map fun k => (mmaPlaces taps m 0 k).1)
      let right := chunksOf r.shape (p.ks.flatMap fun k => p.ns.map fun n => (mmaPlaces taps 0 n k).2)
      s.operands sl t (if kind = 2 then [(r, right), (l, left)] else [(l, left), (r, right)])
  | _, _, _ => .wait

/-- One micro-operation (R390): its elements are updated indivisibly. -/
def State.mmaStep (s : State) (sl : SlotId) (id : Nat) (kind : BitVec 2) (z : Bool) (ac : Acc) (a b : TileRef) (p : MmaStrip) : State :=
  let taps := mmaTaps kind a.shape b.shape
  let (l, r) := mmaSides kind a b
  let tl := recTy l.shape
  let tr := recTy r.shape
  let fresh := z && p.ks.head? == some 0
  s.accPut sl ac (p.ms.flatMap fun m => p.ns.map fun n =>
    (m, n, accSteps tl tr (if fresh then 0 else s.accGet sl ac m n) (p.ks.map fun k =>
      let w := mmaPlaces taps m n k
      (k, matProd tl tr (s.opElem sl id l w.1.1 w.1.2) (s.opElem sl id r w.2.1 w.2.2)))))

/-- The out write (R390, R392). -/
def State.mmaOut (s : State) (sl : SlotId) (ac : Acc) (d : TileRef) : State :=
  let s := (List.range (recRows d.shape)).foldl (fun s m => (List.range (recCols d.shape)).foldl (fun s n =>
    s.putTileElem sl d m n (convert .f32 (recTy d.shape) (s.accGet sl ac m n))) s) s
  match d.entry with
  | some id => (List.range (recChunks d.shape)).foldl (fun s c => s.setReady sl id c) s
  | none => s

/-- The micro-operations an instruction has, the out write among them (R392). -/
def mmaCount (kind : BitVec 2) (out : Bool) (shape : BitVec 48) (a b : TileRec) : Nat :=
  (mmaStrips (mmaDims kind a b) (mmaGrant shape (recTy a) (recTy b))).length + (if out then 1 else 0)

/-- Perform the next micro-operation of a tile matrix instruction. -/
def State.mmaIssue (s : State) (sl : SlotId) (t : TileInstr) : State :=
  match t.op, t.ta, t.tb with
  | .mma kind z out ac shape, some a, some b =>
    let s := match mmaStrip kind shape a.shape b.shape t.next, t.td with
      | some p, _ => s.mmaStep sl t.id kind z ac a b p
      | none, some d => if out then s.mmaOut sl ac d else s
      | none, none => s
    let s := (s.clearOps sl t.id).modSlot sl fun x => x.setNext t.id (t.next + 1)
    if mmaCount kind out shape a.shape b.shape ≤ t.next + 1 then s.finishTile sl t else s
  | _, _, _ => s

/-- The tile matrix instructions of a slot that are the oldest on their accumulators (R377), oldest first. -/
def mmaHeads : List TileInstr → List Acc → List TileInstr
  | [], _ => []
  | t :: rest, seen =>
    match t.op with
    | .mma _ _ _ ac _ => if seen.contains ac then mmaHeads rest seen else t :: mmaHeads rest (ac :: seen)
    | _ => mmaHeads rest seen

/-- The oldest ready matrix micro-operation of a slot is performed, or its fault stops the slot (R174, R508). -/
def State.issueMatrix (s : State) (sl : SlotId) : Option State :=
  let x := s.slot sl
  if !x.live then none
  else (mmaHeads x.work []).findSome? fun t =>
    match s.mmaOperands sl t with
    | .ready => some (s.mmaIssue sl t)
    | .stop tr => some (s.failTile sl t tr)
    | _ => none

end Sys2Proof.Machine
end

