-- ==== Sys2Proof/Machine/Exchange.lean ====
section
/-! DEFINITION. Crossroads (spec/10_crossroads.md): TSEND and TRECV, the slots of the frame, remote chunks. -/
namespace Sys2Proof.Machine

/-- A block falls asleep in an exchange (R42). -/
def exchangeSleep {α : Type} (sl : SlotId) (w : Wait) : M α := do
  modify fun s => s.modSlot sl fun x => { x with wait := w, run := .asleep }
  stall

/-- It is awake. -/
def exchangeWake (sl : SlotId) : M Unit := modify fun s => s.modSlot sl fun x => { x with wait := .none }

/-! ### TRECV (R277) -/

def recvCommit (sl : SlotId) (t : TileInstr) : M Unit := do
  match t.op with
  | .recv src ch =>
    fixedWait sl t
    match t.td with
    | some r => allocRoom sl r
    | none => pure ()
    let c := slotCore sl
    if ((← get).core c).postings.any fun p => p.ch == ch then exchangeSleep sl .trecv
    exchangeWake sl
    modify fun s =>
      let s := s.modSlot sl fun x => x.commit t
      (s.modCore c fun x => { x with postings := x.postings ++ [⟨sl, ch, src, t.id, none⟩] }).rouseSends (slotCluster sl)
  | _ => return ()

/-- TRECV (R277). -/
def execTrecv (td : TName) (ra : Reg) (c : BitVec 4) : State → Host.Outcome State Fault Refusal :=
  runInstr 8 (tileInstr (fun sl => do
    let d ← destTile sl td
    let s ← get
    let src : BitVec 3 := (s.getX ra).truncate 3
    if s.coreGone (slotCluster sl * 8 + src.toNat) then trap { cause := .access }
    let d ← takeEntry sl d
    newTile sl (.recv src c) (some d) none none []) recvCommit)

/-! ### TSEND (R278) -/

/-- SLOTCOLL naming ta (R278). -/
def slotColl (ta : TName) (reason : Nat) : Trap :=
  { cause := .slotcoll, tile := some (ta, 0, 0), reason := BitVec.ofNat 32 reason }

/-- The destination cores of a send, in ascending order. -/
def sendCores (dests : BitVec 8) : List Nat := (List.range 8).filter fun d => dests.getLsbD d

/-- The open posting of a channel on a core. -/
def State.openPosting (s : State) (c : Nat) (ch : BitVec 4) : Option Posting :=
  (s.core c).postings.find? fun p => p.ch == ch && !p.bound

/-- The tile that a posting receives into. -/
def State.postedTile (s : State) (p : Posting) : Option TileRef :=
  ((s.slot p.slot).work.find? fun t => t.id == p.instr).bind (·.td)

/-- Records that a transfer keeps the same (R278). -/
def sendMatch (a d : TileRec) : Bool := recsEqual a d && recField a 8 4 == recField d 8 4

/-- The course of a TSEND from commit until its postings are bound (R278): `next` is 1 once its checks are past. The step
that drives its last chunk retires it. -/
def sendCommit (sl : SlotId) (t : TileInstr) : M Unit := do
  match t.op, t.ta with
  | .send dests mask ch, some a =>
    let k := slotCluster sl
    let s ← get
    match (s.cluster k).xr.sends.find? fun m => m.slot == sl && m.instr == t.id with
    | some _ => exchangeSleep sl .tsend
    | none =>
      if dests = 0 then modify fun s => s.modSlot sl fun x => { x with rob := none }
      else
        if t.next = 0 then
          if mask = 0 ∨ mask &&& ~~~(s.slot sl).lrec.exslots ≠ 0 then trap (slotColl a.name 2)
          if (sendCores dests).any fun d => s.coreGone (k * 8 + d) then trap { cause := .access }
          modify fun s => s.modSlot sl fun x => { x with rob := some { t with next := 1 } }
        let x := s.slot sl
        match x.lowestAbandoned a (List.range (recChunks a.shape)) with
        | some c => trap (abandonTrap a c)
        | none => pure ()
        if !x.allReady a then exchangeSleep sl .tsend
        let ps := (sendCores dests).map fun d => s.openPosting (k * 8 + d) ch
        if !(ps.all fun p => p.any fun p => p.src.toNat == slotCore sl % 8) then exchangeSleep sl .tsend
        if !(ps.all fun p => (p.bind s.postedTile).any fun d => sendMatch a.shape d.shape) then tileShape a.name 4
        modify fun s =>
          let s := (sendCores dests).foldl (fun s d => s.modCore (k * 8 + d) fun c =>
            { c with postings := c.postings.map fun p => if p.ch == ch && !p.bound then { p with sender := some (sl, t.id) } else p }) s
          s.modCluster k fun c => { c with xr := { c.xr with sends := c.xr.sends ++ [⟨sl, t.id, dests, mask, ch, 0, false⟩] } }
        exchangeSleep sl .tsend
  | _, _ => return ()

/-- TSEND (R278). -/
def execTsend (ta : TName) (ra rb : Reg) (c : BitVec 4) : State → Host.Outcome State Fault Refusal :=
  runInstr 8 (tileInstr (fun sl => do
    let a ← readTile sl ta
    let s ← get
    newTile sl (.send ((s.getX ra).truncate 8) (s.getX rb) c) none (some a) none []) sendCommit)

/-! ### The frame (R273 - R275, R282) -/

/-- The tile that a bound send sends. -/
def State.sentTile (s : State) (m : Send) : Option TileRef :=
  match (s.slot m.slot).rob with
  | some t => if t.id = m.instr then t.ta else none
  | none => none

/-- The bytes of chunk n of a tile that is sent: from its room, or as they were latched (R278, R282). -/
def State.sentChunk (s : State) (m : Send) (a : TileRef) (n : Nat) : Option (List Byte) :=
  if viaCrossroads m.slot a.shape then
    ((s.core (slotCore m.slot)).opbuf.find? fun o => o.slot == m.slot && o.instr == m.instr && o.owner == recCore a.shape
      && o.chunk == recChunk a.shape + n).map fun o => bytesOfNat 512 o.data.toNat
  else
    let from_ := s.tileAt m.slot a
    some (Memory.bytes s.mem (scratchPA from_.1 (from_.2 + n * 512)) 512)

/-- Chunk n of a send is driven: every destination writes it into the tile it bound, while that
receive stands (R278). -/
def State.driveChunk (s : State) (k : Nat) (m : Send) (n : Nat) (bs : List Byte) : State :=
  (sendCores m.dests).foldl (fun s d =>
    let c := k * 8 + d
    match (s.core c).postings.find? fun p => p.sender == some (m.slot, m.instr) with
    | none => s
    | some p =>
      match s.postedTile p with
      | none => s
      | some r =>
        let at_ := s.tileAt p.slot r
        let s := s.putRoom at_.1 (at_.2 + n * 512) bs
        match r.entry with
        | some id => s.setReady p.slot id n
        | none => s) s

/-- Chunks from the next one on that a driver has at hand, at most 16. -/
def State.drivable (s : State) (m : Send) (a : TileRef) : List (List Byte) :=
  ((List.range (Nat.min 16 (recChunks a.shape - m.next))).map fun i => s.sentChunk m a (m.next + i)).takeWhile
    Option.isSome |>.filterMap id

/-- A send that ends retires its TSEND (R278): its block, which may be in a call meanwhile or under eviction (R285), goes on
after it. -/
def Slot.retireSend (x : Slot) : Slot :=
  match x.rob with
  | none => x
  | some t =>
    let x := { x with rob := none, hart := { x.hart with instret := x.hart.instret + 1 } }
    match x.call with
    | some c => { x with call := some { c with saved := { c.saved with pc := t.pc + 8 }, savedWait := .none, asleep := false } }
    | none => { x with wait := .none, run := if x.run == .asleep then .running else x.run, hart := { x.hart with pc := t.pc + 8 } }

/-- A driver's slot: at most 16 chunks; with its last chunk the send ends (R273, R278). -/
def State.driveSlot (s : State) (k : Nat) (m : Send) (a : TileRef) : State :=
  let bs := s.drivable m a
  let n := bs.length
  let s := (bs.zipIdx m.next).foldl (fun s b => s.driveChunk k m b.2 b.1) s
  let s := if viaCrossroads m.slot a.shape then s.clearOps m.slot m.instr else s
  if recChunks a.shape ≤ m.next + n then (s.endSend k m).modSlot m.slot Slot.retireSend
  else s.modCluster k fun c => { c with xr := { c.xr with
    sends := c.xr.sends.map fun q => if q == m then { q with next := m.next + n } else q } }

/-- A bound send stops with a fault of its TSEND, at the TSEND's own address (R278, R280). -/
def State.stopSend (s : State) (k : Nat) (m : Send) (t : Trap) : State :=
  let at_ : Option Word := (s.slot m.slot).rob.map (·.pc)
  (s.endSend k m).modSlot m.slot fun x => { x with stop := x.stop.or (some { t with at? := t.at?.or at_ }) }

/-- A bound TSEND whose block a trap has stopped ends before its last chunk (R280). -/
def State.endStopped (s : State) : State :=
  s.clusters.foldl (fun s e => (e.2.xr.sends.filter fun m => (s.slot m.slot).halted).foldl (fun s m => s.endSend e.1 m) s) s

/-- Two claims of one slot: each TSEND raises SLOTCOLL (R275, R280). -/
def State.collide (s : State) (k : Nat) (m : Send) (a : TileRef) : State := s.stopSend k m (slotColl a.name 1)

/-- The chunks of a remote tile that a bound send is to drive next (R282). -/
def State.sendOperands (s : State) (m : Send) : Operands :=
  match (s.slot m.slot).rob with
  | some t => match t.ta with
    | some a => if viaCrossroads m.slot a.shape then
        s.operands m.slot t [(a, List.range' m.next (Nat.min 16 (recChunks a.shape - m.next)))] else .ready
    | none => .ready
  | none => .ready

/-- A free slot serves up to 16 remote chunks of one core, cores in turn; a drive serves every pending read of its
group (R282). -/
def State.serveRemote (s : State) (k : Nat) : Nat → BitVec 3 → State
  | 0, _ => s
  | f + 1, owner =>
    match (s.cluster k).xr.remote.find? fun r => r.owner == owner with
    | none => s
    | some r =>
      let c := k * 8 + owner.toNat
      let data : BitVec 4096 := BitVec.ofNat 4096 (Memory.nat s.mem (scratchPA c (r.chunk * 512)) 512)
      let same (q : RemoteReq) : Bool := q == r || (r.group != 0 && q.owner == r.owner && q.chunk == r.chunk && q.group == r.group)
      let hit := (s.cluster k).xr.remote.filter same
      let s := hit.foldl (fun s q => s.modCore (slotCore q.reader) fun x =>
        { x with opbuf := x.opbuf ++ [⟨q.reader, q.instr, owner.toNat, q.chunk, data⟩] }) s
      let s := s.modCluster k fun x => { x with xr := { x.xr with remote := x.xr.remote.filter fun q => !same q } }
      s.serveRemote k f owner

/-- The next core, in turn, that holds remote requests (R282). -/
def Crossroads.nextOwner (x : Crossroads) : Option (BitVec 3) :=
  ((List.range' 1 8).map fun i => x.rr + BitVec.ofNat 3 i).find? fun o => x.remote.any fun r => r.owner == o

/-- A slot of the frame (R273 - R275, R278, R282): sends that have been issued claim it. -/
def State.frameSlot (s : State) (k : Nat) : State :=
  let x := (s.cluster k).xr
  let n := x.frame % 64
  let s := s.modCluster k fun c => { c with xr := { c.xr with frame := c.xr.frame + 1 } }
  let s := x.sends.foldl (fun s m => match s.sendOperands m with | .stop t => s.stopSend k m t | _ => s) s
  let claims := (s.cluster k).xr.sends.filterMap fun m =>
    match s.sentTile m with
    | some a => if m.issued && m.mask.getLsbD n && decide (m.next < recChunks a.shape) then some (m, a) else none
    | none => none
  match claims with
  | [] =>
    if (s.ownedSlots k).getLsbD n then s
    else match x.nextOwner with
      | none => s
      | some o => (s.modCluster k fun c => { c with xr := { c.xr with rr := o } }).serveRemote k 16 o
  | [(m, a)] => s.driveSlot k m a
  | cs => cs.foldl (fun s c => s.collide k c.1 c.2) s

/-- CROSSROADS_SLOT (R273). -/
def execCrossroadsSlot (k : ClusterId) : State → Host.Outcome State Fault Refusal :=
  runStep fun s => if (s.cluster k.toNat).fenced then s else s.frameSlot k.toNat

end Sys2Proof.Machine
end

