-- ==== Sys2Proof/Machine/Porter.lean ====
section
/-! DEFINITION. The steps of a Porter: handing over, starting, carrying out and completing commands (R240, R241,
R255 - R264, R269), stream refills (R266, R335, R337), PCTL (R267). -/
namespace Sys2Proof.Machine

/-! ### The copy port (R240, R241) -/

/-- A copy of a slot that has been handed to a Porter. -/
def State.handed (s : State) (sl : SlotId) (t : TileInstr) : Bool :=
  (List.range 32).any fun k => (s.cluster k).porter.cmds.any fun c => c.id == cmdId sl t.id

/-- The oldest copy of a slot that has not been handed over, with the work before it. -/
def State.nextCopy (s : State) (sl : SlotId) : Option (List TileInstr × TileInstr) :=
  let w := (s.slot sl).work
  let i := w.findIdx fun t => t.isCopy && !s.handed sl t
  (w[i]?).map fun t => (w.take i, t)

/-- The Porter that takes a command of a cluster: its own, or a substitute (R263). -/
def State.porterFor (s : State) (k : Nat) (t : TileInstr) : Option Nat := if t.isFw then s.fwPorter k else s.servingPorter k

/-- The fields of a decoded tile instruction, as a descriptor takes them (R269). -/
def TileOp.fields : TileOp → List Nat
  | .load h e t b st => [0, h.code, e.toNat, t.code, b.toNat, st.toNat]
  | .loadPb h e va g => [1, h.code, e.toNat, va.toNat, g.toNat]
  | .store h e t b st => [2, h.code, e.toNat, t.code, b.toNat, st.toNat]
  | .storePb h e va g => [3, h.code, e.toNat, va.toNat, g.toNat]
  | .copy e => [4, e.toNat]
  | .copyPb h e va g => [5, h.code, e.toNat, va.toNat, g.toNat]
  | .zero e => [6, e.toNat]
  | .coll h e op hd par => [7, h.code, e.toNat, op.code, hd.toNat, par.toNat]
  | .mma kind z out ac sh => [8, kind.toNat, z.toNat, out.toNat, ac.toNat, sh.toNat]
  | .map red len two fn arg => [9, red.toNat, len.toNat, two.toNat, fn.toNat, arg.toNat]
  | .send d m ch => [10, d.toNat, m.toNat, ch.toNat]
  | .recv c ch => [11, c.toNat, ch.toNat]
  | .discard va n => [12, va.toNat, n.toNat]

/-- A command's descriptor, whose layout the spec does not give (R269): its instruction, captured records, blocks, core, slot. -/
def Cmd.descriptor (c : Cmd) : BitVec 512 :=
  let names (r : Option TileRef) : List Nat := r.toList.map (·.name.toNat)
  let src := match c.src with | .tile => [] | .refill kq => [13, kq.toNat]
  Config.ringDesc (src ++ c.instr.op.fields ++ names c.instr.td ++ names c.instr.ta)
    ((c.instr.td.toList ++ c.instr.ta.toList).map (·.shape)) c.instr.pbs (slotCore c.slot) (slotNum c.slot)

/-- A command is handed to a Porter: its descriptor stands in its place of the ring at data memory offset 0 (R241, R269, log
41). -/
def State.handOver (s : State) (k : Nat) (c : Cmd) : State :=
  let s := s.modCluster k fun y => { y with porter := y.porter.add c s.clock }
  match (s.cmd? k c.id) with
  | some c => s.setMem (Memory.putAll s.mem (clusterBase k + 0x90000 + 64 * c.ring) (bytesOfNat 64 c.descriptor.toNat))
  | none => s

/-- A command for which no Porter qualifies stops with FENCED (R261, R263): it ends at its own cluster's Porter, which still
owes its mask areas, its signals and its event. -/
def State.fencedCmd (s : State) (c : Cmd) : State :=
  let k := c.home.toNat
  let c := { c with started := true }
  (s.modCmds k fun l => l ++ [c]).stopCmd k c .fenced none c.owesWrite

/-- A new command. -/
def newCmd (sl : SlotId) (t : TileInstr) : Cmd :=
  { id := cmdId sl t.id, slot := sl, home := BitVec.ofNat 5 (slotCluster sl), src := .tile, instr := t, todo := t.parts }

/-- Chunks of local tiles that a copy reads. -/
def TileInstr.readsChunks (t : TileInstr) : List (TileRef × List Nat) :=
  match t.ta with
  | some a => [(a, List.range (recChunks a.shape))]
  | none => []

/-- Commands of a slot wait at a fenced Porter to pass to a substitute: no younger one goes before them (R263). -/
def State.waitsToPass (s : State) (sl : SlotId) : Bool :=
  (List.range 32).any fun k => (s.cluster k).porter.fenced && (s.cluster k).porter.cmds.any fun c =>
    c.slot == sl && c.src == .tile && !c.started

/-- The copy port of a slot: its next copy is handed to its Porter, which has room for it (R240, R241); a copy younger than an unfinished TMAP or
TRED waits for it (R347). -/
def State.issueCopy (s : State) (sl : SlotId) : Option State :=
  let x := s.slot sl
  if !x.live then none
  else match s.nextCopy sl with
    | none => none
    | some (older, t) =>
      if older.any TileInstr.isMap then none
      else
        let gone := match t.ta with
          | some a => recRemote a.shape && s.coreGone (slotCluster sl * 8 + recCore a.shape)
          | none => false
        let dead := t.readsChunks.findSome? fun o => (x.lowestAbandoned o.1 o.2).map fun c => abandonTrap o.1 c
        match dead with
        | some tr => some (s.failTile sl t { tr with at? := some t.pc })
        | none =>
          if gone then some (s.failTile sl t { cause := .access, at? := some t.pc })
          else if !(t.readsChunks.all fun o => recRemote o.1.shape || o.2.all (x.chunkReady o.1)) then none
          else
            let j := s.porterFor (slotCluster sl) t
            let k := j.getD (slotCluster sl)
            if s.waitsToPass sl || !(s.cluster k).porter.roomFor k (slotCore sl) then none
            else some (if j.isSome then s.handOver k (newCmd sl t) else s.fencedCmd (newCmd sl t))

/-! ### Starting a command (R241, R269) -/

/-- Some range of one list must be accessed before one of the other (R172, R417). -/
def State.rangesClash (s : State) (ctx : BitVec 16) (a b : List (Word × Nat)) : Bool := a.any fun p => b.any (s.rangesOrder ctx p)

/-- The copy's elements lie on some SO page, so that its parts go in ascending order (R417). -/
def State.onSo (s : State) (c : Cmd) : Bool :=
  c.instr.ranges.any (s.onSoPage (s.slot c.slot).ctx)

/-- Whether a command may make accesses now (R172, R214, R335): what it must follow in its block is done. -/
def State.cmdClear (s : State) (c : Cmd) : Bool :=
  let x := s.slot c.slot
  let older := x.work.takeWhile fun t => t.id != c.instr.id
  older.all (fun t => !s.rangesClash x.ctx t.ranges c.instr.ranges) && !s.svHeld c.slot c.instr.id
    && !(s.onSo c && s.anyHeld c.slot fun h => h.so && h.cmd.isNone)
    && (x.streams.toList.all fun q => decide (c.instr.id < q.after)
        || !q.unread fun e => c.instr.ranges.any fun r => s.rangesOrder x.ctx r e)

/-- The firmware core starts commands (R267, R270). -/
def Porter.runs (p : Porter) : Bool := p.running && !p.halted && !p.fenced

/-- The oldest unstarted commands of the cores of a cluster, in turn after the last one served (R241). -/
def State.startOrder (s : State) (k : Nat) : List Cmd :=
  let p := (s.cluster k).porter
  let wait := p.cmds.filter fun c => !c.started && c.src == .tile
  ((List.range' 1 8).filterMap fun i =>
    wait.find? fun c => slotCore c.slot % 8 == (p.rr.toNat + i) % 8).filter fun c => s.cmdClear c

/-- A command that waits at a fenced Porter can pass on: the oldest of its slot there, where the Porter that takes it has room
for it; none of the die qualifying, its own cluster's (R240, R263). -/
def State.canPass (s : State) (k : Nat) (c : Cmd) : Bool :=
  let waits (d : Cmd) : Bool := !d.started && d.src == .tile && d.slot == c.slot
  let home := c.home.toNat
  ((s.cluster k).porter.cmds.find? waits).any (fun d => d.id == c.id) && (match s.porterFor home c.instr with
    | some j => (s.cluster j).porter.roomFor j (slotCore c.slot)
    | none => home == k || (s.cluster home).porter.roomFor home (slotCore c.slot))

/-- A command of a fenced Porter that is not started passes to a substitute, or stops where none qualifies (R263). -/
def State.passOn (s : State) (k : Nat) (c : Cmd) : State :=
  let drop (s : State) : State := s.modCmds k fun l => l.filter fun d => d.id != c.id
  if !s.canPass k c then s
  else match s.porterFor c.home.toNat c.instr with
    | none => (drop s).fencedCmd c
    | some j => (drop s).handOver j c

/-- Commands that the firmware may start now: the vendor's starts in turn; a custom image starts any (R241, R270). Those of a
fenced Porter are to pass on (R263). -/
def State.startable (s : State) (k : Nat) : List Cmd :=
  let p := (s.cluster k).porter
  if p.fenced then p.cmds.filter fun c => s.canPass k c
  else if !p.runs then []
  else if p.custom then p.cmds.filter fun c => !c.started && c.src == .tile && s.cmdClear c
  else (s.startOrder k).take 1

/-- A command starts. -/
def State.startCmd (s : State) (k id : Nat) : State :=
  match (s.startable k).find? fun c => c.id == id with
  | none => s
  | some c => if (s.cluster k).porter.fenced then s.passOn k c else (s.modCmd k id fun c => { c with started := true }).modCluster k fun y =>
      { y with porter := { y.porter with rr := BitVec.ofNat 3 (slotCore c.slot % 8), idleSince := s.clock } }

/-- PORTER_COMMAND_START (R269). -/
def execPorterCommandStart (k : ClusterId) (cmd : Nat) : State → Host.Outcome State Fault Refusal :=
  runStep fun s => s.startCmd k.toNat cmd

/-! ### Chunks and completion (R167, R255 - R257) -/

/-- A command that can go on with a chunk now: a unit that has begun is done first. -/
def Cmd.canPart (c : Cmd) (chunk : Nat) : Bool :=
  c.src == .tile && c.started && c.park.isNone && c.stopped.isNone && !c.instr.isFw && !c.drained
    && (c.todo.contains chunk || (c.instr.isColl && c.todo.isEmpty)) && (c.skip == 0 || chunk == c.part)

/-- The chunks of ta that a part of a command reads, where ta stands on another core (R282). -/
def State.partOperands (s : State) (c : Cmd) (chunk : Nat) : Operands :=
  match c.instr.ta with
  | none => .ready
  | some a =>
    let es := match c.instr.op, c.instr.td with
      | .store _ _ _ _ _, _ | .storePb _ _ _ _, _ => (unitElems c.instr.unitRow chunk).map fun e => rowCol a.shape e.1 e.2
      | .copy _, some d => (chunkElems d.shape chunk).map fun e => rowCol d.shape e.1 e.2
      | .coll _ _ _ _ _, _ => if c.phase = .write && c.todo.contains chunk then
          (unitElems c.instr.unitRow chunk).map fun e => rowCol a.shape e.1 e.2 else []
      | _, _ => []
    if viaCrossroads c.slot a.shape then s.operands c.slot c.instr [(a, chunksOf a.shape es)] else .ready

/-- A fault of a command's remote operand stops its block (R508). -/
def State.failCopy (s : State) (k : Nat) (c : Cmd) (tr : Trap) : State :=
  (s.modCmds k fun l => l.filter fun d => d.id != c.id).failTile c.slot c.instr tr

/-- The part that a command goes on with. -/
def Cmd.nextPart (c : Cmd) : Nat := if c.skip ≠ 0 then c.part else c.todo.headD 0

/-- A part of a command that can be carried out now: in ascending order on SO pages, its remote operand latched. -/
def State.partReady (s : State) (c : Cmd) (chunk : Nat) : Bool :=
  c.canPart chunk && (chunk == c.nextPart || !s.onSo c) && (match s.partOperands c chunk with
    | .ready | .stop _ => true
    | _ => false)

/-- One chunk or unit of a command (R167, R241). -/
def State.doPart (s : State) (k id chunk : Nat) : State :=
  match s.cmd? k id with
  | none => s
  | some c =>
    if !s.partReady c chunk then s
    else match s.partOperands c chunk with
      | .stop tr => s.failCopy k c tr
      | _ =>
        let s := s.runCmd k c chunk c.owesWrite (copyPart k c chunk)
        if c.instr.ta.any fun a => viaCrossroads c.slot a.shape then s.clearOps c.slot c.instr.id else s

/-- CHUNK_COMPLETE (R167). -/
def execChunkComplete (k : ClusterId) (cmd chunk : Nat) : State → Host.Outcome State Fault Refusal :=
  runStep fun s => s.doPart k.toNat cmd chunk

/-- Commands left after one ends. -/
def Porter.drop (p : Porter) (id clock : Nat) : Porter :=
  { p with cmds := p.cmds.filter fun c => c.id != id, idleSince := clock }

/-- The mask areas that a stopped command still owes (R261); one that cannot be written is a failed write. -/
def stoppedMasks (k : Nat) (c : Cmd) : M Unit := do
  match ← attempt (writeMasks k c 0 c.instr.pbs) with
  | .ok _ => return ()
  | .error .stall => stall
  | .error (.trap t) =>
    if t.cause.delivery = .park then trap t
    modify fun s => (s.cmdFailed c (some t.va) t.cause).modCmd k c.id fun c => { c with masks := 2 }

/-- What a command does last: the masks of a stopped one, its signals, its event; then its entry is free
(R255 - R257, R261). -/
def completeCmd (k : Nat) (c : Cmd) : M Unit := do
  if c.stopped.isSome then stoppedMasks k c
  let c := ((← get).cmd? k c.id).getD c
  if (← get).anyHeld c.slot fun h => h.cmd == some (k, c.id) then stall
  doSignals k c ((← get).delivered c) 0 c.instr.pbs
  let s ← get
  if c.instr.ev && !s.eventRoom c.home.toNat then stall
  let s := if c.instr.ev then s.pushEvent c.home.toNat (s.copyDone c) else s
  set ((s.modCluster k fun y => { y with porter := y.porter.drop c.id s.clock }).finishTile c.slot c.instr |>.clearOps c.slot c.instr.id)

/-- A command that can complete. -/
def Cmd.canEnd (c : Cmd) : Bool := c.src == .tile && c.started && c.park.isNone && (c.stopped.isSome || c.drained)

/-- The end of a command. -/
def State.endCmd (s : State) (k id : Nat) : State :=
  match s.cmd? k id with
  | none => s
  | some c => if c.canEnd then s.runCmd k c 0 false (completeCmd k c) else s

/-- COPY_COMPLETE (R257). -/
def execCopyComplete (k : ClusterId) (cmd : Nat) : State → Host.Outcome State Fault Refusal :=
  runStep fun s => s.endCmd k.toNat cmd

/-! ### Datapath primitives of the firmware's collectives (R269) -/

/-- Every unit of ta written to the participant's slot. -/
def fwSlotWrite (k : Nat) (c : Cmd) (h par : Word) (a : TileRef) : M Unit := do
  let es := (List.range (unitCount c.instr.unitRow)).flatMap fun u => unitElems c.instr.unitRow u
  storeUnit k c 0 (collGeom h par a.shape) (fun l p => do
      let rc := rowCol a.shape l p
      return (← get).opElem c.slot c.instr.id a rc.1 rc.2) (fun _ _ => true) (collUse .store) (es.drop c.skip)
  modify fun s => s.modCmd k c.id fun c => { c with skip := 0 }

/-- One primitive (R269; which header word an arrival-add of a round takes is the model's reading, log 41). -/
def fwPrimitive (k : Nat) (c : Cmd) (h par : Word) (a d : TileRef) : Primitive → M Unit
  | .slotWrite => fwSlotWrite k c h par a
  | .arrivalAdd round => collAdd k c (h + BitVec.ofNat 64 (8 * (round % 8)))
  | .combineRead op => do
    for chunk in List.range (recChunks d.shape) do
      collChunk k c op h (collN par) a.shape d chunk (chunkElems d.shape chunk)
      modify fun s => s.partDone k c chunk
  | .signal => collAdd k c (h + 8)

/-- The chunks of ta that a primitive reads, where ta stands on another core (R282). -/
def State.primOperands (s : State) (c : Cmd) (a : TileRef) : Primitive → Operands
  | .slotWrite =>
    if viaCrossroads c.slot a.shape then s.operands c.slot c.instr [(a, List.range (recChunks a.shape))] else .ready
  | _ => .ready

/-- A primitive of a started firmware collective on a custom image. -/
def State.doPrimitive (s : State) (k id : Nat) (prim : Primitive) : State :=
  let p := (s.cluster k).porter
  match s.cmd? k id with
  | none => s
  | some c =>
    if !(p.runs && p.custom && c.started && c.park.isNone && c.stopped.isNone) then s
    else match c.instr.op, c.instr.ta, c.instr.td with
      | .coll _ _ (.fw _) h par, some a, some d =>
        match s.primOperands c a prim with
        | .ready =>
          let s := s.runCmd k c 0 false (fwPrimitive k c h par a d prim)
          if viaCrossroads c.slot a.shape then s.clearOps c.slot c.instr.id else s
        | .stop tr => s.failCopy k c tr
        | _ => s
      | _, _, _ => s

/-- PORTER_DATAPATH_PRIMITIVE (R269). -/
def execPorterDatapathPrimitive (k : ClusterId) (cmd : Nat) (prim : Primitive) :
    State → Host.Outcome State Fault Refusal :=
  runStep fun s => s.doPrimitive k.toNat cmd prim

/-! ### Stream refills (R266, R335, R337) -/

/-- Hint of a stream (R333). -/
def Stream.hintOf (q : Stream) : Hint := if q.hint = 1 then .noalloc else if q.hint = 2 then .bypass else .normal

/-- Elements of a refill, one after another. -/
def refillElems (k : Nat) (sl : SlotId) (kq : BitVec 3) : Nat → M Unit
  | 0 => return ()
  | n + 1 => do
    let x := (← get).slot sl
    let q := x.streams[kq.toNat]!
    let eb := 2 ^ q.eew.toNat
    let va := q.base + q.filled * q.estride
    let bs ← agentRead (.porter (BitVec.ofNat 5 k)) (porterSrc k) x.ctx copyLoad q.hintOf (cutGranules 3 va eb)
    modify fun s => s.modSlot sl fun x =>
      let q := x.streams[kq.toNat]!
      let q := { q with data := putBits q.data (q.filled.toNat * eb % 4096) bs, filled := q.filled + 1 }
      { x with streams := x.streams.set! kq.toNat q }
    refillElems k sl kq n

/-- A refill as a command (R240, R266). -/
def refillCmd (sl : SlotId) (kq : BitVec 3) (pc : Word) : Cmd :=
  { id := cmdId sl (2 ^ 40 + kq.toNat), slot := sl, home := BitVec.ofNat 5 (slotCluster sl), src := .refill kq
    instr := { id := 2 ^ 40 + kq.toNat, pc := pc, op := .zero false }, started := true }

/-- A stream ends early (R262, R337). -/
def State.endStream (s : State) (sl : SlotId) (kq : BitVec 3) (c : Cause) : State :=
  let q := (s.slot sl).streams[kq.toNat]!
  let units := q.filled.toNat * 2 ^ q.eew.toNat / 512
  let s := s.modSlot sl fun x =>
    { x with streams := x.streams.set! kq.toNat { q with ended := true, endCause := c.code } }
  s.postEvent (slotCluster sl) (s.slotEvent sl 11 q.desc (BitVec.ofNat 64 (c.code.toNat + units * 2 ^ 16)))

/-- One refill (R266). -/
def State.refill (s : State) (sl : SlotId) (kq : BitVec 3) : State :=
  let x := s.slot sl
  let q := x.streams[kq.toNat]!
  let n := s.refillCount sl q
  let older := x.work.filter fun t => decide (t.id < q.after)
  let span := (List.range n).map fun i => (q.base + (q.filled + BitVec.ofNat 64 i) * q.estride, 2 ^ q.eew.toNat)
  let mine (c : Cmd) : Bool := c.slot == sl && c.src == .refill kq
  if n = 0 || x.run == .empty || (List.range 32).any (fun j => (s.cluster j).porter.cmds.any fun c => mine c && c.park.isSome)
      || older.any (fun t => t.isMap || s.rangesClash x.ctx t.ranges span) then s
  else
    let s := (List.range 32).foldl (fun s j => s.modCmds j fun l => l.filter fun c => !mine c) s
    match s.servingPorter (slotCluster sl) with
    | none => s.endStream sl kq .fenced
    | some k =>
      let p := (s.cluster k).porter
      if !p.runs || !p.roomFor k (slotCore sl) then s
      else
        let cmd := refillCmd sl kq x.hart.pc
        let drop (s : State) : State := s.modCmds k fun l => l.filter fun c => !mine c
        match (refillElems k sl kq n).run (s.handOver k cmd) with
        | .ok _ s | .error .stall s => drop s
        | .error (.trap t) s =>
          if t.cause.delivery = .park then
            let (tok, s) := s.takeToken
            let s := s.postFault (s.copyRecord sl x.hart.pc t tok) x.ctx t.acc 1
            let s := s.postEvent (slotCluster sl) (s.slotEvent sl 4 tok t.va)
            s.modCmd k cmd.id fun c => { c with park := some (tok, 0, t.va) }
          else (drop s).endStream sl kq t.cause

/-- STREAM_REFILL (R266). -/
def execStreamRefill (sl : SlotId) (kq : BitVec 3) : State → Host.Outcome State Fault Refusal :=
  runStep fun s => s.refill sl kq

/-! ### Requests for remote chunks (R282, R394) -/

/-- Remote chunks that each waiting micro-operation of a slot needs (R282, R394). -/
def State.remoteNeeds (s : State) (sl : SlotId) : List Operands :=
  let x := s.slot sl
  let mine := (List.range 32).flatMap fun k => (s.cluster k).porter.cmds.filter fun c => c.slot == sl
  (if x.live then (mmaHeads x.work []).map (s.mmaOperands sl) else [])
    ++ (match x.currentMap with | some t => if x.canCall then [s.mapOperands sl t] else [] | none => [])
    ++ mine.map (fun c => if c.instr.isFw && c.started then
        (match c.instr.ta with | some a => s.primOperands c a .slotWrite | none => .ready)
      else if c.canPart c.nextPart then s.partOperands c c.nextPart else .ready)
    ++ ((s.cluster (slotCluster sl)).xr.sends.filter fun m => m.slot == sl).map s.sendOperands

/-- The next remote chunk that each waiting micro-operation of a slot is to ask for, in its order (R394). -/
def State.wantedRemote (s : State) (sl : SlotId) : List RemoteReq :=
  let asked := (s.cluster (slotCluster sl)).xr.remote
  (s.remoteNeeds sl).filterMap fun o => match o with
    | .ask rs => rs.find? fun r => !asked.contains r
    | _ => none

/-- Micro-operations of a slot whose remote operand has gone end with ACCESS (R286, R395, R508). -/
def State.failRemote (s : State) (sl : SlotId) : State :=
  let s := (s.issueMatrix sl).getD ((s.issueMap sl).getD s)
  (List.range 32).foldl (fun s k => ((s.cluster k).porter.cmds.filter fun c => c.slot == sl && c.canPart c.nextPart).foldl
    (fun s c => match s.partOperands c c.nextPart with | .stop t => s.failCopy k c t | _ => s) s) s

/-- A remote chunk request joins those its owner's window port holds; with the owner gone, the reader's instruction ends
with ACCESS (R282, R395). -/
def State.askRemote (s : State) (k : Nat) (r : RemoteReq) : State :=
  if slotCluster r.reader ≠ k then s
  else if s.coreGone (k * 8 + r.owner.toNat) then s.failRemote r.reader
  else if (s.wantedRemote r.reader).contains r then
    s.modCluster k fun c => { c with xr := { c.xr with remote := c.xr.remote ++ [r] } }
  else s

/-- REMOTE_CHUNK_REQUEST (R282). -/
def execRemoteChunkRequest (k : ClusterId) (r : RemoteReq) : State → Host.Outcome State Fault Refusal :=
  runStep fun s => s.askRemote k.toNat r

/-! ### PCTL (R267) -/

/-- A write of PCTL (R267). The operations that a custom image defines are what its firmware core writes to POPS: a free
value (log 3). -/
def State.writePctl (s : State) (k : Nat) (v : Word) : State :=
  let p := (s.cluster k).porter
  let run := v.getLsbD 0
  let busy := !p.cmds.isEmpty
  let custom := if p.running then p.custom else v.getLsbD 1
  let starts := run && !p.running
  let p' : Porter :=
    { p with run := run || (p.running && busy)
             stopping := !run && p.running && busy
             custom := custom
             ctx := BitVec.ofNat 16 (bits v.toNat 16 16), image := BitVec.ofNat 16 (bits v.toNat 32 16)
             idleSince := if starts then s.clock else p.idleSince
             fwops := if starts then (if custom then (Config.freeWord s.free).truncate 8 else 0) else p.fwops }
  { s with free := s.free + 1 }.modCluster k fun c => { c with porter := p' }

/-- PCTL_WRITE (R267). -/
def execPctlWrite (k : ClusterId) (v : Word) : State → Host.Outcome State Fault Refusal :=
  runServing fun s => s.writePctl k.toNat v

end Sys2Proof.Machine
end

