-- ==== Sys2Proof/Machine/Image.lean ====
section
/-! DEFINITION. The context image (R236 - R239, R352, R397): its bytes, its writing at an eviction, its restoring. -/
namespace Sys2Proof.Machine

/-! ### Bytes -/

def word8 (v : Word) : List Byte := bytesOfNat 8 v.toNat
def zeros (n : Nat) : List Byte := List.replicate n 0
/-- A list of bytes cut or padded with zeros to n. -/
def fit (n : Nat) (bs : List Byte) : List Byte := (bs.take n) ++ zeros (n - bs.length)
/-- Field of n bytes at an offset. -/
def fieldAt (bs : List Byte) (off n : Nat) : Nat := natOfBytes ((bs.drop off).take n)
def align64 (n : Nat) : Nat := (n + 63) / 64 * 64

/-! ### What an image holds -/

/-- The hart whose registers the scalar part holds: the block's own, behind a call (R348). -/
def Slot.own (x : Slot) : Hart :=
  match x.call with
  | some c => { x.hart with pc := c.saved.pc, x := c.saved.x, vtype := c.saved.vtype, vl := c.saved.vl
                            vstart := c.saved.vstart, forced := c.saved.forced, vlForced := c.saved.vlForced }
  | none => x.hart
/-- The block's own vector registers. -/
def Slot.ownV (x : Slot) : Vector VReg 32 := match x.call with | some c => c.savedV | none => x.vregs
/-- The wait of the block's own stream. -/
def Slot.ownWait (x : Slot) : Wait := match x.call with | some c => c.savedWait | none => x.wait

/-- Its wait is recorded met (R155). -/
def Slot.ownMet (x : Slot) : Bool := match x.call with | some c => c.savedMet | none => x.met

/-- Instructions of the lg6 feature, and those of scvec (R238). -/
def isLg6 : Instr → Bool
  | .vlmul _ _ _ _ | .vldot _ _ _ _ | .vlcvt _ _ _ _ _ | .vlscale _ _ _ _ _ => true
  | .mhold t _ _ _ | .mop t _ _ _ _ | .mops t _ _ _ _ | .mhmul t _ _ _ => t == .lg6
  | _ => false
def isScvec : Instr → Bool
  | .vlsc _ _ _ _ _ _ | .vssc _ _ _ _ _ _ => true
  | _ => false

/-- What a flight-list entry's word decodes to. -/
def Flight.is (e : Flight) (p : Instr → Bool) : Bool :=
  wordIs p false e.word.toNat

/-- Features whose state is live (R238). -/
def Slot.liveBits (x : Slot) : Nat :=
  let inMemory (t : TileInstr) : Bool := match t.op with
    | .load _ _ ty _ _ | .store _ _ ty _ _ => ty == .lg6
    | _ => t.pbs.any fun p => pbTy p == some .lg6
  let lg (t : TileInstr) : Bool := inMemory t || [t.td, t.ta, t.tb].any fun r => r.any fun r => recTy r.shape == .lg6
  (if x.threads.isSome || x.work.any TileInstr.isMap then 1 else 0)
    + (if x.hart.sett ≠ 1 then 2 else 0)
    + (if x.mat.fmt == some .lg6 || x.work.any lg || x.flight.any (·.is isLg6) then 4 else 0)
    + (if x.mat.fmt.isSome then 8 else 0)
    + (if x.flight.any (·.is isScvec) then 16 else 0)

/-- The wait byte (R237). -/
def Slot.waitByte (x : Slot) : Nat :=
  (match x.ownWait with | .twait _ _ => 1 | .vwait _ _ => 2 | .tbar _ _ => 3 | _ => 0)
    + (if x.ownMet then 4 else 0) + (if x.park.isSome then 8 else 0)

/-- The control registers of an image, in order (R237). -/
def Hart.ctlWords (h : Hart) : List Word :=
  [h.vl, h.vtype.zeroExtend 64, h.vstart.zeroExtend 64, h.mvl.zeroExtend 64, h.tshape.zeroExtend 64, h.fcsr.zeroExtend 64
  , h.tvec, h.xpc, h.tcause.zeroExtend 64, h.tval, h.tcoord, h.sett.zeroExtend 64, h.setthit, h.settmiss, h.settkill
  , h.instret, h.resync]

/-- The strip tracker of an image (R237). -/
def trackerBytes (l : List StripEntry) : List Byte :=
  (List.range 8).flatMap fun i => match l[i]? with
    | some e => word8 e.addr ++ word8 e.last ++ bytesOfNat 8 (1 + (if e.strike then 2 else 0) + 4 * i)
    | none => zeros 24

/-- The scalar part, 0x400 bytes (R237). -/
def scalarBytes (x : Slot) (grant size : Nat) (regions : List (Nat × Nat)) : List Byte :=
  let h := x.own
  fit 0x40 ([2, 0] ++ bytesOfNat 2 1 ++ bytesOfNat 4 size ++ bytesOfNat 8 0x3F ++ bytesOfNat 8 x.liveBits
      ++ word8 ((x.park.map (·.token)).getD 0) ++ word8 h.pc ++ bytesOfNat 1 grant ++ bytesOfNat 1 x.waitByte)
    ++ (0 :: h.x.toList.tail).flatMap word8
    ++ fit 0xC0 (h.ctlWords.flatMap word8)
    ++ fit 0x100 (trackerBytes h.tracker)
    ++ fit 0x100 (regions.flatMap fun r => bytesOfNat 8 r.1 ++ bytesOfNat 8 r.2)

/-- A stream of the vector region (R352). -/
def streamBytes (q : Stream) : List Byte :=
  fit 64 (word8 q.base ++ word8 q.estride ++ word8 q.count ++ bytesOfNat 1 q.eew.toNat ++ bytesOfNat 1 q.hint.toNat
    ++ zeros 6 ++ word8 q.pos ++ bytesOfNat 1 q.reg.toNat
    ++ bytesOfNat 1 ((if q.bound then 1 else 0) + (if q.push then 2 else 0) + (if q.ended then 4 else 0)) ++ bytesOfNat 1 q.frame.toNat ++ [q.endCause])

/-- An entry of the flight list (R351). -/
def flightBytes (e : Flight) : List Byte :=
  fit 48 (word8 e.va ++ bytesOfNat 4 e.word.toNat ++ bytesOfNat 2 e.start.toNat ++ bytesOfNat 2 e.vl.toNat ++ word8 e.a
    ++ word8 e.b ++ bytesOfNat 1 e.vtype.toNat ++ bytesOfNat 1 (e.frm.toNat + 8 * e.vxrm.toNat) ++ [1])

/-- Lane threads of the vector region (R352). -/
def threadBytes (t : Option Threads) : List Byte :=
  match t with
  | none => zeros 544
  | some t =>
    let mask := t.mask.foldl (fun m i => m + 2 ^ i) 0
    let done := (t.lanes.filter (·.2.2)).foldl (fun m l => m + 2 ^ l.1) 0
    fit 544 (word8 t.split ++ word8 t.join ++ bytesOfNat 8 mask ++ bytesOfNat 8 done
      ++ (List.range 64).flatMap fun i => word8 (((t.lanes.find? fun l => l.1 == i).map (·.2.1)).getD 0))

/-- The written bits that the image has room for: those of the current frame. -/
def queueBytes (q : Stream) : List Byte :=
  bytesOfNat 4096 q.data.toNat ++ bytesOfNat 64 (bits q.written.toNat (512 * q.frame.toNat) 512)

/-- The vector region (R352). -/
def vectorBytes (x : Slot) (grant : Nat) : List Byte :=
  let vb := grant * 32
  let n := x.lrec.nvreg.toNat
  let regs (v : Vector VReg 32) (n : Nat) : List Byte := (v.toList.take n).flatMap fun r => bytesOfNat vb r.toNat
  fit 0x40 [BitVec.ofNat 8 n, BitVec.ofNat 8 grant, BitVec.ofNat 8 ((if x.threads.isSome then 1 else 0) + (if x.call.isSome then 2 else 0))
      , BitVec.ofNat 8 x.flight.length]
    ++ fit 0x40 (word8 x.chain.c ++ word8 x.chain.cin ++ word8 x.chain.s ++ bytesOfNat 1 x.chain.qsew.toNat)
    ++ fit 0x180 (x.flight.flatMap flightBytes)
    ++ x.streams.toList.flatMap streamBytes
    ++ threadBytes x.threads ++ zeros 32
    ++ bytesOfNat 4096 x.chain.q.toNat ++ bytesOfNat 512 x.chain.h.toNat
    ++ fit (align64 (0x1840 + n * vb) - 0x1840) (regs x.ownV n)
    ++ x.streams.toList.flatMap queueBytes
    ++ (if x.call.isSome then regs x.vregs 8 ++ x.hart.x.toList.flatMap word8 else [])

/-- The matrix region (R397). -/
def State.matrixBytes (s : State) (sl : SlotId) : List Byte :=
  let x := s.slot sl
  let m := x.mat
  fit 0x40 ([BitVec.ofNat 8 x.accCount, x.hart.mvl, BitVec.ofNat 8 ((m.fmt.map Ty.code).getD 0), BitVec.ofNat 8 m.hr]
      ++ m.sr.toList.map (BitVec.ofNat 8) ++ [BitVec.ofNat 8 m.so]
      ++ (match m.last with
          | some (v, a, t) => [BitVec.ofNat 8 v.toNat, BitVec.ofNat 8 (a.toNat + 4), BitVec.ofNat 8 t.code]
          | none => [0, 0, 0])
      ++ zeros 4 ++ fit 8 (x.flight.map fun e => BitVec.ofNat 8 e.so) ++ fit 8 (x.flight.map fun e => BitVec.ofNat 8 e.row))
    ++ bytesOfNat 512 m.s.toNat ++ bytesOfNat 65536 m.w.toNat
    ++ (List.range x.accCount).flatMap fun n => Memory.bytes s.mem (s.accAddr sl (BitVec.ofNat 2 n) 0 0) 65536

/-- Bytes of an entry's room. -/
def State.roomBytes (s : State) (sl : SlotId) (e : Entry) : List Byte :=
  match e.first with
  | some f => Memory.bytes s.mem (scratchPA (slotCore sl) (f * 512)) (e.chunks * 512)
  | none => []

/-- The tile region (R188). Unstarted commands are recorded as not handed over. -/
def State.tileImage (s : State) (sl : SlotId) (va : Word) : TileImage :=
  let x := s.slot sl
  let cmds := (List.range 32).flatMap fun k => (s.cluster k).porter.cmds.filter fun c => c.slot == sl && (c.park.isSome || s.collAsleep k c)
  { ctx := x.ctx, va := va, tiles := x.tiles, nextInst := x.nextInst, entries := x.entries
    rooms := (x.entries.filter fun e => !e.fixed).map fun e => (e.id, s.roomBytes sl e)
    fixed := ((List.range 16).map (BitVec.ofNat 4)).filterMap fun (n : TName) =>
      let r := x.tiles[n.toFin]
      if recFixed r then some (n, Memory.bytes s.mem (scratchPA (slotCore sl) ((x.roomFirst + recChunk r) * 512)) (recChunks r * 512))
      else none
    work := x.work, cmds := cmds, nextId := x.nextId, wait := x.ownWait, met := x.ownMet, carry := x.carry
    frameWait := if x.call.isSome then x.wait else .none, frameMet := x.call.isSome && x.met
    call := x.call.map fun c => (c, x.hart), streams := x.streams.toList
    failed := x.failed, failedIsVector := x.failedIsVector, needTiles := x.needTiles }

/-- Bytes of instances in a tile region. -/
def TileImage.contents (t : TileImage) : Nat := (t.rooms.map (·.2.length)).sum + (t.fixed.map (·.2.length)).sum

/-- Size of a tile region: a multiple of 64, at most 589,824 (R237). -/
def TileImage.size (t : TileImage) : Nat := 64 * (Config.tileRegion t.contents % 9217)

/-- The image's bytes up to its tile region, and its whole size. -/
def State.imageBytes (s : State) (sl : SlotId) (va : Word) : List Byte × Nat :=
  let x := s.slot sl
  let g := s.grant sl
  let v := vectorBytes x g
  let v := fit (align64 v.length) v
  let m := s.matrixBytes sl
  let at_ := 0x400 + v.length + m.length
  let t := (s.tileImage sl va).size
  (scalarBytes x g (at_ + t) [(0x400, v.length), (0x400 + v.length, m.length), (if t = 0 then 0 else at_, t)] ++ v ++ m, at_ + t)

/-! ### Pages of an image -/

/-- The pages of an image through its context (R151): `hbm` for a write. -/
def imagePages (c : Nat) (ctx : BitVec 16) (acc : Access) (hbm : Bool) (va : Word) : Nat → M (List Nat)
  | 0 => return []
  | n + 1 => do
    let l ← translate (.core (BitVec.ofNat 8 c)) false ctx va { acc := acc }
    if hbm && pteMem l.pte ≠ 0 then accessFault .access va l.level acc
    let r ← imagePages c ctx acc hbm (va + 4096) n
    return l.pa :: r

/-- Snoops of the host-owned granules of a range (R412). -/
def snoopRange (src : Source) (inv : Bool) (pa : Nat) : Nat → M Unit
  | 0 => return ()
  | n + 1 => do
    match ← snoopGate src pa inv with
    | some c => trap { cause := c }
    | none => snoopRange src inv (pa + 32) n

/-- Bytes written over pages, granule by granule. -/
def State.putPages (s : State) (src : Source) : List Nat → List Byte → State
  | [], _ => s
  | p :: rest, bs =>
    let here := bs.take 4096
    let s := (List.range ((here.length + 31) / 32)).foldl (fun s i =>
      (s.performWrite src 0 (p + 32 * i) .normal ((here.drop (32 * i)).take 32)).snoopDone (p + 32 * i)) s
    s.putPages src rest (bs.drop 4096)

/-- Write the image of a slot (R187, R237). -/
def writeImage (sl : SlotId) (va : Word) : M Unit := do
  let s ← get
  let c := slotCore sl
  let (bs, size) := s.imageBytes sl va
  let pages ← imagePages c (s.slot sl).ctx .store true va ((size + 4095) / 4096)
  for p in pages do snoopRange (corePort c 0) true p 128
  modify fun s =>
    let t := s.tileImage sl va
    let s := s.putPages (corePort c 0) pages bs
    { s with savedTiles := t :: s.savedTiles.filter fun u => !(u.ctx == t.ctx && u.va == t.va) }

/-- A page whose bytes are to be read: snoops, and no uncorrectable granule. -/
def readPage (src : Source) (p : Nat) : M (List Byte) := do
  snoopRange src false p 128
  let s ← get
  match (List.range 128).find? fun i => s.corrupt (p + 32 * i) with
  | some i =>
    set (s.badRead (p + 32 * i))
    trap { cause := .decode }
  | none => pure ()
  return Memory.bytes s.mem p 4096

def readPages (src : Source) : List Nat → M (List Byte)
  | [] => return []
  | p :: rest => do
    let a ← readPage src p
    let b ← readPages src rest
    return a ++ b

/-- Read n bytes of an image through its context. -/
def readImage (c : Nat) (ctx : BitVec 16) (va : Word) (n : Nat) : M (List Byte) := do
  let pages ← imagePages c ctx .load false va ((n + 4095) / 4096)
  let bs ← readPages (corePort c 0) pages
  return bs.take n

/-! ### Restoring (R189, R237, R239, R353, R397) -/

/-- Reserved bytes and bits of the scalar part, and of the vector and matrix regions, which must be 0 (R237, R351, R352,
R397). -/
def imageReservedOk (bs : List Byte) : Bool :=
  let v := fieldAt bs 0x300 8
  let m := fieldAt bs 0x310 8
  let zero (off n : Nat) : Bool := fieldAt bs off n == 0
  let small (off n lim : Nat) : Bool := decide (fieldAt bs off n < lim)
  let eight (p : Nat → Bool) : Bool := (List.range 8).all p
  zero 0x2A 22 && zero 0x1C8 56 && zero 0x2C0 64 && zero 0x330 208 && zero (v + 4) 60 && zero (v + 0x59) 39
    && zero (v + 0x620) 32 && zero (m + 0xC) 4 && zero (m + 0x20) 32 && small 0x29 1 16
    && eight (fun i => small (0x210 + 24 * i) 8 32) && eight (fun i => zero (v + 0x200 + 64 * i + 0x2C) 20)
    && eight (fun i => small (v + 0x80 + 48 * i + 0x20) 1 64 && small (v + 0x80 + 48 * i + 0x21) 1 32
      && small (v + 0x80 + 48 * i + 0x22) 1 2 && zero (v + 0x80 + 48 * i + 0x23) 13)
    && small (m + 9) 1 32 && small (m + 10) 1 8 && small (m + 11) 1 16

/-- CTXFEAT (R239): major, revision, or a live feature that this device, which has all six, does not know. -/
def imageFeatOk (bs : List Byte) : Bool :=
  fieldAt bs 0 1 == 2 && decide (fieldAt bs 2 2 ≤ 1) && decide (fieldAt bs 0x10 8 < 64)

/-- The hart of an image (R237); a feature that is not live starts at reset (R239). -/
def imageHart (bs : List Byte) : Hart :=
  let w (off : Nat) : Word := BitVec.ofNat 64 (fieldAt bs off 8)
  let c (i : Nat) : Word := w (0x140 + 8 * i)
  let live := fieldAt bs 0x10 8
  let tr := (List.range 8).map fun i => (w (0x200 + 24 * i), w (0x208 + 24 * i), fieldAt bs (0x210 + 24 * i) 8)
  let ranked := (List.range 8).flatMap fun r => tr.filter fun e => e.2.2 % 2 == 1 && e.2.2 / 4 % 8 == r
  { pc := w 0x20 &&& ~~~3
    x := Vector.ofFn fun (i : Fin 32) => if i = 0 then 0 else w (0x40 + 8 * i.val)
    vl := c 0, vtype := (c 1).truncate 6, vstart := (c 2).truncate 12, mvl := (c 3).truncate 8, tshape := (c 4).truncate 48
    fcsr := (c 5).truncate 17 &&& 0x1FEFF, tvec := c 6 &&& ~~~3, xpc := c 7, tcause := (c 8).truncate 8, tval := c 9
    tcoord := c 10, sett := if live / 2 % 2 = 1 then (c 11).truncate 2 else 1, setthit := c 12, settmiss := c 13
    settkill := c 14, instret := c 15, resync := c 16
    tracker := ranked.map fun e => { addr := e.1, last := e.2.1, strike := e.2.2 / 2 % 2 == 1 } }

/-- Vector registers of a region at an offset: saved with `vb` bytes each, kept to VLEN of the new grant (R353). -/
def imageRegs (bs : List Byte) (off vb n newVb : Nat) : Vector VReg 32 :=
  Vector.ofFn fun (i : Fin 32) => if i.val < n then BitVec.ofNat 4096 (fieldAt bs (off + i.val * vb) (Nat.min vb newVb)) else 0

/-- A stream of an image (R352), with what only the tile region keeps. -/
def imageStream (bs : List Byte) (v qoff k : Nat) (kept : Option Stream) : Stream :=
  let f (o n : Nat) : Nat := fieldAt bs (v + 0x200 + 64 * k + o) n
  let st := f 0x29 1
  let q0 : Stream := kept.getD {}
  { q0 with
      bound := st % 2 == 1, reg := BitVec.ofNat 5 (f 0x28 1), base := BitVec.ofNat 64 (f 0 8), estride := BitVec.ofNat 64 (f 8 8)
      count := BitVec.ofNat 64 (f 16 8), eew := BitVec.ofNat 2 (f 24 1), hint := BitVec.ofNat 2 (f 25 1)
      pos := BitVec.ofNat 64 (f 0x20 8), push := st / 2 % 2 == 1, ended := st / 4 % 2 == 1, frame := BitVec.ofNat 3 (f 0x2A 1)
      endCause := BitVec.ofNat 8 (f 0x2B 1), data := BitVec.ofNat 32768 (fieldAt bs qoff 4096)
      written := if kept.isSome then q0.written
        else BitVec.ofNat 4096 (fieldAt bs (qoff + 4096) 64 * 2 ^ (512 * (f 0x2A 1 % 8)))
      held := [] }

/-- Lane threads of an image (R352). -/
def imageThreads (bs : List Byte) (v : Nat) : Option Threads :=
  let f (o : Nat) : Nat := fieldAt bs (v + 0x400 + o) 8
  let lanes := (List.range 64).filter fun i => bits (f 16) i 1 == 1
  match lanes with
  | [] => none
  | i :: _ =>
    if fieldAt bs (v + 2) 1 % 2 = 0 || fieldAt bs 0x10 8 % 2 = 0 then none
    else
      let t : Threads :=
        { split := BitVec.ofNat 64 (f 0), join := BitVec.ofNat 64 (f 8), cur := i, mask := lanes
          lanes := lanes.map fun j => (j, BitVec.ofNat 64 (f (32 + 8 * j)), bits (f 24) j 1 == 1)
          after := if fieldAt bs 0x20 8 = f 0 then none else some (BitVec.ofNat 64 (fieldAt bs 0x20 8)) }
      some (match t.lanes.find? fun l => !l.2.2 with | some l => { t with cur := l.1 } | none => t)

/-- The flight list of an image (R351, R397). -/
def imageFlight (bs : List Byte) (v m : Nat) : List Flight :=
  let sc := fieldAt bs 0x10 8 / 16 % 2 == 1
  ((List.range (Nat.min 8 (fieldAt bs (v + 3) 1))).filterMap fun i =>
    let f (o n : Nat) : Nat := fieldAt bs (v + 0x80 + 48 * i + o) n
    if f 0x22 1 % 2 = 0 then none
    else some { va := BitVec.ofNat 64 (f 0 8), word := BitVec.ofNat 32 (f 8 4), start := BitVec.ofNat 12 (f 12 2)
                vl := BitVec.ofNat 16 (f 14 2), a := BitVec.ofNat 64 (f 16 8), b := BitVec.ofNat 64 (f 24 8)
                vtype := BitVec.ofNat 6 (f 0x20 1), frm := BitVec.ofNat 3 (f 0x21 1), vxrm := BitVec.ofNat 2 (f 0x21 1 / 8)
                so := fieldAt bs (m + 0x10 + i) 1, row := fieldAt bs (m + 0x18 + i) 1 }).filter fun e => sc || !e.is isScvec

/-- The matrix state of an image (R397); held weights whose feature is not live are not latched (R239). -/
def imageMat (bs : List Byte) (m : Nat) : MatState :=
  let b (o : Nat) : Nat := fieldAt bs (m + o) 1
  let live := fieldAt bs 0x10 8
  { fmt := if live / 8 % 2 = 1 then (Ty.ofCode (b 2 % 16)).filter fun t => t != .lg6 || live / 4 % 2 == 1 else none
    hr := b 3, w := BitVec.ofNat 524288 (fieldAt bs (m + 0x240) 65536), s := BitVec.ofNat 4096 (fieldAt bs (m + 0x40) 512)
    sr := Vector.ofFn fun (i : Fin 4) => b (4 + i.val), so := b 8
    last := if b 0xA / 4 % 2 = 1 then (Ty.ofCode (b 0xB % 16)).map fun t => (BitVec.ofNat 5 (b 9), BitVec.ofNat 2 (b 0xA), t)
      else none }

/-- Lane groups that an element count needs under a vtype (R291). -/
def groupsFor (vl : Nat) (v : BitVec 6) : Nat := (vl * vtypeSew v + 256 * vtypeLmul v - 1) / (256 * vtypeLmul v)

/-- The least grant that a resumption takes (R291, R353). -/
def imageGrant (bs : List Byte) (lanesMin : Nat) : Nat :=
  let h := imageHart bs
  (imageFlight bs (fieldAt bs 0x300 8) (fieldAt bs 0x310 8)).foldl (fun g e => Nat.max g (groupsFor e.vl.toNat e.vtype))
    (Nat.max lanesMin (groupsFor h.vl.toNat h.vtype))

/-- Rooms for the saved instances, first fit in instance order, name by name (R189); fixed tiles at their chunks. An instance
for which there is no run stays without a room (log 77). -/
def State.restoreRooms (s : State) (sl : SlotId) (t : TileImage) : State :=
  let order := ((List.range 16).map (BitVec.ofNat 4)).flatMap fun (n : TName) =>
    (List.range 3).flatMap fun i => t.entries.filter fun e => e.name == n && !e.fixed && e.first.isSome && e.inst == i
  let s := s.modSlot sl fun x =>
    { x with entries := t.entries.map fun e =>
        if e.fixed then { e with first := some (x.roomFirst + recChunk x.tiles[e.name.toFin]) } else { e with first := none } }
  let s := order.foldl (fun s e =>
    match (s.slot sl).findRun e.id e.chunks with
    | none => s
    | some f =>
      let bs := ((t.rooms.find? fun r => r.1 == e.id).map (·.2)).getD []
      (s.putRoom (slotCore sl) (f * 512) bs).modSlot sl fun x => x.modEntry e.id fun e => { e with first := some f }) s
  t.fixed.foldl (fun s r =>
    let x := s.slot sl
    s.putRoom (slotCore sl) ((x.roomFirst + recChunk x.tiles[r.1.toFin]) * 512) r.2) s

/-- A command of an image goes on at the Porter that serves the slot's cluster, which has room for it (R189, R240, R263). -/
def State.restoreCmd (s : State) (sl : SlotId) (c : Cmd) : Option State :=
  let home := slotCluster sl
  let c := { c with id := cmdId sl (c.id / 1024), slot := sl, home := BitVec.ofNat 5 home }
  let j := s.porterFor home c.instr
  let k := j.getD home
  if !(s.cluster k).porter.roomFor k (slotCore sl) then none
  else some (if j.isSome || c.stopped.isSome then s.handOver k c else s.fencedCmd c)

/-- The recorded work goes on: parked copies, and collectives that stood at their header, once Porters have room for them;
receives posted anew, each once its channel is free (R187, R189, R285). -/
def State.restoreWork (s : State) (sl : SlotId) (t : TileImage) : Option State :=
  (t.cmds.foldl (fun o c => o.bind fun s => s.restoreCmd sl c) (some s)).map fun s =>
    (s.collWake sl).reopen (slotCore sl)

/-- Accumulators written from an image (R375, R397). -/
def State.restoreAccs (s : State) (sl : SlotId) (bs : List Byte) (m : Nat) : State :=
  (List.range (s.slot sl).accCount).foldl (fun s n =>
    s.setMem (Memory.putAll (Memory.clear s.mem (s.accAddr sl (BitVec.ofNat 2 n) 0 0) 65536) (s.accAddr sl (BitVec.ofNat 2 n) 0 0)
      ((bs.drop (m + 0x10240 + 65536 * n)).take 65536))) s

/-- A slot as an image restores it (R189, R237, R352, R353): `x` holds what the descriptor gives. -/
def imageSlot (x : Slot) (bs : List Byte) (t : Option TileImage) (grant : Nat) : Slot :=
  let v := fieldAt bs 0x300 8
  let m := fieldAt bs 0x310 8
  let n := x.lrec.nvreg.toNat
  let vb := fieldAt bs (v + 1) 1 * 32
  let qs := v + align64 (0x1840 + n * vb)
  let h := imageHart bs
  let own := imageRegs bs (v + 0x1840) vb n (grant * 32)
  let frame := v + align64 (0x1840 + n * vb) + 8 * 4160
  let x : Slot :=
    { x with resumed := true, hart := h, vregs := own, mat := imageMat bs m, threads := imageThreads bs v
             flight := imageFlight bs v m
             needLib := (imageThreads bs v).isSome || t.any fun t => t.work.any TileInstr.isMap
             chain := { c := BitVec.ofNat 64 (fieldAt bs (v + 0x40) 8), cin := BitVec.ofNat 64 (fieldAt bs (v + 0x48) 8)
                        s := BitVec.ofNat 64 (fieldAt bs (v + 0x50) 8), qsew := BitVec.ofNat 2 (fieldAt bs (v + 0x58) 1)
                        q := BitVec.ofNat 32768 (fieldAt bs (v + 0x640) 4096), h := BitVec.ofNat 4096 (fieldAt bs (v + 0x1640) 512) }
             streams := Vector.ofFn fun (k : Fin 8) =>
               imageStream bs v (qs + 4160 * k.val) k.val (t.bind fun t => t.streams[k.val]?) }
  match t with
  | none => x
  | some t =>
    let x : Slot :=
      { x with tiles := t.tiles, nextInst := t.nextInst, work := t.work, nextId := t.nextId, wait := t.wait
               met := fieldAt bs 0x29 1 / 4 % 2 == 1, carry := t.carry, failed := t.failed, failedIsVector := t.failedIsVector
               needTiles := t.needTiles }
    match t.call with
    | none => x
    | some (c, fh) =>
      { x with vregs := imageRegs bs frame vb 8 (grant * 32)
               threads := x.threads.map fun th => { th with after := if fh.pc == th.split then none else some fh.pc }
               hart := { fh with x := Vector.ofFn fun (i : Fin 32) => BitVec.ofNat 64 (fieldAt bs (frame + 8 * vb + 8 * i.val) 8)
                                 fcsr := h.fcsr, mvl := h.mvl, tshape := h.tshape, sett := h.sett, setthit := h.setthit
                                 settmiss := h.settmiss, settkill := h.settkill, instret := h.instret, resync := h.resync
                                 tracker := h.tracker, tvec := h.tvec, xpc := h.xpc, tcause := h.tcause, tval := h.tval
                                 tcoord := h.tcoord }
               wait := t.frameWait, met := t.frameMet
               call := some { c with saved := h, savedV := own, savedNaming := 0xFFFFFFFF, savedNamed := 0, savedWait := t.wait
                                     asleep := false, savedMet := fieldAt bs 0x29 1 / 4 % 2 == 1 } }

end Sys2Proof.Machine
end

