-- ==== Sys2Proof/Machine/Steward.lean ====
section
/-! DEFINITION. The Steward-only instructions (R147 - R151, R447) and what they do: the event queue, block placement,
pre-emption, translation invalidation. -/
namespace Sys2Proof.Machine

/-! ### Addresses of a Steward's instructions (R147) -/

/-- A range lies in the Steward's local memory (R143). -/
def inLocal (k : ClusterId) (a : Word) (n : Nat) : Bool :=
  decide (clusterBase k.toNat ≤ a.toNat) && decide (a.toNat + n ≤ clusterBase k.toNat + 0x3F000)

/-- Outside it, ACCESS to the Steward's own ctl.tvec (R147). -/
def localGate (k : ClusterId) (a : Word) (n : Nat) : M Unit := do
  if !inLocal k a n then trap { cause := .access, va := a, vaValid := true }

def alignGate (a : Word) (n : Nat) : M Unit := do
  if a.toNat % n ≠ 0 then trap { cause := .align, va := a, vaValid := true, tval := a }

/-! ### EVPOP and EVWAIT (R148) -/

/-- The head record of an event queue leaves it. -/
def State.popEvent (s : State) (k : Nat) : State :=
  s.modCluster k fun c => { c with head := c.head + 1, service := s.clock }

/-- EVPOP (R148). -/
def execEvpop (rd rs1 : Reg) : State → Host.Outcome State Fault Refusal :=
  runInstr 4 (do
    let k ← stewardGate
    let s ← get
    let a := s.getX rs1
    localGate k a 32
    if (s.cluster k.toNat).count = 0 then writeX rd 0
    else
      alignGate a 32
      let bs := Memory.bytes s.mem (eventPA k.toNat (s.cluster k.toNat).head) 32
      set ((s.performWrite (stewardSrc k.toNat) 0 a.toNat .normal bs).popEvent k.toNat)
      writeX rd (BitVec.ofNat 64 (fieldAt bs 0 1)))

def State.modSteward (s : State) (k : Nat) (f : Steward → Steward) : State :=
  s.modCluster k fun c => { c with steward := f c.steward }

/-- EVWAIT (R148): asleep with the PC at it until a record is there or the time-out has passed. -/
def execEvwait (rd rs1 : Reg) : State → Host.Outcome State Fault Refusal :=
  runInstr 4 (do
    let k ← stewardGate
    let s ← get
    let c := s.cluster k.toNat
    let deadline := match c.steward.wait with
      | some (_, d) => d
      | none => if s.getX rs1 = 0 then none else some (s.clock + (s.getX rs1).toNat)
    if c.count ≠ 0 || deadline.any (fun d => decide (d ≤ s.clock)) then
      modify fun s => (s.modSteward k.toNat fun w => { w with wait := none }).setX rd (BitVec.ofNat 64 c.count)
    else
      modify fun s => s.modSteward k.toNat fun w => { w with wait := some (rd, deadline) }
      stall)

/-! ### SLOTASSIGN (R149, R150) -/

/-- A SLOTASSIGN descriptor, its reserved bytes apart (R149). -/
structure Assign where
  core : Nat
  slot : Nat
  grant : Nat
  resume : Bool
  recVA : Word
  wid : Word
  image : Word
  room : Nat
  acc : BitVec 4
  deriving DecidableEq, Repr

/-- The block that a descriptor names among those sent to a cluster (log 33: the descriptor itself names no queue). -/
def State.pendingFor (s : State) (k : Nat) (a : Assign) : Option (Pending × Launch) :=
  ((s.cluster k).pending.find? fun p =>
    p.recVA == a.recVA && p.wid == a.wid && (if a.resume then p.image == some a.image else p.image.isNone)).bind fun p =>
      (s.launchOf p.queue p.number).map fun l => (p, l)

/-- Ranges of chunks meet. -/
def runsMeet (a n b m : Nat) : Bool := decide (a < b + m) && decide (b < a + n) && n != 0 && m != 0

/-- Enabled lane groups of a core that no slot owns. -/
def State.freeGroups (s : State) (c : Nat) : Nat :=
  ((s.core c).lanes.toList.filter fun e => e.enabled && e.owner.isNone).length

/-- The resources of a descriptor are free on its core (R37). -/
def State.assignFits (s : State) (sl : SlotId) (a : Assign) (r : LaunchRec) : Bool :=
  let c := slotCore sl
  let others := s.liveSlots c
  decide (a.grant ≤ s.freeGroups c)
    && (r.rooms == 0 || decide (a.room + r.rooms.toNat ≤ 1024))
    && others.all (fun x => !runsMeet a.room r.rooms.toNat x.roomFirst x.roomChunks)
    && others.all (fun x => a.acc &&& x.accMask == 0)
    && decide ((others.map fun x => x.lrec.nvreg.toNat).sum + r.nvreg.toNat ≤ 512)

def popcount4 (v : BitVec 4) : Nat := ((List.range 4).filter fun i => v.getLsbD i).length

/-- ctl.widw of a launch (R33). -/
def widthsWord (r : LaunchRec) : BitVec 48 := BitVec.ofNat 48 (natOfBytes r.widths)

/-- A slot as a descriptor fills it (R149, R150): a new block's registers. A block whose image is placed keeps its aged level,
a new one starts at its record's (R43, R152; log 73); a tiles address of 1 to 31 is read at address 0 (R160; log 75). -/
def freshSlot (s : State) (a : Assign) (p : Pending) (l : Launch) : Slot :=
  let r := l.lrec
  { run := .running, ctx := l.ctx, queue := l.queue, number := l.number, recVA := a.recVA, lrec := r, wid := a.wid
    widw := widthsWord r, roomFirst := a.room, roomChunks := r.rooms.toNat, accMask := a.acc
    level := if p.image.isSome then p.level else r.priority, since := s.clock
    reached := if p.image.isSome || p.level == r.priority then p.reached else s.clock
    hart := { pc := r.entry, x := Vector.ofFn fun (i : Fin 32) => if 10 ≤ i.val ∧ i.val < 18 then r.args.getD (i.val - 10) 0 else 0 }
    needTiles := r.tiles != 0 }

/-- Zeroed accumulators of a new block (R375). -/
def State.zeroAccs (s : State) (sl : SlotId) : State :=
  (List.range (s.slot sl).accCount).foldl (fun s n => s.accZero sl (BitVec.ofNat 2 n)) s

/-- The block stands in its slot, with its lane groups. -/
def State.seat (s : State) (k : Nat) (sl : SlotId) (x : Slot) (a : Assign) (p : Pending) : State :=
  let t : Trap := match p.parked with
    | some (va, acc) => { cause := .access, va := va, vaValid := true, acc := acc }
    | none => { cause := .access }
  let x : Slot := if p.aborted then { x with stop := some t } else x
  (((s.setSlot sl x).takeGroups sl a.grant 16)).modCluster k fun c => { c with pending := eraseFirst (· == p) c.pending }

/-- SLOTASSIGN's effect: its status (R149, R291, R353, R375). `bad`: a reserved byte of the descriptor is nonzero or a
field is out of range. -/
def assign (k : Nat) (a : Assign) (bad : Bool) : M Nat := do
  let s ← get
  let sl := slotOf (k * 8 + a.core) a.slot
  if (s.slot sl).run != .empty then return 1
  if s.coreGone (k * 8 + a.core) then return 2
  match s.pendingFor k a with
  | none => return if s.assignFits sl a { nvreg := 0 } then 4 else 3
  | some (p, l) =>
    let r := l.lrec
    if !s.assignFits sl a r then return 3
    if a.resume then
      let c := slotCore sl
      let read : M (List Byte) := do
        let head ← readImage c l.ctx a.image 4096
        let n := fieldAt head 4 4
        if n < 0x400 || 2 ^ 21 < n || a.image.toNat % 4096 ≠ 0 then trap { cause := .access }
        readImage c l.ctx a.image n
      match ← attempt read with
      | .error .stall => stall
      | .error (.trap _) => return 4
      | .ok bs =>
        if a.grant < imageGrant bs r.lanesMin.toNat then return 3
        if bad || popcount4 a.acc ≠ r.acc.toNat || r.lanesMax.toNat < a.grant || !imageReservedOk bs then return 4
        if !imageFeatOk bs then
          modify fun s => s.modLaunch p.queue p.number fun m => { m with ctxfeat := true }
          return 5
        let s ← get
        let t := (s.savedTiles.find? fun t => t.ctx == l.ctx && t.va == a.image).filter fun _ => fieldAt bs 2 2 == 1
        let x := imageSlot (freshSlot s a p l) bs t a.grant
        let s := s.seat k sl { x with needTiles := (t.map (·.needTiles)).getD false } a p
        let s := s.restoreAccs sl bs (fieldAt bs 0x310 8)
        let some s := (match t with
          | some t => (s.restoreRooms sl t).restoreWork sl t
          | none => some s) | stall
        set ({ s with savedTiles := s.savedTiles.filter fun t => !(t.ctx == l.ctx && t.va == a.image) }.relieve (slotCore sl))
        return 0
    else
      if bad || popcount4 a.acc ≠ r.acc.toNat || a.grant < r.lanesMin.toNat || r.lanesMax.toNat < a.grant then return 4
      set (((s.seat k sl (freshSlot s a p l) a p).zeroAccs sl).relieve (slotCore sl))
      return 0

/-- A descriptor as its 64 bytes give it, and whether a field or reserved byte is wrong (R149). -/
def assignOf (bs : List Byte) : Assign × Bool :=
  let f (o n : Nat) : Nat := fieldAt bs o n
  let a : Assign :=
    { core := f 0 1 % 8, slot := f 0 1 / 8 % 4, grant := f 1 1, resume := f 2 1 % 2 == 1, recVA := BitVec.ofNat 64 (f 8 8)
      wid := BitVec.ofNat 64 (f 0x10 8), image := BitVec.ofNat 64 (f 0x18 8), room := f 0x20 2, acc := BitVec.ofNat 4 (f 0x22 1) }
  (a, decide (32 ≤ f 0 1) || decide (2 ≤ f 2 1) || f 3 5 != 0 || f 0x23 29 != 0 || a.grant == 0 || decide (16 < a.grant)
    || decide (1024 < a.room) || decide (16 ≤ f 0x22 1) || (!a.resume && a.image != 0))

/-- SLOTASSIGN (R149). -/
def execSlotassign (rd rs1 : Reg) : State → Host.Outcome State Fault Refusal :=
  runInstr 4 (do
    let k ← stewardGate
    let s ← get
    let a := s.getX rs1
    localGate k a 64
    alignGate a 64
    let (d, bad) := assignOf (Memory.bytes s.mem a.toNat 64)
    let status ← assign k.toNat d bad
    writeX rd (BitVec.ofNat 64 status))

/-! ### SLOTEVICT (R151, R187) -/

/-- A TSEND that has bound its postings runs to its end (R285). -/
def State.boundSend (s : State) (sl : SlotId) : Bool := (s.cluster (slotCluster sl)).xr.sends.any fun m => m.slot == sl

/-- Open postings of a slot are withdrawn at its eviction (R285). -/
def State.withdraw (s : State) (sl : SlotId) : State :=
  let c := slotCore sl
  if (s.core c).postings.any fun p => p.slot == sl && !p.bound then
    (s.modCore c fun y => { y with postings := y.postings.filter fun p => p.slot != sl || p.bound }).channelFreed c
  else s

/-- Remote reads in flight that no started copy and no bound send needs are cancelled at an eviction (R285). -/
def State.cancelReads (s : State) (sl : SlotId) : State :=
  let k := slotCluster sl
  let kept := ((List.range 32).flatMap fun j => (s.cluster j).porter.cmds.filterMap fun c =>
      if c.slot == sl && c.started then some c.instr.id else none)
    ++ (s.cluster k).xr.sends.filterMap fun m => if m.slot == sl then some m.instr else none
  if (s.cluster k).xr.remote.isEmpty then s
  else
    let stays (r : RemoteReq) : Bool := r.reader != sl || kept.contains r.instr
    s.modCluster k fun c => { c with xr := { c.xr with remote := c.xr.remote.filter stays } }

/-- How many instructions after the PC an eviction may find issued and not completed (R349): a free choice (log 68). -/
def State.flying (s : State) (x : Slot) : Nat :=
  if x.run == .running && x.call.isNone && x.threads.isNone && x.flight.isEmpty && x.rob.isNone && x.stop.isNone
      && x.wait == .none && !x.needTiles && !x.needLib && !x.halted then Config.choice s.free % 9 else 0

/-- Pre-emption of a slot begins: its uncommitted tile instruction is squashed (R187). -/
def State.beginEvict (s : State) (sl : SlotId) (va : Word) : State :=
  let keep := s.boundSend sl
  let s := (s.modSlot sl fun x =>
    let n := s.flying x
    let x := if keep then x else x.squash
    { x with run := .evicting, evict := some va, inFlight := n }).draw
  ((s.withdraw sl).cancelReads sl).endStrips sl

/-- SLOTEVICT's effect and status; a slot of a fenced core stopped at once, with nothing to evict (R496, R498; log 54). -/
def State.evictSlot (s : State) (sl : SlotId) (va : Word) : Nat × State :=
  if s.coreGone (slotCore sl) then (1, s) else
  match (s.slot sl).run with
  | .empty => (1, s)
  | .evicting => (2, s)
  | _ => (0, s.beginEvict sl va)

/-- SLOTEVICT (R151). -/
def execSlotevict (rd rs1 rs2 : Reg) : State → Host.Outcome State Fault Refusal :=
  runInstr 4 (do
    let k ← stewardGate
    let s ← get
    let va := s.getX rs2
    alignGate va 4096
    let w := (s.getX rs1).toNat
    let (status, s) := s.evictSlot (slotOf (k.toNat * 8 + w / 4 % 8) (w % 4)) va
    set s
    writeX rd (BitVec.ofNat 64 status))

/-- What must end before the image is written (R187, R236, R285, R348, R349): a stop that waits to be taken, vector
instructions to be stopped, started copies that neither are parked nor stand at a collective's header, bound sends and
receives, a call that is neither asleep nor parked. -/
def State.draining (s : State) (sl : SlotId) : Bool :=
  let x := s.slot sl
  x.stop.isSome || x.inFlight != 0
  || ((List.range 32).any fun k => (s.cluster k).porter.cmds.any fun c =>
      c.slot == sl && c.started && c.park.isNone && !s.collAsleep k c)
  || s.boundSend sl
  || ((s.core (slotCore sl)).postings.any fun p => p.slot == sl && p.bound)
  || (x.call.isSome && x.wait == .none && x.park.isNone && !x.halted)

/-- A slot whose eviction is abandoned: it tries again what it waited for, so that nothing that came meanwhile is lost
(R155, R239). -/
def Slot.goOn (x : Slot) : Slot :=
  { x with evict := none, run := if x.park.isSome then .parked else .running
           call := x.call.map fun c => { c with asleep := false } }

/-- The TLAUNCH of a block whose own stream is parked at it: the read of its record is to be tried again (R153, R154). -/
def Slot.parkedChild (x : Slot) : Option EventRec :=
  match x.wait with
  | .tlaunch r ra none =>
    if x.call.isNone && x.park.isSome then
      some { typ := 8, queue := x.queue.zeroExtend 8, number := x.number, wid := x.wid, a := r, b := ra.zeroExtend 64 }
    else none
  | _ => none

/-- An evicted block stands at the head of its level again, with its level and its token (R43, R152, R153). -/
def State.evicted (s : State) (sl : SlotId) (va : Word) : State :=
  let x := s.slot sl
  let p : Pending :=
    { queue := x.queue, number := x.number, wid := x.wid, recVA := x.recVA, level := x.level, since := s.clock, reached := x.reached, image := some va
      token := (x.park.map (·.token)).getD 0, ready := x.park.isNone, parked := x.park.map fun p => (p.va, p.acc)
      child := x.parkedChild
      stood := some (slotCore sl % 8, x.roomFirst) }
  s.modCluster (slotCluster sl) fun c => { c with pending := p :: c.pending }

/-- A wait of a block is met now: every write that meets it has come before the cancellation of its watches (R155). -/
def State.waitMet (s : State) (x : Slot) (w : Wait) : Bool :=
  match w with
  | .vwait _ flags => !flags.isEmpty && flags.all fun f => wcondHolds f.2.2.1 (Memory.nat s.mem f.1 f.2.1) f.2.2.2
  | .twait (some id) cs => match x.entry? id with
    | some e => e.ready &&& cs == cs
    | none => true
  | .twait none _ => true
  | _ => false

/-- The end of an eviction (R187, R236, R239): a block that a trap stopped leaves no image; a fault of the image's
writing abandons the eviction. EVICTED is in the queue before the slot is free. -/
def finishEvict (sl : SlotId) : M Unit := do
  let s ← get
  let x := s.slot sl
  let k := slotCluster sl
  match x.evict with
  | none => return ()
  | some va =>
    if !s.eventRoom k then stall
    if x.halted then
      set ((s.pushEvent k (s.slotEvent sl 10 va 1)).freeSlot sl)
    else if s.draining sl then stall
    else
      set (s.modSlot sl fun x =>
        { x with met := s.waitMet x x.wait
                 call := x.call.map fun c => { c with savedMet := s.waitMet x c.savedWait } })
      match ← attempt (writeImage sl va) with
      | .error .stall => stall
      | .error (.trap _) =>
        set ((((s.pushEvent k (s.slotEvent sl 10 va 2)).modSlot sl Slot.goOn).collWake sl).reopen (slotCore sl))
      | .ok _ =>
        modify fun s => ((s.pushEvent k (s.slotEvent sl 10 va 0)).evicted sl va).freeSlot sl

/-- A computation that is no instruction: it ends, or waits and is tried again. -/
def State.tryM (s : State) (m : M Unit) : State :=
  match m.run s with
  | .ok _ s => s
  | .error _ s => s

/-- EVICTION_COMPLETE (R187). -/
def execEvictionComplete (sl : SlotId) : State → Host.Outcome State Fault Refusal :=
  runStep fun s => s.tryM (finishEvict sl)

/-! ### CQPUSH (R151) -/

/-- A count of a summary (R139, log 32): ended, faulted, unrun, rerun. -/
def summaryCount (v : BitVec 512) (i : Nat) : Word := (v >>> (64 * (i + 1))).truncate 64

/-- A launch takes a Steward's summary of its blocks on a cluster in place of the one before it (R139, R151). -/
def Launch.takeSummary (l : Launch) (old new : BitVec 512) (fault : Option (List Byte)) : Launch :=
  let d (i : Nat) : Word := summaryCount new i - summaryCount old i
  { l with ended := l.ended + d 0, faulted := l.faulted + d 1, unrun := l.unrun + d 2, rerun := l.rerun + d 3
           fault := l.fault.or fault }

/-- CQPUSH (R151): the launch takes the summary's counts and its first fault record, which the summary names by its address
in the cluster window; the summary's layout is the model's (log 32). -/
def execCqpush (rd rs1 : Reg) : State → Host.Outcome State Fault Refusal :=
  runInstr 4 (do
    let k ← stewardGate
    let s ← get
    let a := s.getX rs1
    localGate k a 64
    let bs := Memory.bytes s.mem a.toNat 64
    let q : QId := BitVec.ofNat 6 (fieldAt bs 4 1)
    let n := BitVec.ofNat 32 (fieldAt bs 0 4)
    let known := decide (fieldAt bs 4 1 < 64) && s.disp.launches.any fun l =>
      l.queue == q && l.number == n && l.refused.isNone
    if known then
      let v : BitVec 512 := BitVec.ofNat 512 (natOfBytes bs)
      let same (e : ClusterId × BitVec 512) : Bool := e.1 == k && e.2.truncate 40 == (v.truncate 40 : BitVec 40)
      let old := ((s.disp.summaries.find? same).map (·.2)).getD 0
      let at_ := fieldAt bs 0x30 8
      let fault := if clusterBase k.toNat + 0x3F000 ≤ at_ && at_ + 64 ≤ clusterBase k.toNat + 0x40000 then some (Memory.bytes s.mem at_ 64)
        else none
      let take (l : Launch) : Launch := if l.queue == q && l.number == n then l.takeSummary old v fault else l
      set { s with disp := { s.disp with summaries := (k, v) :: s.disp.summaries.filter fun e => !same e
                                         launches := s.disp.launches.map take } }
    writeX rd (if known then 0 else 1))

/-! ### TLBINV (R447) -/

/-- Range of a TLBINV: base and size (R447). -/
def invRange (rs1 rs2 : Word) : Nat × Nat :=
  if rs2.getLsbD 63 then (0, 2 ^ 64)
  else
    let w := Nat.min (Nat.max (bits rs2.toNat 16 6) 12) 57
    (bits rs1.toNat 0 57 / 2 ^ w * 2 ^ w, 2 ^ w)

def rangesMeet (a n b m : Nat) : Bool := decide (a < b + m) && decide (b < a + n)

/-- What a TLBINV of a cluster drops and marks (R447, R370, R249). -/
def State.tlbInv (s : State) (k : Nat) (rs1 rs2 : Word) : State :=
  let ctx : BitVec 16 := rs2.truncate 16
  let r := invRange rs1 rs2
  let keepT (e : TlbEntry) : Bool := e.ctx != ctx || !rangesMeet e.base (2 ^ e.size) r.1 r.2
  let keepW (e : WalkEntry) : Bool :=
    e.ctx != ctx || !rangesMeet (e.key * 2 ^ (12 + 9 * e.level)) (2 ^ (12 + 9 * e.level)) r.1 r.2
  let s := (List.range 8).foldl (fun s i => (s.modCore (k * 8 + i) fun c =>
    { c with itlb := c.itlb.filter keepT, dtlb := c.dtlb.filter keepT
             icache := if rs2.getLsbD 62 then [] else c.icache }).settDrop (k * 8 + i) ctx true) s
  let s := s.modCluster k fun c =>
    { c with stlb := c.stlb.filter keepT
             porter := { c.porter with pbcache := c.porter.pbcache.filter fun e =>
               e.1 != ctx || !rangesMeet e.2.1.toNat 1 r.1 r.2 } }
  let s := (List.range 2).foldl (fun s d =>
    { s with walkCaches := Tbl.set s.walkCaches d ((Tbl.get [] s.walkCaches d).filter keepW)
             walks := Tbl.set s.walks d ((Tbl.get [] s.walks d).map fun w =>
               if w.req.ctx == ctx && rangesMeet w.req.va.toNat 1 r.1 r.2 then { w with marked := true } else w)
             ctxCache := if rs2.getLsbD 63 then Tbl.set s.ctxCache d ((Tbl.get [] s.ctxCache d).filter fun e => e.1 != ctx)
               else s.ctxCache }) s
  (List.range 8).foldl (fun s i => s.sweepDens (k * 8 + i)) s

/-- Accesses of a cluster's blocks translated through what a TLBINV drops that are not performed: writes held at stream queues;
hints of the context, whichever its page (R447, R448). -/
def State.tlbBusy (s : State) (k : Nat) (rs1 rs2 : Word) : Bool :=
  let r := invRange rs1 rs2
  let mine (sl : SlotId) : Bool := slotCluster sl == k && (s.slot sl).ctx == (rs2.truncate 16 : BitVec 16)
  ((List.range 8).any fun i => let c := s.core (k * 8 + i); c.fills.any (fun f => mine f.2.1) || c.hints.any fun h => mine h.2)
    || s.slots.any fun e => e.2.streams.toList.any fun q => q.held.any fun h =>
      h.writer.any mine && rangesMeet h.fail.va.toNat 32 r.1 r.2

/-- TLBINV (R447): it retires once the accesses translated before it are performed. -/
def execTlbinv (rs1 rs2 : Reg) : State → Host.Outcome State Fault Refusal :=
  runInstr 4 (do
    let k ← stewardGate
    modify fun s => s.tlbInv k.toNat (s.getX rs1) (s.getX rs2)
    let s ← get
    if s.tlbBusy k.toNat (s.getX rs1) (s.getX rs2) then stall)

end Sys2Proof.Machine
end

