-- ==== Sys2Proof/Machine/Dispatcher.lean ====
section
/-! DEFINITION. The Dispatcher (R131 - R141, R146, R509 - R511): launch queues, the checks of a record, completion
records, placement, aging, PREEMPT. -/
namespace Sys2Proof.Machine

/-! ### Accesses for a queue (R510) -/

def dispUse (store : Bool) : Use := { acc := if store then .store else .load, cmpOk := !store, who := .dispatcher }

/-- Check a range in a queue's context and settle what comes before the access. -/
def dispLocate (ctx : BitVec 16) (store : Bool) : List (Word × Nat) → M (List Part)
  | [] => return []
  | (va, n) :: rest => do
    let u := dispUse store
    let l ← translate .dispatcher false ctx va u
    dataCheck dispatcherSrc u va l
    if store && n != 32 && (← get).corrupt l.pa then accessFault .decode va 0 u.acc
    if store && isIo l.pa then
      match (← get).ioFault (cutWords 5 l.pa n) with
      | some c => accessFault c va 0 u.acc
      | none => pure ()
    let ps ← dispLocate ctx store rest
    return ⟨va, l, n⟩ :: ps

/-- Bytes of a queue's context. -/
def dispRead (ctx : BitVec 16) (va : Word) (n : Nat) : M (List Byte) :=
  agentRead .dispatcher dispatcherSrc ctx (dispUse false) .normal (cutGranules 6 va n)

/-- Write checked parts. -/
def State.dispPut (s : State) : List Part → List Byte → State
  | [], _ => s
  | p :: rest, bs =>
    let s := if isIo p.loc.pa then s.regWrite dispatcherSrc p.loc.pa (bs.take p.len) else match regionOf p.loc.pa with
      | .core c off => match winPart off with
        | .stream n k o => s.streamIn (slotOf c n) k o (bs.take p.len) { writer := none, fail := { iva := 0, tile := none, elem := none, va := p.va } }
        | _ => s.performWrite dispatcherSrc p.loc.home p.loc.pa .normal (bs.take p.len)
      | _ => (s.performWrite dispatcherSrc p.loc.home p.loc.pa .normal (bs.take p.len)).snoopDone p.loc.pa
    s.dispPut rest (bs.drop p.len)

/-- PA of a queue's descriptor in the device window (R131). -/
def queueDesc (q : QId) : Nat := Config.deviceWin + 0x10000 + q.toNat * 0x40

/-- The enable bit of a descriptor as it reads. -/
def State.setEnableBit (s : State) (q : QId) (on : Bool) : State :=
  let a := queueDesc q + 0x0C
  let b := Memory.get s.mem a
  s.setMem (Memory.put s.mem a (if on then b ||| 1 else b &&& 0xFE))

/-- The Dispatcher stops taking a queue's records. -/
def State.closeQueue (s : State) (q : QId) (status : BitVec 8) : State :=
  ((s.setEnableBit q false).modQueue q fun x => { x with enabled := false, status := status, park := none }).dropWatches
    (.queue q)

/-- A fault of an access for a queue (R510): a page fault parks it, any other disables it with QFAULT. -/
def State.queueFault (s : State) (q : QId) (t : Trap) : State :=
  if t.cause.delivery = .park then
    let (tok, s) := s.takeToken
    let f : FaultRec := { cause := t.cause.code, va := t.va, vaValid := true, level := BitVec.ofNat 8 t.level
                          core := 0xFF, slot := 0xFF, token := tok }
    (s.postFault f (s.queue q).ctx t.acc 3).modQueue q fun x => { x with park := some (tok, t.va, t.acc) }
  else (s.closeQueue q 3).logHealth 0 12 (q.zeroExtend 16) 0

/-- Work for a queue: all of its accesses, or none of their effects. -/
def State.queueWork (s : State) (q : QId) (m : M Unit) : State :=
  match m.run s with
  | .ok _ s => s
  | .error .stall s => s
  | .error (.trap t) s => s.queueFault q t

/-! ### Enable and disable (R131, R132) -/

/-- The descriptor's fields are in range and its reserved bits 0 (R131). -/
def descOk (d : List Byte) : Bool :=
  let f (o n : Nat) : Nat := fieldAt d o n
  f 0 8 % 128 == 0 && decide (4 ≤ f 8 1) && decide (f 8 1 ≤ 16) && decide (f 9 1 < 4) && decide (f 0x0C 4 < 4)
    && f 0x10 8 % 8 == 0 && f 0x18 8 % 8 == 0 && f 0x20 8 % 128 == 0 && decide (4 ≤ f 0x28 1) && decide (f 0x28 1 ≤ 16)
    && f 0x29 7 == 0

/-- A queue as its descriptor gives it, counts 0. -/
def queueOf (d : List Byte) : Queue :=
  let w (o : Nat) : Word := BitVec.ofNat 64 (fieldAt d o 8)
  { enabled := true, ring := fieldAt d 0 8, log2 := fieldAt d 8 1, priority := BitVec.ofNat 2 (fieldAt d 9 1)
    ctx := BitVec.ofNat 16 (fieldAt d 0x0A 2), hostTail := fieldAt d 0x0C 4 / 2 % 2 == 1, tailVA := w 0x10, headVA := w 0x18
    cring := fieldAt d 0x20 8, clog2 := fieldAt d 0x28 1, ctailVA := w 0x30, cheadVA := w 0x38, setup := true }

/-- The words that an enable sets to 0: the head word and the completion tail word (R132). -/
def startQueue (q : QId) : M Unit := do
  let x := (← get).queue q
  let hs ← dispLocate x.ctx true (cutGranules 2 x.headVA 8)
  let cs ← dispLocate x.ctx true (cutGranules 2 x.ctailVA 8)
  modify fun s => ((s.dispPut hs (zeros 8)).dispPut cs (zeros 8)).modQueue q fun x => { x with setup := false }

/-- Finish what an enable began, where a park stopped it. -/
def finishSetup (q : QId) : M Unit := do
  if ((← get).queue q).setup then startQueue q

/-- The tail word is read, and its granule watched (R133). -/
def readTail (q : QId) : M Unit := do
  finishSetup q
  let x := (← get).queue q
  let ps ← dispLocate x.ctx false (cutGranules 2 x.tailVA 8)
  let bs ← dispRead x.ctx x.tailVA 8
  modify fun s =>
    let s := ps.foldl (fun s p => s.addWatch (.queue q) p.loc.home p.loc.pa) s
    s.modQueue q fun x => { x with tail := BitVec.ofNat 64 (natOfBytes bs), reread := false }

/-- The tail word is read for a notice; a read that must wait is made again later. -/
def State.tailWork (s : State) (q : QId) : State :=
  match (readTail q).run s with
  | .error .stall s => s.modQueue q fun x => { x with reread := true }
  | _ => s.queueWork q (readTail q)

/-- LAUNCH_QUEUE_ENABLE (R131, R500). -/
def State.enableQueue (s : State) (q : QId) : State :=
  let d := Memory.bytes s.mem (queueDesc q) 64
  if (s.queue q).enabled then s
  else if s.health.boot ≠ 1 then s
  else if !s.health.jValid then s.closeQueue q 2
  else if !descOk d then s.closeQueue q 1
  else
    let s := (s.setEnableBit q true).modQueue q fun _ => queueOf d
    s.tailWork q

def execLaunchQueueEnable (q : QId) : State → Host.Outcome State Fault Refusal :=
  runStep fun s => s.enableQueue q

/-- LAUNCH_QUEUE_DISABLE (R131). -/
def execLaunchQueueDisable (q : QId) : State → Host.Outcome State Fault Refusal :=
  runStep fun s => s.closeQueue q 0

/-- The queue can be served: enabled, not parked, its words at 0. -/
def Queue.live (x : Queue) : Bool := x.enabled && x.park.isNone

/-! ### Tail and records (R132 - R134) -/

/-- Records published and not consumed (R132). The tail is kept as it was read, and a tail beyond head + entries is cut at each
consumption, against the head as it then stands (log 69). -/
def Queue.pending (x : Queue) : Nat :=
  let d := x.tail - x.head
  if d.getLsbD 63 then 0 else Nat.min d.toNat (2 ^ x.log2)

/-- TAIL_WORD_NOTICE (R133). -/
def State.tailNotice (s : State) (q : QId) : State := if (s.queue q).live then s.tailWork q else s
def execTailWordNotice (q : QId) : State → Host.Outcome State Fault Refusal :=
  runStep fun s => s.tailNotice q

/-- A launch record as its 128 bytes give it (R135). -/
def recOf (d : List Byte) : LaunchRec :=
  let f (o n : Nat) : Nat := fieldAt d o n
  let a := f 0x38 8
  { major := BitVec.ofNat 8 (f 8 1), minor := BitVec.ofNat 8 (f 9 1), helm := bits (f 0x0A 1) 0 1 == 1
    restartable := bits (f 0x0A 1) 1 1 == 1, child := bits (f 0x0A 1) 2 1 == 1, priority := BitVec.ofNat 2 (f 0x0B 1)
    home := bits (f 0x0B 1) 2 1 == 1, widths := (d.drop 0x0C).take 6, lanesMin := BitVec.ofNat 8 (f 0x12 1)
    lanesMax := BitVec.ofNat 8 (f 0x13 1), nvreg := BitVec.ofNat 8 (f 0x14 1), acc := BitVec.ofNat 8 (f 0x15 1)
    rooms := BitVec.ofNat 16 (f 0x16 2), entry := BitVec.ofNat 64 (f 0x18 8), tiles := BitVec.ofNat 64 (f 0x20 8)
    exslots := BitVec.ofNat 64 (f 0x28 8), porterfw := BitVec.ofNat 16 (f 0x30 2), barriers := BitVec.ofNat 16 (f 0x32 2)
    after := if bits a 63 1 == 1 then some (BitVec.ofNat 6 (bits a 32 6), BitVec.ofNat 32 a) else none
    args := (List.range 8).map fun i => BitVec.ofNat 64 (f (0x40 + 8 * i) 8) }

def wideSum (l : List (BitVec 8)) : Nat := (l.map (·.toNat)).sum
def LaunchRec.w (r : LaunchRec) (i : Nat) : Nat := (r.widths.getD i 0).toNat
/-- Blocks of a launch (R32). -/
def LaunchRec.blocks (r : LaunchRec) : Nat := 2 ^ (r.w 1 + r.w 2 + r.w 3 + r.w 4 + r.w 5)
def popcount (w n : Nat) : Nat := ((List.range n).filter fun i => w.testBit i).length

/-- Reason RECORD (R135, R137). -/
def recordOk (d : List Byte) (child : Bool) : Bool :=
  let f (o n : Nat) : Nat := fieldAt d o n
  let r := recOf d
  f 0 8 == 0 && decide (f 0x0A 1 < 8) && (child || !r.child) && decide (f 0x0B 1 < 8) && f 0x34 4 == 0
    && bits (f 0x38 8) 38 25 == 0 && r.lanesMin != 0 && decide (r.lanesMin.toNat ≤ r.lanesMax.toNat)
    && decide (r.lanesMax.toNat ≤ 16) && (r.nvreg == 8 || r.nvreg == 16 || r.nvreg == 24 || r.nvreg == 32)
    && decide (r.acc.toNat ≤ 4) && decide (r.rooms.toNat ≤ 1024) && r.entry.toNat % 4 == 0
    && decide (popcount r.exslots.toNat 64 ≤ 56)

/-- Reason WIDTHS (R32, R36). -/
def widthsOk (grade : Bool) (r : LaunchRec) : Bool :=
  decide (wideSum r.widths ≤ 64) && (r.w 2 == 0 || decide (r.w 1 ≤ 2))
    && (r.w 3 == 0 || decide (2 ^ (r.w 1 + r.w 2) ≤ (if grade then 24 else 32)))

/-- Blocks that one core could hold at once (R509). -/
def coreCap (r : LaunchRec) : Nat :=
  let a := Nat.min 4 (16 / r.lanesMin.toNat)
  let a := if r.rooms = 0 then a else Nat.min a (1024 / r.rooms.toNat)
  if r.acc = 0 then a else Nat.min a (4 / r.acc.toNat)

/-- Reason RESOURCE (R509). -/
def resourceOk (grade : Bool) (r : LaunchRec) : Bool :=
  let cap := coreCap r
  let g := if r.w 2 = 0 then 1 else 2 ^ r.w 1
  let units := if r.w 2 = 0 then 2 ^ r.w 1 else 2 ^ r.w 2
  cap != 0 && decide (g ≤ cap) && (r.w 3 == 0 || decide (units ≤ (if grade then 6 else 8) * (cap / g)))

/-- How far a number lies before another, as acceptance numbers run (R138). -/
def numberBack (c n : BitVec 32) : Nat := (c.toNat + (2 ^ 32 - 1) - n.toNat) % (2 ^ 32 - 1)

/-- The launch that after names has been consumed (R138). -/
def State.afterOk (s : State) (q : QId) (n : BitVec 32) : Bool :=
  let x := s.queue q
  let d := numberBack x.number n
  x.enabled && n != 0 && x.number != 0 && decide (d < 2 ^ 31) && decide (d + 1 ≤ x.consumed)

/-- The checks of R137 in order: the first reason that applies. `depth`: levels below a host-queued launch. -/
def State.refusal (s : State) (d : List Byte) (child : Bool) (depth : Nat) : Option (BitVec 8) :=
  let r := recOf d
  if !recordOk d child then some 1
  else if r.major ≠ 2 ∨ r.minor ≠ 0 then some 2
  else if !widthsOk s.grade640S r then some 3
  else if !resourceOk s.grade640S r then some 4
  else if 4 < depth then some 5
  else match r.after with
    | some (q, n) => if s.afterOk q n then none else some 6
    | none => none

/-- The next acceptance number of a queue (R136). -/
def Queue.next (x : Queue) : BitVec 32 := if x.number = 0xFFFFFFFF then 1 else x.number + 1

/-- A status word (R136). -/
def statusWord (n : BitVec 32) (st : Nat) (reason : BitVec 8) : Nat := n.toNat + st * 2 ^ 32 + reason.toNat * 2 ^ 40

/-- A launch of a queue up to and including a number has no completion record yet (R138). -/
def State.openUpTo (s : State) (q : QId) (n : BitVec 32) : Bool :=
  s.disp.launches.any fun l => l.queue == q && decide (numberBack n l.number < 2 ^ 31)

/-- A consumed record joins the launches of its queue. -/
def State.accept (s : State) (q : QId) (recVA : Word) (ctx : BitVec 16) (r : LaunchRec) (no : Option (BitVec 8))
    (parent : Option (QId × BitVec 32)) (depth : Nat) : State :=
  let n := (s.queue q).next
  let waits := match r.after with
    | some a => if no.isNone && s.openUpTo a.1 a.2 then some a else none
    | none => none
  let l : Launch := { queue := q, number := n, recVA := recVA, ctx := ctx, lrec := r, refused := no, ready := waits.isNone
                      waits := waits, level := r.priority, since := s.clock, parent := parent, depth := depth }
  let s := s.modQueue q fun x => { x with number := n, consumed := x.consumed + 1 }
  { s with disp := { s.disp with launches := s.disp.launches ++ [l] } }

/-- One record is checked, its status word written, and the head advanced (R134, R137). It waits while an unfinished
launch of the queue has the number it would take (log 47). -/
def consume (q : QId) : M Unit := do
  finishSetup q
  let s ← get
  let x := s.queue q
  if (s.launchOf q x.next).isSome then stall
  let va := BitVec.ofNat 64 (x.ring + x.head.toNat % 2 ^ x.log2 * 128)
  let d ← dispRead x.ctx va 128
  let no := (← get).refusal d false 0
  let sp ← dispLocate x.ctx true (cutGranules 2 va 8)
  let hp ← dispLocate x.ctx true (cutGranules 2 x.headVA 8)
  modify fun s =>
    let w := match no with | none => statusWord x.next 1 0 | some k => statusWord x.next 2 k
    let s := (s.dispPut sp (bytesOfNat 8 w)).dispPut hp (bytesOfNat 8 (x.head.toNat + 1))
    (s.accept q va x.ctx (recOf d) no none 0).modQueue q fun x => { x with head := x.head + 1 }

/-- Round robin: the first of the queues that comes after the one served last. -/
def afterQ (last : QId) (qs : List QId) : Option QId :=
  match qs.find? (fun q => last < q) with
  | some q => some q
  | none => qs.head?

/-- The queue whose record is taken next (R134). -/
def State.nextQueue (s : State) : Option QId :=
  let ready := ((List.range 64).map (BitVec.ofNat 6)).filter fun q =>
    !s.health.busy && (s.queue q).live && (s.queue q).pending != 0
  [3, 2, 1, 0].findSome? fun p =>
    afterQ (s.disp.rr[p]!) (ready.filter fun q => (s.queue q).priority.toNat == p)

def State.consumeNext (s : State) (q : QId) : State :=
  if s.nextQueue = some q then
    let p := (s.queue q).priority
    let s := { s with disp := { s.disp with rr := s.disp.rr.set p.toFin q } }
    s.queueWork q (consume q)
  else s

/-- LAUNCH_RECORD_CONSUME (R134): only the queue whose turn it is. -/
def execLaunchRecordConsume (q : QId) : State → Host.Outcome State Fault Refusal :=
  runStep fun s => s.consumeNext q

/-! ### Completion (R138 - R140) -/

/-- Every block of a launch has its outcome, and its children are complete (R139, R154, R499). -/
def Launch.finished (l : Launch) : Bool :=
  l.openChildren == 0 && (l.refused.isSome || l.ended.toNat + l.faulted.toNat + l.unrun.toNat == l.lrec.blocks)

/-- The host-queued launch that a launch descends from. -/
def State.rootOf (s : State) : Nat → Launch → Launch
  | 0, l => l
  | f + 1, l =>
    match l.parent.bind fun p => s.launchOf p.1 p.2 with
    | some p => s.rootOf f p
    | none => l

/-- One launch is an ancestor of another. -/
def State.isAncestor (s : State) (a : Launch) : Nat → Launch → Bool
  | 0, _ => false
  | f + 1, l =>
    match l.parent.bind fun p => s.launchOf p.1 p.2 with
    | some p => (p.queue == a.queue && p.number == a.number) || s.isAncestor a f p
    | none => false

def State.placeInOrder (s : State) (l : Launch) : Nat :=
  s.disp.launches.findIdx fun m => m.queue == l.queue && m.number == l.number

/-- `m` has its completion record written before `l` (R139; children before their parent, R154: log 47). -/
def State.before (s : State) (m l : Launch) : Bool :=
  let rm := s.rootOf 6 m
  let rl := s.rootOf 6 l
  m.queue == l.queue && !(m.number == l.number) &&
    (if rm.number == rl.number then !s.isAncestor m 6 l && (s.isAncestor l 6 m || decide (s.placeInOrder m < s.placeInOrder l))
     else decide (s.placeInOrder rm < s.placeInOrder rl))

/-- The launch of a queue whose completion record can be written now. -/
def State.completable (s : State) (q : QId) : Option Launch :=
  s.disp.launches.find? fun l => l.queue == q && l.finished && s.disp.launches.all fun m => !s.before m l

def Launch.status (l : Launch) : Nat :=
  if l.refused.isSome then 2 else if l.fencedpart then 4 else if l.ctxfeat then 3 else if l.faulted ≠ 0 then 1 else 0

/-- The 128 bytes of a completion record (R139). -/
def Launch.record (l : Launch) : List Byte :=
  bytesOfNat 4 l.number.toNat ++ [l.queue.zeroExtend 8, BitVec.ofNat 8 l.status, l.refused.getD 0, 0]
    ++ word8 l.ended ++ word8 l.faulted ++ word8 l.unrun ++ word8 l.rerun ++ word8 l.children ++ zeros 16
    ++ fit 64 (l.fault.getD [])

/-- A launch whose dependence is met is ready (R138). -/
def State.release (s : State) (m : Launch) : Launch :=
  match m.waits with
  | some a => if s.openUpTo a.1 a.2 then m else { m with waits := none, ready := true, since := s.clock }
  | none => m

/-- A completed launch leaves: its dependents are ready once no earlier number of its queue is open (R138), its parent counts
it (R139, R154), the helm passes on (R466). -/
def State.closeLaunch (s : State) (l : Launch) : State :=
  let s := s.helmDone (l.queue, l.number)
  let s := { s with disp := { s.disp with launches := s.disp.launches.filter fun m => !sameLaunch l.queue l.number m } }
  let s := { s with disp := { s.disp with
    launches := s.disp.launches.map s.release
    summaries := s.disp.summaries.filter fun e =>
      !(e.2.truncate 32 == l.number && (e.2 >>> 32).truncate 6 == l.queue)
    preempts := s.disp.preempts.filter fun e => !(e.1 == l.queue && e.2.1 == l.number) } }
  match l.parent with
  | some p => s.modLaunch p.1 p.2 fun m => { m with children := m.children + 1, openChildren := m.openChildren - 1 }
  | none => s

/-- Completion records in a queue's ring that the host has not taken. -/
def Queue.completions (x : Queue) : Nat := (x.ctail - x.chead).toNat

/-- Write one completion record, its tail, and the status word (R136, R139, R140). -/
def complete (q : QId) (l : Launch) : M Unit := do
  finishSetup q
  let x := (← get).queue q
  if 2 ^ x.clog2 ≤ x.completions then
    let bs ← dispRead x.ctx x.cheadVA 8
    modify fun s => s.modQueue q fun x => { x with chead := BitVec.ofNat 64 (natOfBytes bs) }
  let x := (← get).queue q
  if 2 ^ x.clog2 ≤ x.completions then stall
  let va := BitVec.ofNat 64 (x.cring + x.ctail.toNat % 2 ^ x.clog2 * 128)
  let rp ← dispLocate x.ctx true (cutGranules 6 va 128)
  let tp ← dispLocate x.ctx true (cutGranules 2 x.ctailVA 8)
  let sp ← if l.refused.isSome then pure [] else dispLocate l.ctx true (cutGranules 2 l.recVA 8)
  modify fun s =>
    let s := (s.dispPut rp l.record).dispPut tp (bytesOfNat 8 (x.ctail.toNat + 1))
    let s := s.dispPut sp (bytesOfNat 8 (statusWord l.number 3 0))
    (s.modQueue q fun x => { x with ctail := x.ctail + 1 }).closeLaunch l

def State.completeNext (s : State) (q : QId) : State :=
  if (s.queue q).live && !s.health.busy then
    match s.completable q with
    | some l => s.queueWork q (complete q l)
    | none => s
  else s

/-- LAUNCH_COMPLETION (R139). -/
def execLaunchCompletion (q : QId) : State → Host.Outcome State Fault Refusal :=
  runStep fun s => s.completeNext q

/-- COMPLETION_HEAD_ADVANCE (R140): held completion records are written in order. -/
def execCompletionHeadAdvance (q : QId) (head : Word) : State → Host.Outcome State Fault Refusal :=
  runStep fun s =>
    let s := s.modQueue q fun x => { x with chead := head }
    (List.range s.disp.launches.length).foldl (fun s _ => s.completeNext q) s

/-! ### Placement units (R35, R141) -/

/-- Blocks that are placed together: a cluster group, else a core group, else one. -/
def LaunchRec.unitSize (r : LaunchRec) : Nat :=
  if r.w 3 ≠ 0 then 2 ^ (r.w 1 + r.w 2) else if r.w 2 ≠ 0 then 2 ^ r.w 1 else 1
/-- Blocks that share a core. -/
def LaunchRec.coreSize (r : LaunchRec) : Nat := if r.w 2 ≠ 0 then 2 ^ r.w 1 else 1
/-- Index of a block, from its work identifier (R32). -/
def LaunchRec.index (r : LaunchRec) (wid : Word) : Nat := wid.toNat / 2 ^ r.w 0
def LaunchRec.wid (r : LaunchRec) (i : Nat) : Word := BitVec.ofNat 64 (i * 2 ^ r.w 0)
/-- Dies a block may go to, in order of preference (R35, R141): 0 E, 1 W. -/
def LaunchRec.dies (r : LaunchRec) (i : Nat) : List Nat :=
  let home := if r.home then 1 else 0
  if r.w 4 = 0 then [home, 1 - home]
  else if bits i (r.w 1 + r.w 2 + r.w 3) (r.w 4) % 2 = 0 then [home] else [1 - home]

/-- Blocks of a launch that stand pending on Stewards and have never been placed. -/
def State.unplaced (s : State) (l : Launch) : List Word :=
  (List.range 32).flatMap fun k => (s.cluster k).pending.filterMap fun p =>
    if p.queue == l.queue && p.number == l.number && p.image.isNone then some p.wid else none

/-- Launch groups in ascending order (R35): every block of the groups below a block has been placed. -/
def State.groupTurn (s : State) (l : Launch) (i : Nat) : Bool :=
  let r := l.lrec
  let g (j : Nat) : Nat := j / 2 ^ (r.w 1 + r.w 2 + r.w 3 + r.w 4)
  r.w 5 == 0 || (((s.unplaced l) ++ l.back).all fun w => decide (g i ≤ g (r.index w)))

/-- The next unit of a launch to send: blocks that came back, then the next in ascending work identifier. -/
def State.nextUnit (s : State) (l : Launch) : Option (List Word) :=
  let r := l.lrec
  if l.refused.isSome || !l.ready || s.health.busy then none
  else match l.back with
    | w :: _ => some (l.back.filter fun v => r.index v / r.unitSize == r.index w / r.unitSize)
    | [] =>
      if r.blocks ≤ l.sent then none
      else if s.groupTurn l l.sent then some ((List.range r.unitSize).map fun j => r.wid (l.sent + j)) else none

/-! ### Resources of a core (R37) -/

/-- What is free on a core. -/
structure CoreRes where
  core : Nat
  slots : List Nat
  groups : Nat
  rooms : List (Nat × Nat)
  acc : BitVec 4
  deriving DecidableEq, Repr

/-- Where a block may go on a core: slot, grant, first room chunk, accumulator mask. -/
structure Seat where
  core : Nat
  slot : Nat
  grant : Nat
  room : Nat
  acc : BitVec 4
  deriving DecidableEq, Repr

/-- What is free on a core now. -/
def State.coreRes (s : State) (k c : Nat) : CoreRes :=
  let n := k * 8 + c
  let live := s.liveSlots n
  { core := c, slots := (List.range 4).filter fun i => (s.slot (slotOf n i)).run == .empty, groups := s.freeGroups n
    rooms := live.map fun x => (x.roomFirst, x.roomChunks), acc := live.foldl (fun a x => a ||| x.accMask) 0 }

def State.clusterRes (s : State) (k : Nat) : List CoreRes :=
  ((List.range 8).filter fun c => !s.coreGone (k * 8 + c)).map (s.coreRes k)

/-- The lowest run of n chunks that meets no run in use. -/
def freeRun (used : List (Nat × Nat)) (n : Nat) : Option Nat :=
  if n = 0 then some 0
  else ((sortBy (fun a b => decide (a ≤ b)) (0 :: used.map fun u => u.1 + u.2)).find? fun f =>
    decide (f + n ≤ 1024) && used.all fun u => !runsMeet f n u.1 u.2)

/-- The lowest n accumulators that are free. -/
def freeAccs (used : BitVec 4) (n : Nat) : Option (BitVec 4) :=
  let free := (List.range 4).filter fun i => !used.getLsbD i
  if free.length < n then none else some ((free.take n).foldl (fun m i => m ||| (1#4 <<< i)) 0)

/-- Take the resources of one block (R37); with `full`, as many groups up to the record's maximum as leave the minimum
for `more` further blocks (R142). -/
def CoreRes.take (c : CoreRes) (r : LaunchRec) (full : Bool) (more : Nat) : Option (Seat × CoreRes) :=
  let lo := r.lanesMin.toNat
  let grant := if full then Nat.max lo (Nat.min r.lanesMax.toNat (c.groups - more * lo)) else lo
  match c.slots, freeRun c.rooms r.rooms.toNat, freeAccs c.acc r.acc.toNat with
  | sl :: rest, some f, some a =>
    if c.groups < grant then none
    else some (⟨c.core, sl, grant, f, a⟩, { c with slots := rest, groups := c.groups - grant, acc := c.acc ||| a
                                                   rooms := if r.rooms = 0 then c.rooms else (f, r.rooms.toNat) :: c.rooms })
  | _, _, _ => none

/-- Take the resources of n blocks on one core. -/
def CoreRes.takeN (r : LaunchRec) (full : Bool) : Nat → CoreRes → Option (List Seat × CoreRes)
  | 0, c => some ([], c)
  | n + 1, c => do
    let (a, c) ← c.take r full n
    let (as, c) ← CoreRes.takeN r full n c
    return (a :: as, c)

/-- The core with the most free lane groups, the lowest-numbered on a tie, that takes n blocks (R142). -/
def bestCore (r : LaunchRec) (full : Bool) (n : Nat) (cs : List CoreRes) : Option (List Seat × CoreRes) :=
  cs.foldl (fun best c =>
    match CoreRes.takeN r full n c, best with
    | none, b => b
    | some x, none => some x
    | some x, some b =>
      let g (d : CoreRes) : Nat := ((cs.find? fun e => e.core == d.core).map (·.groups)).getD 0
      if g b.2 < g x.2 then some x else some b) none

/-- The blocks of a unit by core group, in ascending work identifier (R35). -/
def coreGroups (r : LaunchRec) (u : List Word) : List (Nat × List Word) :=
  let u := sortBy (fun a b => decide (r.index a ≤ r.index b)) u
  ((u.map fun w => r.index w / r.coreSize).eraseDups).map fun g => (g, u.filter fun w => r.index w / r.coreSize == g)

/-- Seats for core groups one after another, each on one core: on the core where `near` says that blocks of it stand. -/
def seatGroups (r : LaunchRec) (full : Bool) (near : Nat → Option Nat) :
    List (Nat × List Word) → List CoreRes → Option (List (Word × Seat) × List CoreRes)
  | [], cs => some ([], cs)
  | (g, ws) :: rest, cs => do
    let here := match near g with | some c => cs.filter fun d => d.core == c | none => cs
    let (a, c) ← bestCore r full ws.length here
    let (as, cs) ← seatGroups r full near rest (cs.map fun d => if d.core == c.core then c else d)
    return (ws.zip a ++ as, cs)

/-- Seats for a unit of a launch: with large grants if they all fit so, else with minimum grants. -/
def seatUnit (r : LaunchRec) (near : Nat → Option Nat) (u : List Word) (cs : List CoreRes) :
    Option (List (Word × Seat) × List CoreRes) :=
  (seatGroups r true near (coreGroups r u) cs).or (seatGroups r false near (coreGroups r u) cs)

/-- No block of a core group stands on a core. -/
def nowhere (_ : Nat) : Option Nat := none

/-- Pending blocks of one placement unit, from the first of them (R35, R142). -/
def unitMates (r : LaunchRec) (p : Pending) (ps : List Pending) : List Pending :=
  if p.image.isSome then [p]
  else ps.filter fun o => o.queue == p.queue && o.number == p.number && o.image.isNone
    && r.index o.wid / r.unitSize == r.index p.wid / r.unitSize

/-- What is free on a cluster once the blocks sent to it have their seats. -/
def State.resAfter (s : State) (k : Nat) : Nat → List Pending → List CoreRes → List CoreRes
  | 0, _, cs => cs
  | _, [], cs => cs
  | f + 1, p :: ps, cs =>
    match s.launchOf p.queue p.number with
    | none => s.resAfter k f ps cs
    | some l =>
      let u := unitMates l.lrec p (p :: ps)
      let rest := ps.filter fun o => !u.contains o
      match seatUnit l.lrec nowhere (u.map (·.wid)) cs with
      | some (_, cs) => s.resAfter k f rest cs
      | none => s.resAfter k f rest cs

/-- Level of a block that waits at the Dispatcher, since when it waits there, and when it came to it (R43). -/
def Launch.age (l : Launch) (w : Word) : BitVec 2 × Nat × Nat :=
  match l.backAge.find? fun e => e.1 == w with
  | some e => e.2
  | none => (l.level, l.since, l.since)

/-- The same of a unit: that of its first block. -/
def Launch.unitAge (l : Launch) (u : List Word) : BitVec 2 × Nat × Nat := l.age (u.headD 0)

/-- What the Dispatcher counts as free on a cluster for a unit of a level: the seats of new blocks that it has sent there, and of
evicted blocks that the Steward would place before the unit, are taken (log 70). -/
def State.freeOn (s : State) (k : Nat) (level : BitVec 2) : List CoreRes :=
  let ps := (s.cluster k).pending.filter fun p => p.image.isNone || (p.ready && decide (level ≤ p.level))
  s.resAfter k ps.length ps (s.clusterRes k)

/-! ### Choosing a cluster (R141, R146, R268, R274) -/

/-- A launch's Crossroads slots and barriers may be used on a cluster (R274). -/
def State.exchangeFits (s : State) (k : Nat) (l : Launch) : Bool :=
  let here := (s.clusterLaunches k).any fun e => e.1 == l.queue && e.2.1 == l.number
  let o := s.ownedSlots k
  here || (o &&& l.lrec.exslots == 0 && decide (popcount (o ||| l.lrec.exslots).toNat 64 ≤ 56)
            && s.ownedBarriers k &&& l.lrec.barriers == 0)

/-- The Porter image a launch names is there (R268); a fenced Porter, whose PCTL may still name it (R263), counts as none: the
model's choice (log 87). -/
def State.porterFits (s : State) (k : Nat) (l : Launch) : Bool :=
  let p := (s.cluster k).porter
  l.lrec.porterfw == 0xFFFF || (p.custom && p.image == l.lrec.porterfw && p.ctx == l.ctx && !p.fenced)

/-- The resources of R37 are free for the unit on a cluster now. -/
def State.resourcesFit (s : State) (k : Nat) (l : Launch) (u : List Word) : Bool :=
  !(s.cluster k).fenced && (seatUnit l.lrec nowhere u (s.freeOn k (l.unitAge u).1)).isSome

/-- The unit can be sent to a cluster now (R37, R268, R274). -/
def State.unitFits (s : State) (k : Nat) (l : Launch) (u : List Word) : Bool :=
  s.resourcesFit k l u && s.exchangeFits k l && s.porterFits k l

def State.freeSlots (s : State) (k : Nat) (level : BitVec 2) : Nat := ((s.freeOn k level).map fun c => c.slots.length).sum

/-- The cluster of a die that takes the unit: the most free slots, the lowest number on a tie (R141); none whose event
queue holds more than 768 records (R146). -/
def State.pickCluster (s : State) (l : Launch) (u : List Word) (die : Nat) : Option Nat :=
  ((List.range 16).map (16 * die + ·)).foldl (fun b k =>
    if decide (768 < (s.cluster k).count) || !s.unitFits k l u then b
    else match b with
      | none => some k
      | some j => if s.freeSlots j (l.unitAge u).1 < s.freeSlots k (l.unitAge u).1 then some k else some j) none

def State.unitCluster (s : State) (l : Launch) (u : List Word) : Option Nat :=
  (l.lrec.dies (l.lrec.index (u.headD 0))).findSome? (s.pickCluster l u)

/-- A launch has a unit that can be sent, and where. -/
def State.sendable (s : State) (l : Launch) : Option (List Word × Nat) :=
  (s.nextUnit l).bind fun u => (s.unitCluster l u).map fun k => (u, k)

/-- What the Dispatcher sends next (R43, R141): the highest aged level; at level 3 the launch that reached it first;
below, queues round robin, and acceptance order in a queue. -/
def State.nextSend (s : State) : Option (Launch × List Word × Nat) :=
  let can := s.disp.launches.filterMap fun l => (s.sendable l).map fun u => (l, u.1, u.2)
  [3, 2, 1, 0].findSome? fun p =>
    let here := can.filter fun e => (e.1.unitAge e.2.1).1.toNat == p
    if p = 3 then here.foldl (fun b e => match b with
      | none => some e
      | some x => if (e.1.unitAge e.2.1).2.2 < (x.1.unitAge x.2.1).2.2 then some e else some x) none
    else
      (afterQ (s.disp.placeRr[p]!) (((List.range 64).map (BitVec.ofNat 6)).filter fun q =>
        here.any fun e => e.1.queue == q)).bind fun q => here.find? fun e => e.1.queue == q

/-- A PLACE event (R145). -/
def placeEvent (l : Launch) (w : Word) : EventRec :=
  { typ := 1, queue := l.queue.zeroExtend 8, number := l.number, wid := w, a := l.recVA
    b := BitVec.ofNat 64 (l.lrec.lanesMin.toNat + l.lrec.lanesMax.toNat * 256) }

/-- A unit is sent to a cluster in one burst; its first block may take the helm (R141, R466). -/
def State.sendUnit (s : State) (l : Launch) (u : List Word) (k : Nat) : State :=
  let s := u.foldl (fun s w =>
    let a := l.age w
    let p : Pending := match l.images.find? fun p => p.wid == w with
      | some p => { p with stood := none, seen := false, level := a.1, since := a.2.1, reached := a.2.2 }
      | none => { queue := l.queue, number := l.number, wid := w, recVA := l.recVA, level := a.1, since := a.2.1, reached := a.2.2 }
    let again := if p.ready then p.child.toList else []
    (s.postEvent k (placeEvent l w)).modCluster k fun c =>
      { c with pending := c.pending ++ [if p.ready then { p with child := none } else p], again := c.again ++ again }) s
  let s := s.modLaunch l.queue l.number fun m =>
    if m.back.isEmpty then { m with sent := m.sent + u.length }
    else { m with back := m.back.filter fun w => !u.contains w, images := m.images.filter fun p => !u.contains p.wid
                  backAge := m.backAge.filter fun e => !u.contains e.1 }
  let s := { s with disp := { s.disp with placeRr := s.disp.placeRr.set (l.unitAge u).1.toFin l.queue } }
  s.helmPlaced (l.queue, l.number) l.lrec.helm

/-- DISPATCH_PLACE (R141): only the unit and the cluster that the Dispatcher takes next. -/
def execDispatchPlace (q : QId) (number : BitVec 32) (k : ClusterId) : State → Host.Outcome State Fault Refusal :=
  runStep fun s =>
    match s.nextSend with
    | some (l, u, j) => if sameLaunch q number l && j == k.toNat then s.sendUnit l u j else s
    | none => s

/-! ### Aging (R43) -/

/-- The clock at which a level rises next. -/
def ageDue (level : BitVec 2) (since : Nat) : Option Nat := if level = 3 then none else some (since + Config.msClocks)

/-- When a block of a launch that waits at the Dispatcher is raised next (R43). -/
def Launch.due (l : Launch) : Option Nat :=
  if !l.ready || l.refused.isSome then none
  else
    let unsent := if l.sent < l.lrec.blocks then (ageDue l.level l.since).toList else []
    (unsent ++ l.back.filterMap fun w => ageDue (l.age w).1 (l.age w).2.1).min?

/-- The blocks of a launch at the Dispatcher whose wait ends at a clock are raised; those never sent together. -/
def Launch.raise (l : Launch) (t : Nat) : Launch :=
  let up (a : BitVec 2 × Nat × Nat) : BitVec 2 × Nat × Nat := if ageDue a.1 a.2.1 = some t then (a.1 + 1, t, t) else a
  let own := up (l.level, l.since, l.since)
  { l with backAge := l.back.map fun w => (w, up (l.age w))
           level := if l.sent < l.lrec.blocks then own.1 else l.level
           since := if l.sent < l.lrec.blocks then own.2.1 else l.since }

/-- A wait of 1 ms at a level raises it (R43). A block raised stands last at its new level. -/
def State.age (s : State) : AgeTarget → State
  | .unsent q n =>
    match s.launchOf q n with
    | none => s
    | some l => match l.due with
      | none => s
      | some t => { s with clock := Nat.max s.clock t }.modLaunch q n fun m => m.raise t
  | .pending k q n w =>
    match (s.cluster k.toNat).pending.find? (fun p => p.queue == q && p.number == n && p.wid == w) with
    | none => s
    | some p => match ageDue p.level p.since with
      | none => s
      | some t =>
        let p' : Pending := { p with level := p.level + 1, since := t, reached := t }
        { s with clock := Nat.max s.clock t }.modCluster k.toNat fun c =>
          { c with pending := eraseFirst (· == p) c.pending ++ [p'] }

/-- AGING_TICK (R43). -/
def execAgingTick (t : AgeTarget) : State → Host.Outcome State Fault Refusal :=
  runStep fun s => s.age t

/-! ### PREEMPT (R511) -/

/-- Record priorities of the blocks resident on a cluster. -/
def State.residentLevels (s : State) (k : Nat) : List Nat :=
  (List.range 32).filterMap fun i =>
    let x := s.slot (BitVec.ofNat 10 (k * 32 + i))
    if x.run == .empty then none else some x.lrec.priority.toNat

/-- The cluster a PREEMPT goes to (R511): one of the home die where one qualifies, even where the other die holds a block of
lower record priority (log 71). -/
def State.preemptCluster (s : State) (l : Launch) (u : List Word) (level : BitVec 2) : Option Nat :=
  (l.lrec.dies (l.lrec.index (u.headD 0))).findSome? fun die =>
    let best := ((List.range 16).map (16 * die + ·)).foldl (fun (b : Option (Nat × Nat)) k =>
      if (s.cluster k).fenced then b
      else match (s.residentLevels k).min?, b with
        | none, b => b
        | some p, none => some (p, k)
        | some p, some x => if p < x.1 then some (p, k) else some x) none
    best.bind fun x => if x.1 < level.toNat then some x.2 else none

/-- A PREEMPT may be sent for a unit now (R511): its level has risen since the last one, or 1 ms has passed. -/
def State.preemptDue (s : State) (l : Launch) (u : List Word) (level : BitVec 2) : Bool :=
  match s.disp.preempts.find? (fun e => e.1 == l.queue && e.2.1 == l.number && e.2.2.1 == l.lrec.index (u.headD 0)) with
  | none => true
  | some (_, _, _, lv, t) => decide (lv < level) || decide (t + Config.msClocks ≤ s.clock)

/-- Units of a launch that wait at the Dispatcher, each with its level: those that came back, then those never sent, of which
no more than have had a PREEMPT and one, on each of the two dies (R35, R511). -/
def State.waitingUnits (s : State) (l : Launch) : List (List Word × BitVec 2) :=
  let r := l.lrec
  if l.refused.isSome || !l.ready || s.health.busy then []
  else
    let back := ((l.back.map fun w => r.index w / r.unitSize).eraseDups).map fun g =>
      l.back.filter fun w => r.index w / r.unitSize == g
    let n := (s.disp.preempts.filter fun e => e.1 == l.queue && e.2.1 == l.number).length + 1
    let die := 2 ^ (r.w 1 + r.w 2 + r.w 3)
    let from_ (a : Nat) : List Nat := (List.range n).map fun i => a + i * r.unitSize
    let other := if r.w 4 = 0 then [] else from_ ((l.sent / die + 1) * die)
    let fresh := ((from_ l.sent ++ other).eraseDups).filterMap fun i =>
      if i < r.blocks && s.groupTurn l i then some ((List.range r.unitSize).map fun j => r.wid (i + j)) else none
    (back ++ fresh).map fun u => (u, (l.unitAge u).1)

/-- Units of a launch that wait on Stewards, each with its level and what is free on its cluster beside it. -/
def State.pendingUnits (s : State) (l : Launch) : List (List Word × BitVec 2 × Nat) :=
  let r := l.lrec
  (List.range 32).flatMap fun k =>
    let mine := (s.cluster k).pending.filter fun p => p.queue == l.queue && p.number == l.number && p.ready
    ((mine.map fun p => r.index p.wid / r.unitSize).eraseDups).map fun g =>
      let u := mine.filter fun p => r.index p.wid / r.unitSize == g
      (u.map (·.wid), (u.head?.map (·.level)).getD 0, k)

/-- The unit fits no cluster of its dies now (R37, R511); `own`: the cluster it waits on, where its own seats count as free. -/
def State.fitsNowhere (s : State) (l : Launch) (u : List Word) (own : Option Nat) : Bool :=
  (l.lrec.dies (l.lrec.index (u.headD 0))).all fun die => ((List.range 16).map (16 * die + ·)).all fun k =>
    if own = some k then (s.cluster k).fenced || (seatUnit l.lrec nowhere u (s.clusterRes k)).isNone else !s.resourcesFit k l u

/-- The unit of a launch for which a PREEMPT goes out, its level, and the PREEMPT's cluster (R511). -/
def State.wantsPreempt (s : State) (l : Launch) : Option (List Word × BitVec 2 × Nat) :=
  let units := (s.waitingUnits l).map (fun e => (e.1, e.2, (none : Option Nat))) ++ (s.pendingUnits l).map fun e => (e.1, e.2.1, some e.2.2)
  units.findSome? fun e =>
    if !s.preemptDue l e.1 e.2.1 || !s.fitsNowhere l e.1 e.2.2 then none
    else (s.preemptCluster l e.1 e.2.1).map fun k => (e.1, e.2.1, k)

/-- PREEMPT records of a unit (R145, R511): one per core group, or per block without core groups. -/
def State.sendPreempt (s : State) (l : Launch) (u : List Word) (level : BitVec 2) (k : Nat) : State :=
  let r := l.lrec
  let g := r.coreSize
  let b := r.rooms.toNat * g % 65536 + r.lanesMin.toNat * g % 256 * 65536
  let e (j : Nat) : EventRec :=
    { typ := 9, queue := l.queue.zeroExtend 8, number := l.number, wid := u.getD (j * g) 0, a := level.zeroExtend 64
      b := BitVec.ofNat 64 b }
  let s := (List.range (Nat.max 1 (u.length / g))).foldl (fun s j => s.postEvent k (e j)) s
  let i := r.index (u.headD 0)
  { s with disp := { s.disp with preempts := (l.queue, l.number, i, level, s.clock)
                      :: s.disp.preempts.filter fun x => !(x.1 == l.queue && x.2.1 == l.number && x.2.2.1 == i) } }

/-- PREEMPT_SEND (R511). -/
def State.preempt (s : State) (q : QId) (n : BitVec 32) : State :=
  match s.launchOf q n with
  | none => s
  | some l => match s.wantsPreempt l with
    | none => s
    | some (u, level, k) => s.sendPreempt l u level k

def execPreemptSend (q : QId) (number : BitVec 32) : State → Host.Outcome State Fault Refusal :=
  runStep fun s => s.preempt q number

/-! ### Held event records (R146) -/

/-- The oldest held record enters its event queue once there is room (R146). -/
def State.postHeld (s : State) (k : Nat) : State :=
  let c := s.cluster k
  match c.held with
  | [] => s
  | e :: rest =>
    if 1024 ≤ c.count then s else (s.modCluster k fun c => { c with held := rest }).pushEvent k e

/-- EVENT_RECORD_POST (R146). -/
def execEventRecordPost (k : ClusterId) : State → Host.Outcome State Fault Refusal :=
  runStep fun s => s.postHeld k.toNat

end Sys2Proof.Machine
end

