-- ==== Sys2Proof/Machine/Firmware.lean ====
section
/-! DEFINITION. What the vendor firmware of a Steward does (R142, R152 - R154, R189, R496), as steps: a Steward that runs
code of its own does none of them (log 6). -/
namespace Sys2Proof.Machine

/-- The vendor firmware runs on a cluster's Steward. -/
def State.vendor (s : State) (k : Nat) : Bool :=
  let c := s.cluster k
  !c.steward.code && !c.steward.stopped && !c.fenced && !s.health.busy

/-- The head record of an event queue. -/
def State.headEvent (s : State) (k : Nat) : Option EventRec :=
  let c := s.cluster k
  if c.count = 0 then none else some (EventRec.ofBytes (Memory.bytes s.mem (eventPA k c.head) 32))

/-- The slot that an event names. -/
def eventSlot (k : Nat) (e : EventRec) : SlotId := slotOf (k * 8 + e.core.toNat % 8) (e.slot.toNat % 4)

def State.eventLaunch (s : State) (e : EventRec) (f : Launch → Launch) : State :=
  s.modLaunch (e.queue.truncate 6) e.number f

/-! ### Placing (R142, R189) -/

/-- The block a slot holds, or a pending entry, is of a unit. -/
def Slot.mateOf (x : Slot) (r : LaunchRec) (p : Pending) : Bool :=
  x.run != .empty && x.queue == p.queue && x.number == p.number && r.index x.wid / r.unitSize == r.index p.wid / r.unitSize

/-- Evicted blocks of one unit (R189). -/
def imageMates (r : LaunchRec) (p : Pending) (ps : List Pending) : List Pending :=
  ps.filter fun o => o.queue == p.queue && o.number == p.number && o.image.isSome
    && r.index o.wid / r.unitSize == r.index p.wid / r.unitSize

/-- A seat on a given core at a given first chunk. -/
def seatAt (r : LaunchRec) (more : Nat) (core room : Nat) (cs : List CoreRes) : Option (Seat × List CoreRes) := do
  let c ← cs.find? fun d => d.core == core
  if r.rooms != 0 && c.rooms.any fun u => runsMeet room r.rooms.toNat u.1 u.2 then none
  let (a, c) ← c.take { r with rooms := 0 } true more
  let c := { c with rooms := if r.rooms = 0 then c.rooms else (room, r.rooms.toNat) :: c.rooms }
  return ({ a with room := room }, cs.map fun d => if d.core == core then c else d)

/-- Seats of the evicted blocks of a group, each where it stood. -/
def seatImages (r : LaunchRec) : List Pending → List CoreRes → Option (List (Pending × Seat))
  | [], _ => some []
  | p :: ps, cs => do
    let at_ ← p.stood
    let (a, cs) ← seatAt r ps.length at_.1 at_.2 cs
    let as ← seatImages r ps cs
    return (p, a) :: as

/-- Seats for pending blocks of a unit, by their work identifiers. -/
def seatPending (r : LaunchRec) (near : Nat → Option Nat) (u : List Pending) (cs : List CoreRes) : Option (List (Pending × Seat)) :=
  (seatUnit r near (u.map (·.wid)) cs).map fun x =>
    u.filterMap fun p => (x.1.find? fun e => e.1 == p.wid).map fun e => (p, e.2)

/-- Seats for the unit of a pending block: new blocks as R142 chooses, an evicted group where it stood, blocks of a core
group that are placed again beside those of it that run (R35). -/
def State.seats (s : State) (k : Nat) (l : Launch) (p : Pending) : Option (List (Pending × Seat)) :=
  let r := l.lrec
  let ps := (s.cluster k).pending
  let cs := s.clusterRes k
  let here := (List.range 32).filter fun i => (s.slot (BitVec.ofNat 10 (k * 32 + i))).mateOf r p
  if p.image.isSome && r.unitSize != 1 then
    let u := imageMates r p ps
    if u.all fun o => o.stood.isNone then
      if u.all fun o => o.ready && o.seen then seatPending r nowhere u cs else none
    else if u.all (fun o => o.ready && o.seen) && here.all fun i => (s.slot (BitVec.ofNat 10 (k * 32 + i))).run != .evicting then
      seatImages r u cs
    else none
  else
    let u := unitMates r p ps
    if !u.all fun o => o.seen && o.ready then none
    else
      let near (g : Nat) : Option Nat := if r.coreSize = 1 then none else
        (here.find? fun i => r.index (s.slot (BitVec.ofNat 10 (k * 32 + i))).wid / r.coreSize == g).map (· / 4)
      seatPending r near u cs

/-- SLOTASSIGN of each block of a unit; the first status that is not OK ends it. -/
def assignAll (k : Nat) : List (Pending × Seat) → M Nat
  | [] => return 0
  | (p, a) :: rest => do
    let d : Assign := { core := a.core, slot := a.slot, grant := a.grant, resume := p.image.isSome, recVA := p.recVA
                        wid := p.wid, image := p.image.getD 0, room := a.room, acc := a.acc }
    let st ← assign k d false
    if st ≠ 0 then return st
    assignAll k rest

/-- A block that will not run: its launch counts it (R239). -/
def State.dropPending (s : State) (k : Nat) (p : Pending) : State :=
  (s.modCluster k fun c => { c with pending := eraseFirst (· == p) c.pending }).modLaunch p.queue p.number fun l =>
    { l with unrun := l.unrun + 1 }

/-- Pending blocks in the order they are taken: at level 3 as they reached it, below first in first out within a level (R43,
R142). -/
def Cluster.order (c : Cluster) : List Pending :=
  sortBy (fun a b => decide (a.reached ≤ b.reached)) (c.pending.filter fun x => x.level == 3)
    ++ [2, 1, 0].flatMap fun p => c.pending.filter fun x => x.level.toNat == p

/-- An evicted block yields to a unit of a higher level that the Dispatcher is about to send to its cluster: the PREEMPT that
evicted it said so (R43, R152; log 70). -/
def State.yields (s : State) (k : Nat) (p : Pending) : Bool :=
  p.image.isSome && (match s.nextSend with
    | some (l, u, j) => j == k && decide (p.level < (l.unitAge u).1)
    | none => false)

/-- Place the first unit that fits (R142). An image that is refused with CTXFEAT ends its block (R239). -/
def State.placeFirst (s : State) (k : Nat) : List Pending → State
  | [] => s
  | p :: rest =>
    match s.launchOf p.queue p.number with
    | none => s.placeFirst k rest
    | some l =>
      match if s.yields k p then none else s.seats k l p with
      | none => s.placeFirst k rest
      | some u =>
        match (assignAll k u).run s with
        | .ok 0 s => s
        | .ok 5 s => match u.find? fun e => (s.cluster k).pending.contains e.1 with
          | some e => s.dropPending k e.1
          | none => s
        | .ok _ s => s.placeFirst k rest
        | .error _ s => s

/-- Some pending unit of a cluster has seats. -/
def State.canPlace (s : State) (k : Nat) : Bool :=
  (s.cluster k).pending.any fun p => match s.launchOf p.queue p.number with
    | some l => !s.yields k p && (s.seats k l p).isSome
    | none => false

/-! ### The event records that report a block (R145) -/

/-- A pending block's record has been taken. -/
def State.markSeen (s : State) (k : Nat) (e : EventRec) : State :=
  s.modCluster k fun c => { c with pending := c.pending.map fun p =>
    if p.queue.toNat == e.queue.toNat && p.number == e.number && p.wid == e.wid then { p with seen := true } else p }

/-- TRAP (R139, R234): the block counts in faulted, the first fault record is kept, the slot is freed unless an eviction
frees it. -/
def State.trapEvent (s : State) (k : Nat) (e : EventRec) : State :=
  let sl := eventSlot k e
  let x := s.slot sl
  let bs := Memory.bytes s.mem e.b.toNat 64
  let s := s.eventLaunch e fun l => { l with faulted := l.faulted + 1, fault := l.fault.or (some bs) }
  if x.halted && x.wid == e.wid && x.evict.isNone then s.freeSlot sl else s

/-- Records that need no decision of the Steward's. -/
def serviced (typ : BitVec 8) : Bool :=
  typ == 1 || typ == 2 || typ == 3 || typ == 4 || typ == 6 || typ == 7 || typ == 10 || typ == 11

/-- Take one such record. -/
def State.serviceEvent (s : State) (k : Nat) (e : EventRec) : State :=
  let s := s.popEvent k
  if e.typ = 1 then s.markSeen k e
  else if e.typ = 2 then s.eventLaunch e fun l => { l with ended := l.ended + 1 }
  else if e.typ = 3 then s.trapEvent k e
  else if e.typ = 10 then s.markSeen k e
  else s

/-- STEWARD_PLACEMENT (R142): a record that reports a block is taken; with none at the head, pending blocks are placed. -/
def State.stewardPlace (s : State) (k : Nat) : State :=
  if !s.vendor k then s
  else match s.headEvent k with
    | some e => if serviced e.typ then s.serviceEvent k e else s.placeFirst k (s.cluster k).order
    | none => s.placeFirst k (s.cluster k).order

def execStewardPlacement (k : ClusterId) : State → Host.Outcome State Fault Refusal :=
  runStep fun s => s.stewardPlace k.toNat

/-! ### Pre-emption (R152) -/

/-- The slots of a block's unit on its cluster, itself among them (R189). -/
def State.unitSlots (s : State) (sl : SlotId) : List SlotId :=
  let x := s.slot sl
  let r := x.lrec
  if r.unitSize = 1 then [sl]
  else ((List.range 32).map fun i => BitVec.ofNat 10 (slotCluster sl * 32 + i)).filter fun o =>
    let y := s.slot o
    y.run != .empty && y.queue == x.queue && y.number == x.number && r.index y.wid / r.unitSize == r.index x.wid / r.unitSize

/-- The vendor firmware evicts a block and its group; where the images go the spec leaves open (log 43). -/
def State.evictUnit (s : State) (sl : SlotId) : State :=
  (s.unitSlots sl).foldl (fun s o =>
    let va := Config.freeWord s.free &&& ~~~0xFFF
    if (s.slot o).halted then s else (s.draw.evictSlot o va).2) s

/-- 100 us and 200 us in clocks. -/
def eligibleClocks : Nat := 100 * Config.usClocks
def parkClocks : Nat := 200 * Config.usClocks

/-- A PREEMPT of a level may evict a block (R152). -/
def State.mayEvict (s : State) (level : Nat) (sl : SlotId) : Bool :=
  let x := s.slot sl
  (x.run == .running || x.run == .asleep || x.run == .parked) && !x.halted && decide (x.level.toNat < level)
    && decide (x.since + eligibleClocks ≤ s.clock)

/-- Blocks of a core that a PREEMPT of a level may evict, each with its unit (R189), in rank order (R152). -/
def State.eligible (s : State) (k c : Nat) (level : Nat) : List SlotId :=
  let all := ((List.range 4).map (slotOf (k * 8 + c))).filter fun sl =>
    s.mayEvict level sl && (s.unitSlots sl).all (s.mayEvict level)
  sortBy (fun a b =>
    let x := s.slot a
    let y := s.slot b
    decide (x.level < y.level) || (x.level == y.level && decide (y.since ≤ x.since))) all

/-- The blocks that go when some of a core do: their units with them (R189). -/
def State.withUnits (s : State) (l : List SlotId) : List SlotId := (l.flatMap s.unitSlots).eraseDups

/-- The fewest blocks of a core, in rank order, whose eviction frees what is wanted (R152). -/
def State.preemptSet (s : State) (k c level chunks groups : Nat) : Option (List SlotId) :=
  let el := s.eligible k c level
  let res := s.coreRes k c
  let here (l : List SlotId) : List SlotId := (s.withUnits l).filter fun sl => slotCore sl == k * 8 + c
  let used (l : List SlotId) : Nat := ((s.liveSlots (k * 8 + c)).map (·.roomChunks)).sum - ((here l).map fun sl => (s.slot sl).roomChunks).sum
  let free (l : List SlotId) : Nat := res.groups + ((here l).map fun sl => s.grant sl).sum
  ((List.range (el.length + 1)).map fun n => el.take n).find? fun l =>
    decide (used l + chunks ≤ 1024) && decide (groups ≤ free l)

/-- PREEMPT (R152). -/
def State.stewardPreempt (s : State) (k : Nat) (e : EventRec) : State :=
  let chunks := bits e.b.toNat 0 16
  let groups := bits e.b.toNat 16 8
  let sets := ((List.range 8).filter fun c => !s.coreGone (k * 8 + c)).filterMap fun c =>
    s.preemptSet k c e.a.toNat chunks groups
  let best := sets.foldl (fun (b : Option (List SlotId)) l => match b with
    | none => some l
    | some x => if (s.withUnits l).length < (s.withUnits x).length then some l else some x) none
  (best.getD []).foldl (fun s sl => s.evictUnit sl) s

def headIs (s : State) (k : Nat) (typ : BitVec 8) : Option EventRec :=
  if s.vendor k then (s.headEvent k).filter fun e => e.typ == typ else none

/-- STEWARD_PREEMPT (R152). -/
def execStewardPreempt (k : ClusterId) : State → Host.Outcome State Fault Refusal :=
  runStep fun s => match headIs s k.toNat 9 with
    | some e => (s.popEvent k.toNat).stewardPreempt k.toNat e
    | none => s

/-- A park of 200 us leads to eviction (R152, R153). -/
def State.parkTimeout (s : State) (sl : SlotId) : State :=
  let x := s.slot sl
  match x.park with
  | some p =>
    if x.run == .parked && s.vendor (slotCluster sl) then
      { s with clock := Nat.max s.clock (p.since + parkClocks) }.evictUnit sl
    else s
  | none => s

/-- PARK_TIMEOUT (R152). -/
def execParkTimeout (sl : SlotId) : State → Host.Outcome State Fault Refusal :=
  runStep fun s => s.parkTimeout sl

/-! ### Child launches (R154, R186) -/

/-- The waits of a block, its own beside a call's. -/
def Slot.launchWait (x : Slot) : Option (Word × Reg) :=
  match x.ownWait with | .tlaunch r ra none => some (r, ra) | _ => none

/-- The status word of a child reaches its parent's register: the sleeping TLAUNCH ends (R186). -/
def Slot.giveStatus (x : Slot) (v : Word) : Slot :=
  match x.call with
  | some c => match c.savedWait with
    | .tlaunch r ra _ => { x with call := some { c with savedWait := .tlaunch r ra (some v) } }
    | _ => x
  | none => match x.wait with
    | .tlaunch r ra _ => { x with wait := .tlaunch r ra (some v), run := if x.run == .asleep || x.run == .parked then .running else x.run
                                  park := none }
    | _ => x

/-- A child record read and checked in its parent's context (R154); its status word is written to it. -/
def childStatus (k : Nat) (l : Launch) (ctx : BitVec 16) (va : Word) : M Nat := do
  let w : WalkSrc := .steward (BitVec.ofNat 5 k)
  let d ← agentRead w (stewardSrc k) ctx { acc := .load, cmpOk := true, who := .steward } .normal (cutGranules 6 va 128)
  let s ← get
  let r := recOf d
  let r := { r with child := true, priority := if r.priority < l.lrec.priority then r.priority else l.lrec.priority }
  let q := l.queue
  if (s.launchOf q (s.queue q).next).isSome then stall
  let u : Use := { acc := .store, who := .steward }
  let p ← translate w false ctx va u
  dataCheck (stewardSrc k) u va p
  let s ← get
  let no := s.refusal d true (l.depth + 1)
  let v := match no with | none => statusWord (s.queue q).next 1 0 | some c => statusWord 0 2 c
  let s := (s.performWrite (stewardSrc k) p.home p.pa .normal (bytesOfNat 8 v)).snoopDone p.pa
  match no with
  | some _ => set s
  | none =>
    set ((s.accept q va ctx r none (some (q, l.number)) (l.depth + 1)).modLaunch q l.number fun m =>
      { m with openChildren := m.openChildren + 1 })
  return v

/-- Run a computation as if a slot's instruction were under way. -/
def State.asSlot (s : State) (sl : SlotId) (f : State → State) : State :=
  { f { s with cur := .block sl } with cur := s.cur }

/-- The slot of a cluster that holds the block an event names. -/
def State.blockOf (s : State) (k : Nat) (e : EventRec) : Option SlotId :=
  ((List.range 32).map fun i => (BitVec.ofNat 10 (k * 32 + i) : SlotId)).find? fun sl =>
    let x := s.slot sl
    x.run != .empty && x.queue.toNat == e.queue.toNat && x.number == e.number && x.wid == e.wid

/-- A pending block is the one an event names, evicted. -/
def Pending.named (p : Pending) (e : EventRec) : Bool :=
  p.queue.toNat == e.queue.toNat && p.number == e.number && p.wid == e.wid && p.image.isSome

/-- The status word of a child reaches its parent: in its slot, or in the image of one that has been evicted meanwhile
(R154, R186). -/
def State.statusTo (s : State) (k : Nat) (e : EventRec) (v : Nat) : State :=
  match s.blockOf k e with
  | some sl => s.modSlot sl fun x => x.giveStatus (BitVec.ofNat 64 v)
  | none =>
    match (s.cluster k).pending.find? fun p => p.named e, s.launchOf (e.queue.truncate 6) e.number with
    | some p, some l =>
      { s with savedTiles := s.savedTiles.map fun t =>
          if t.ctx == l.ctx && some t.va == p.image then
            { t with wait := match t.wait with | .tlaunch r ra _ => .tlaunch r ra (some (BitVec.ofNat 64 v)) | w => w }
          else t }
    | _, _ => s

/-- A page fault of the record's read parks the parent, source 2 (R153, R489): in its slot, or as it waits evicted. `true`
when that is done. -/
def State.parkParent (s : State) (k : Nat) (e : EventRec) (ctx : BitVec 16) (t : Trap) : Bool × State :=
  if !s.eventRoom k then (false, s)
  else match s.blockOf k e with
    | some sl => (true, s.asSlot sl fun s => s.parkSlot sl t 2)
    | none =>
      let (tok, s) := s.takeToken
      let f : FaultRec := { cause := t.cause.code, va := t.va, vaValid := true, level := BitVec.ofNat 8 t.level
                            core := 0xFF, slot := 0xFF, wid := e.wid, token := tok }
      let s := (s.postFault f ctx t.acc 2).pushEvent k { typ := 4, queue := e.queue, number := e.number, wid := e.wid, a := tok, b := t.va }
      let park (p : Pending) : Pending :=
        if p.named e then { p with token := tok, ready := false, parked := some (t.va, t.acc), child := some e } else p
      (true, s.modCluster k fun c => { c with pending := c.pending.map park })

/-- TLAUNCH (R154): the child's status, or a park of the parent, or a wait. `true` when the request is done with. -/
def State.launchFor (s : State) (k : Nat) (e : EventRec) : Bool × State :=
  match s.launchOf (e.queue.truncate 6) e.number with
  | none => (true, s)
  | some l =>
    if e.a.toNat % 128 ≠ 0 then (true, s.statusTo k e (statusWord 0 2 1))
    else match (childStatus k l l.ctx e.a).run s with
      | .ok v s => (true, s.statusTo k e v)
      | .error .stall s => (false, s)
      | .error (.trap t) s =>
        if t.cause.delivery = .park then s.parkParent k e l.ctx t else (true, s.statusTo k e (statusWord 0 2 1))

/-- STEWARD_TLAUNCH (R154): requests to be tried again come first. -/
def State.stewardTlaunch (s : State) (k : Nat) : State :=
  match (s.cluster k).again with
  | e :: _ =>
    let (done, s) := s.launchFor k e
    if done then s.modCluster k fun c => { c with again := eraseFirst (· == e) c.again } else s
  | [] =>
    match headIs s k 8 with
    | none => s
    | some e =>
      let (done, s) := s.launchFor k e
      if done then s.popEvent k else s

def execStewardTlaunch (k : ClusterId) : State → Host.Outcome State Fault Refusal :=
  runStep fun s => if s.vendor k.toNat then s.stewardTlaunch k.toNat else s

/-! ### REPLAY (R153, R446) -/

/-- A park of a block ends: the access is tried again (R446); where it was the read of a TLAUNCH's record, by the Steward
(R154). -/
def State.unpark (s : State) (k : Nat) (sl : SlotId) : State :=
  let again := (s.slot sl).parkedChild
  let s := s.modSlot sl fun x => { x with park := none, run := if x.run == .parked then .running else x.run }
  match again with
  | some e => s.modCluster k fun c => { c with again := c.again ++ [e] }
  | none => s

/-- Whether a command is parked with a token. -/
def Cmd.hasToken (c : Cmd) (tok : Word) : Bool := match c.park with | some p => p.1 == tok | none => false

/-- What a REPLAY with a token clears on a cluster: the park of a block, of a copy of its blocks, of an evicted block or
of a copy that an image holds. -/
def State.replayToken (s : State) (k : Nat) (tok : Word) : State :=
  let slots := ((List.range 32).map fun i => BitVec.ofNat 10 (k * 32 + i)).filter fun sl =>
    match (s.slot sl).park with | some p => p.token == tok | none => false
  let s := slots.foldl (fun s sl => s.unpark k sl) s
  let s := (List.range 32).foldl (fun s j => s.modCluster j fun c =>
    if c.porter.cmds.any (fun m => m.hasToken tok && m.home.toNat == k) then
      { c with porter := { c.porter with cmds := c.porter.cmds.map fun m => if m.hasToken tok then { m with park := none } else m } }
    else c) s
  let s := s.modCluster k fun c =>
    let mine (p : Pending) : Bool := !p.ready && p.token == tok
    { c with pending := c.pending.map fun p => if mine p then { p with ready := true, child := none } else p
             again := c.again ++ (c.pending.filter mine).filterMap (·.child) }
  { s with savedTiles := s.savedTiles.map fun t =>
      { t with cmds := t.cmds.map fun m => if m.hasToken tok then { m with park := none } else m } }

/-- STEWARD_REPLAY (R153). -/
def execStewardReplay (k : ClusterId) : State → Host.Outcome State Fault Refusal :=
  runStep fun s => match headIs s k.toNat 5 with
    | some e => (s.popEvent k.toNat).replayToken k.toNat e.a
    | none => s

/-! ### FENCE (R496, R499) -/

/-- A block that a fence interrupted leaves its slot: placed again from its entry when its launch is restartable, else
counted in unrun; one that has trapped is counted already (R499). `back` names where it waits: its cluster's Steward, or the Dispatcher. Its placement had reset its level to
the record's (R43). -/
def State.interrupt (s : State) (sl : SlotId) (back : Bool) : State :=
  let x := s.slot sl
  if x.run = .empty then s
  else if x.halted then s.freeSlot sl
  else
    let s := s.modLaunch x.queue x.number fun l =>
      if x.lrec.restartable then
        { l with fencedpart := true, rerun := if l.rerunIds.contains x.wid then l.rerun else l.rerun + 1
                 rerunIds := if l.rerunIds.contains x.wid then l.rerunIds else x.wid :: l.rerunIds
                 back := if back then l.back ++ [x.wid] else l.back
                 backAge := if back then l.backAge ++ [(x.wid, x.lrec.priority, s.clock, s.clock)] else l.backAge }
      else { l with fencedpart := true, unrun := l.unrun + 1 }
    let s := if x.lrec.restartable && !back then
        s.modCluster (slotCluster sl) fun c =>
          { c with pending := c.pending ++ [{ queue := x.queue, number := x.number, wid := x.wid, recVA := x.recVA
                                              level := x.lrec.priority, since := s.clock, reached := s.clock
                                              seen := true }] }
      else s
    s.freeSlot sl

/-- STEWARD_FENCE (R496): the blocks of a fenced core are reported. -/
def State.stewardFence (s : State) (k : Nat) (e : EventRec) : State :=
  let code := e.a.toNat
  if code % 16 = 1 then
    let core := bits code 4 1 * 128 + bits code 5 8
    if core / 8 = k then (List.range 4).foldl (fun s n => s.interrupt (slotOf core n) false) s else s
  else s

def execStewardFence (k : ClusterId) : State → Host.Outcome State Fault Refusal :=
  runStep fun s => match headIs s k.toNat 12 with
    | some e => (s.popEvent k.toNat).stewardFence k.toNat e
    | none => s

/-! ### Time-outs of waits -/

/-- EVWAIT_TIMEOUT (R148): the EVWAIT returns the pending count. -/
def State.evwaitTimeout (s : State) (k : ClusterId) : State :=
  let c := s.cluster k.toNat
  match c.steward.wait with
  | some (rd, some d) =>
    let s := { s with clock := Nat.max s.clock d, cur := .steward k }
    let s := ((s.modSteward k.toNat fun w => { w with wait := none }).setX rd (BitVec.ofNat 64 c.count))
    s.retire (s.pc + 4)
  | _ => s

def execEvwaitTimeout (k : ClusterId) : State → Host.Outcome State Fault Refusal :=
  runStep fun s => { s.evwaitTimeout k with cur := s.cur }

/-- VWAIT_TIMEOUT (R330): the time has come, and the block wakes to read its flags a last time. -/
def State.vwaitTimeout (s : State) (sl : SlotId) : State :=
  match (s.slot sl).wait with
  | .vwait (some d) _ =>
    let s : State := { s with clock := Nat.max s.clock d }
    s.modSlot sl fun x => { x with run := if x.run == .asleep then .running else x.run }
  | _ => s

def execVwaitTimeout (sl : SlotId) : State → Host.Outcome State Fault Refusal :=
  runStep fun s => s.vwaitTimeout sl

end Sys2Proof.Machine
end

