-- ==== Sys2Proof/Machine/Innkeeper.lean ====
section
/-! DEFINITION. The Innkeeper's steps (R162, R163, R169 - R175, R293) and den naming (R355). -/
namespace Sys2Proof.Machine

/-- How each tile instruction commits (R169). -/
def tileCommit (sl : SlotId) (t : TileInstr) : M Unit :=
  match t.op with
  | .loadPb _ _ _ _ | .storePb _ _ _ _ | .copyPb _ _ _ _ => commitWork pbCommit sl t
  | .map _ _ _ _ _ => commitWork mapLoad sl t
  | .send _ _ _ => sendCommit sl t
  | .recv _ _ => recvCommit sl t
  | .load _ _ _ _ _ | .store _ _ _ _ _ | .copy _ | .zero _ | .coll _ _ _ _ _ | .mma _ _ _ _ _ | .discard _ _ =>
    commitWork keep sl t

/-- The main stream of a slot stands at its uncommitted tile instruction and may commit it. -/
def Slot.atCommit (x : Slot) : Bool :=
  x.rob.isSome && x.run == .running && x.call.isNone && x.threads.isNone && x.stop.isNone && !x.halted

/-- TILE_COMMIT (R169): the uncommitted tile instruction of a slot commits, or waits, or traps. -/
def execTileCommit (sl : SlotId) : State → Host.Outcome State Fault Refusal := fun s =>
  if s.power = .off then .fault .poweredOff
  else if (s.slot sl).atCommit then
    match runInstr 8 (tileInstr (fun _ => stall) tileCommit) { s with cur := .block sl } with
    | .next t => .next { t with cur := s.cur }
    | o => o
  else .next s

/-- ROOM_ALLOCATE (R163): the uncommitted writer of a slot gets its room, or waits. ROOMS is raised at its commit. -/
def State.tryRoom (s : State) (sl : SlotId) : State :=
  match (s.slot sl).rob.bind (·.td) with
  | none => s
  | some r => match (allocRoom sl r).run s with
    | .ok _ s' => s'
    | .error (.trap _) _ => s
    | .error .stall s' => s'

def execRoomAllocate (sl : SlotId) : State → Host.Outcome State Fault Refusal :=
  runStep fun s => s.tryRoom sl

/-- INSTANCE_RELEASE (R162). -/
def execInstanceRelease (sl : SlotId) : State → Host.Outcome State Fault Refusal :=
  runStep fun s => s.modSlot sl Slot.release

/-- BRANCH_MISPREDICT_SQUASH (R171): the uncommitted tile instruction of a slot leaves no effect; a TSEND that has bound
its postings has committed (R278). -/
def execBranchMispredictSquash (sl : SlotId) : State → Host.Outcome State Fault Refusal :=
  runStep fun s => if s.boundSend sl then s else s.modSlot sl Slot.squash

/-- FAILED_WRITE_RECORD (R173). -/
def execFailedWriteRecord (sl : SlotId) (f : FailedWrite) : State → Host.Outcome State Fault Refusal :=
  runStep fun s => if (s.slot sl).run = .empty then s else s.recordFailed sl f f.elem.isSome

/-- DEN_NAMING (R355): a register that was written gets its name. -/
def execDenNaming (sl : SlotId) (v : Reg) : State → Host.Outcome State Fault Refusal :=
  runStep fun s => if (s.slot sl).run = .empty then s else s.nameReg sl v

/-! ### Issue (R174, R293) -/

/-- The word that a running slot's own stream executes next, as memory and the translations show it now. -/
def State.nextWord (s : State) (sl : SlotId) : Option Nat :=
  let x := s.slot sl
  let va := x.hart.pc.toNat
  let place : Option Loc := match (s.tlbLookup (.core (BitVec.ofNat 8 (slotCore sl))) true x.ctx va).1 with
    | some e => some (entryLoc e va)
    | none => s.peek x.ctx va
  match x.flight with
  | e :: _ => some e.word.toNat
  | [] => place.map fun l => Memory.nat s.mem l.pa 4

/-- A slot has a lane micro-operation ready: it runs, and a call, lane threads or a vector-class word (R83) comes next. -/
def State.laneReady (s : State) (sl : SlotId) : Bool :=
  let x := s.slot sl
  x.run == .running && !x.halted && (x.call.isSome || x.threads.isSome
    || (s.nextWord sl).any fun w => decide (0x1C ≤ bits w 26 6) && decide (bits w 26 6 ≤ 0x26))

/-- A lane group may be lent (R293): free, or its owner has no lane micro-operation ready. -/
def State.lendable (s : State) (c : Nat) (e : LaneEnt) : Bool :=
  e.enabled && e.borrower.isNone && match e.owner with
    | none => true
    | some n => !s.laneReady (slotOf c n.toNat) && (s.nextStrip (slotOf c n.toNat)).isNone

/-- A word that may run over lent groups: arithmetic, permute, mask or chain (R293); not while an entry of its context may
match it, since a hit borrows nothing (R373). -/
def State.borrows (s : State) (sl : SlotId) (w : Nat) : Bool :=
  let plain (v : BitVec 32) : BitVec 32 := v &&& 0xFC0007FF
  decide (0x1D ≤ bits w 26 6) && decide (bits w 26 6 ≤ 0x21)
    && !(s.core (slotCore sl)).sett.any fun e =>
      e.kind == 0 && e.key.ctx == (s.slot sl).ctx && plain e.key.word == plain (BitVec.ofNat 32 w)

/-- A group is lent to a running slot for one strip (R293). -/
def State.lend (s : State) (sl : SlotId) : Option State :=
  let c := slotCore sl
  let x := s.slot sl
  if x.run != .running || x.call.isSome || x.threads.isSome || x.halted || !(s.nextWord sl).any (s.borrows sl) then none
  else
    let l := (s.core c).lanes
    ((List.finRange 16).find? fun (g : Fin 16) => l[g].owner != some (BitVec.ofNat 2 (slotNum sl)) && s.lendable c l[g]).map fun g =>
      s.modCore c fun y =>
        { y with lanes := y.lanes.set g.val { y.lanes[g.val]! with borrower := some (BitVec.ofNat 2 (slotNum sl)), strip := true } }

/-- The oldest micro-operation of a slot for the exchange port: a bound TSEND, or a request for a remote chunk; under an
eviction those of bound sends and started copies (R174, R285). -/
def State.issueExchange (s : State) (sl : SlotId) : Option State :=
  let k := slotCluster sl
  let start (m : Send) : State := s.modCluster k fun c => { c with xr := { c.xr with
    sends := c.xr.sends.map fun q => if q == m then { q with issued := true } else q } }
  if (s.slot sl).run == .empty || (s.slot sl).halted then none
  else match (s.cluster k).xr.sends.find? (fun m => m.slot == sl && !m.issued), (s.wantedRemote sl).head? with
    | some m, some r => some (if m.instr ≤ r.instr then start m else s.askRemote k r)
    | some m, none => some (start m)
    | none, some r => some (s.askRemote k r)
    | none, none => none

/-- The micro-operation of a slot that is ready for an engine. -/
def State.issueOf (s : State) (eng : Engine) (sl : SlotId) : Option State :=
  match eng with
  | .lane => (s.issueMap sl).or (s.lend sl)
  | .matrix => s.issueMatrix sl
  | .copy => s.issueCopy sl
  | .exchange => s.issueExchange sl

def engineIx : Engine → Fin 4
  | .lane => 0 | .matrix => 1 | .copy => 2 | .exchange => 3

/-- The pointer of an engine moves on (R174): a slot gets its priority plus 1 issues. -/
def State.pointTo (s : State) (c : Nat) (eng : Engine) (n : BitVec 2) : State :=
  let left := (s.slot (slotOf c n.toNat)).lrec.priority.toNat + 1
  s.modCore c fun y => { y with issue := y.issue.set (engineIx eng) (n, left) }

/-- A slot has a micro-operation ready for an engine; a vector-class word that comes next is one for the lane engine. -/
def State.readyFor (s : State) (eng : Engine) (sl : SlotId) : Bool :=
  (s.issueOf eng sl).isSome || (eng == .lane && s.laneReady sl)

/-- Visit the slots of a core until the pointer of an engine stands at one that has a micro-operation ready, and take one of
its issues (R174, R221). -/
def State.visit (c : Nat) (eng : Engine) : Nat → State → Option (BitVec 2 × State)
  | 0, _ => none
  | f + 1, s =>
    let (n, left) := (s.core c).issue[engineIx eng]
    if (s.core c).forfeit.contains (eng, n) then
      State.visit c eng f
        ((s.modCore c fun y => { y with forfeit := y.forfeit.filter fun e => !(e == (eng, n)) }).pointTo c eng (n + 1))
    else if left = 0 then State.visit c eng f (s.pointTo c eng (n + 1))
    else if s.readyFor eng (slotOf c n.toNat) then
      some (n, s.modCore c fun y => { y with issue := y.issue.set (engineIx eng) (n, left - 1) })
    else State.visit c eng f (s.pointTo c eng (n + 1))

/-- MICRO_OP_ISSUE (R174); the issue of a slot's vector-class word is its hart's turn. -/
def State.issue (s : State) (c : Nat) (eng : Engine) : State :=
  if s.coreGone c then s
  else match State.visit c eng 10 s with
    | some (n, t) => (t.issueOf eng (slotOf c n.toNat)).getD s
    | none => s

/-- A block's turn at the lane engine, where its next word is one for it (R174): none while the pointer stands at another
slot of its core, or a strip of an older TMAP or TRED of the slot is ready, which goes first. -/
def State.laneTurn (s : State) (sl : SlotId) : Option State :=
  if !s.laneReady sl then some s
  else if (s.nextStrip sl).isSome then none
  else match State.visit (slotCore sl) .lane 10 s with
    | some (n, t) => if n.toNat = slotNum sl then some t else none
    | none => some s

def execMicroOpIssue (core : CoreId) (eng : Engine) : State → Host.Outcome State Fault Refusal :=
  runStep fun s => s.issue core.toNat eng

end Sys2Proof.Machine
end

