-- ==== Sys2Proof/Machine/Fabric.lean ====
section
/-! DEFINITION. The steps of the fabric: slices and their requests (R403 - R407, R429, R430), watches (R133, R331, R414),
window ports (R29, R336), instruction-line fills (R224), page walks (R439 - R445), snoops and host lines (R412, R413,
R484). -/
namespace Sys2Proof.Machine

/-! ### Requests at a slice (R403 - R407, R429) -/

def sliceServes (i : SliceId) (pa : Nat) : Bool :=
  match regionOf pa with | .hbm _ => sliceOf pa == i.toNat | _ => false

def reqIsRead : ReqOp → Bool
  | .read _ => true
  | _ => false

/-- Bytes that a request reads or writes. -/
def reqLen : ReqOp → Nat
  | .read n => n
  | .write bs => bs.length
  | .amo _ w _ => awidthBytes w
  | .reduce _ w _ => awidthBytes w
  | .cas n _ _ => n
  | .discard => 32

/-- One request performed at its slice (R405, R406): its reply. -/
def State.perform (s : State) (r : Request) : Reply × State :=
  let pa := r.pa
  let n := reqLen r.op
  let out (tag : Option (BitVec 16)) (data : List Byte) (f : Option Cause) : Reply := ⟨r.src, r.seq, tag, data, f⟩
  let wr (s : State) (bs : List Byte) : State := (s.sliceWrite r.src r.seq pa r.hint bs).snoopDone pa
  let tag (s : State) : Option (BitVec 16) := some (s.granule (pa / 32)).ctr
  if s.unreachable pa 0 then (out none [] (some .access), s)
  else if s.pathFenced pa then (out none [] (some .fenced), s)
  else match r.op with
    | .read n =>
      if s.corrupt pa then (out none [] (some .decode), s.badRead pa)
      else
        let s := (s.sliceTouch pa r.hint false false (fromHost r.src)).snoopDone pa
        (out none (Memory.bytes s.mem pa n) none, s)
    | .write bs =>
      if s.corrupt pa && bs.length != 32 then (out none [] (some .decode), s)
      else let s := wr s bs; (out (tag s) [] none, s)
    | .amo op w v =>
      let old := Memory.nat s.mem pa n
      if s.corrupt pa then (out none [] (some .decode), s.badRead pa)
      else
        let s := wr s (bytesOfNat n (amoNew op (awidthBytes w) old v.toNat))
        (out (tag s) (bytesOfNat n old) none, s)
    | .cas n e v =>
      let old := Memory.nat s.mem pa n
      if s.corrupt pa then (out none [] (some .decode), s.badRead pa)
      else
        let s := wr s (bytesOfNat n (if old = e then v else old))
        (out (tag s) (bytesOfNat n old) none, s)
    | .reduce op w v =>
      if s.corrupt pa then (out none [] (some .decode), s.badRead pa)
      else
        let s := wr s (bytesOfNat n (rrsNew op (awidthBytes w) (Memory.nat s.mem pa n) v.toNat))
        (out (tag s) [] none, s)
    | .discard =>
      let s := (s.sliceDiscard r.src r.seq pa).snoopDone pa
      (out (tag s) [] none, s)

/-- A reply leaves for its source; that of a write, atomic, reduce or discard is kept (R404). -/
def Slice.answer (x : Slice) (read : Bool) (p : Reply) : Slice :=
  { x with replies := x.replies ++ [p], kept := if read then x.kept else p :: x.kept }

/-- A request is admitted, the one expected of its source (R429): what its slice keeps is of the last 1,024 that it has
received of the source (R404). -/
def Slice.receive (x : Slice) (r : Request) : Slice :=
  { x with expected := Tbl.set x.expected r.src (r.seq + 1)
           kept := x.kept.filter fun q => q.src != r.src || decide ((r.seq - q.seq).toInt < 1024) }

def State.serve (s : State) (i : Nat) (r : Request) : State :=
  let (p, s) := s.perform r
  s.modSlice i fun x => x.answer (reqIsRead r.op) p

/-- A request that a snoop has failed ends with FENCED (R484). -/
def State.serveFailed (s : State) (i : Nat) (r : Request) (c : Cause) : State :=
  s.modSlice i fun x => x.answer (reqIsRead r.op) ⟨r.src, r.seq, none, [], some c⟩

/-- The snoop that a request at a host-owned granule needs (R412): the request performed or failed, or none while it
waits. -/
def State.trySnoop (s : State) (i : Nat) (r : Request) : Option State × State :=
  match (snoopFor r.src r.pa (!reqIsRead r.op)).run s with
  | .ok none s => (some (s.serve i r), s)
  | .ok (some c) s => (some (s.serveFailed i r c), s)
  | .error _ s => (none, s)

/-- The hints that asked for a line are outstanding no longer (R227). -/
def State.hintDone (s : State) (line : Nat) : State :=
  if s.cores.any fun e => e.2.hints.any fun h => h.1 == line then
    { s with cores := s.cores.map fun e => (e.1, { e.2 with hints := e.2.hints.filter fun h => h.1 != line }) }
  else s

/-- Perform the requests that wait on a line, in arrival order, until one must wait for a snoop (R407, R412). -/
def State.drainLine (s : State) (i line : Nat) : Nat → State
  | 0 => s
  | f + 1 =>
    match (s.slice i).mshr.find? (fun e => e.1 == line) with
    | none => s
    | some (_, []) => (s.hintDone line).modSlice i fun x => { x with mshr := x.mshr.filter fun e => e.1 != line }
    | some (_, r :: rest) =>
      match s.trySnoop i r with
      | (none, s) => s
      | (some s, _) =>
        (s.modSlice i fun x => { x with mshr := x.mshr.map fun e => if e.1 == line then (line, rest) else e }).drainLine i
          line f

/-- A request needs its line filled first (R407, R408): a normal miss that is no write of a whole granule. -/
def State.needsFill (s : State) (i : Nat) (r : Request) : Bool :=
  let x := s.slice i
  !x.fenced && r.hint == .normal && !x.resident.contains (lineOf r.pa)
    && !(match r.op with | .write bs => bs.length == 32 | .discard => true | _ => false)

/-- A request enters granule order: it joins the list of its line, starts a fill, waits, or is performed (R407). `false`:
all 256 miss-status entries are busy. -/
def State.enter (s : State) (i : Nat) (r : Request) : Bool × State :=
  let l := lineOf r.pa
  let x := s.slice i
  let join (s : State) : State :=
    s.modSlice i fun x =>
      if x.mshr.any fun e => e.1 == l then { x with mshr := x.mshr.map fun e => if e.1 == l then (l, e.2 ++ [r]) else e }
      else { x with mshr := x.mshr ++ [(l, [r])] }
  if x.mshr.any fun e => e.1 == l then (true, join s)
  else if s.needsFill i r then (if x.mshr.length < 256 then (true, join s) else (false, s))
  else
    match s.trySnoop i r with
    | (some s, _) => (true, s)
    | (none, s) => (true, join s)

/-- Distance of a request's number from the one its source's slice expects next (R429): negative for a duplicate. -/
def Slice.ahead (x : Slice) (r : Request) : Int := (r.seq - Tbl.get 0 x.expected r.src).toInt

/-- An admitted request enters granule order, or waits in the ingress queue, for an entry or behind one to its granule
(R407). -/
def State.place (s : State) (i : Nat) (r : Request) : State :=
  let wait (s : State) : State := s.modSlice i fun x => { x with waiting := x.waiting ++ [r] }
  if (s.slice i).waiting.any fun q => q.pa / 32 == r.pa / 32 then wait s
  else
    let (ok, s) := s.enter i r
    if ok then s else wait s

/-- Those that wait try again, in arrival order. -/
def State.placeAll (s : State) (i : Nat) : State :=
  let l := (s.slice i).waiting
  if l.isEmpty then s else l.foldl (fun s r => s.place i r) (s.modSlice i fun x => { x with waiting := [] })

/-- Admit one request in sequence order (R404, R429). One that stands too high waits in the ingress queue. -/
def State.takeIn (s : State) (i : Nat) (r : Request) : State :=
  let s := s.modSlice i fun x =>
    { x with kept := x.kept.filter fun p => !(p.src == r.src && decide ((p.seq - r.oldest).toInt < 0)) }
  let x := s.slice i
  let d := x.ahead r
  if d < 0 then
    if reqIsRead r.op then s.place i r
    else match x.kept.find? (fun (p : Reply) => p.src == r.src && p.seq == r.seq) with
      | some p =>
        let s := s.modSlice i fun x => { x with replies := x.replies ++ [p] }
        s.traceAck i r.src r.seq (p.tag.getD 0) true r.pa
      | none => s
  else if 0 < d then
    if x.ingress.any fun q => q.src == r.src && q.seq == r.seq then s
    else s.modSlice i fun x => { x with ingress := x.ingress ++ [r] }
  else (s.modSlice i fun x => x.receive r).place i r

/-- Requests that the missing ones held up are admitted, in arrival order. -/
def State.takeInMore (s : State) (i : Nat) : Nat → State
  | 0 => s
  | f + 1 =>
    match (s.slice i).ingress.find? (fun r => decide ((s.slice i).ahead r ≤ 0)) with
    | none => s
    | some r =>
      ((s.modSlice i fun x => { x with ingress := eraseFirst (· == r) x.ingress }).takeIn i r).takeInMore i f

def sourceWait : Nat := 8 * Config.usClocks

/-- Requests of a source to a slice that are not answered. -/
def State.asked (s : State) (i src : Nat) : Nat := (s.unanswered.filter fun u => u.slice.toNat == i && u.req.src == src).length

/-- A source sends a request, and keeps a copy of it until it is answered; it sends none while it keeps 1,024 (R403). The
request reaches its slice unless the mesh drops it (R422). -/
def State.arriveAt (s : State) (i : Nat) (r : Request) : State :=
  let held (u : Unanswered) : Bool := u.slice.toNat == i && u.req.src == r.src && u.req.seq == r.seq
  let again := s.unanswered.any held || decide ((s.slice i).ahead r < 0)
  if !again && decide (1024 ≤ s.asked i r.src) then s
  else
    let s := if again then s
      else { s with unanswered := s.unanswered ++ [⟨BitVec.ofNat 8 i, { r with lost := false }, 0, s.clock + sourceWait, false⟩] }
    if r.lost then s
    else
      let s := s.takeIn i r
      s.takeInMore i (s.slice i).ingress.length

/-- SLICE_REQUEST_ADMIT (R429). -/
def execSliceRequestAdmit (slice : SliceId) (r : Request) : State → Host.Outcome State Fault Refusal :=
  runStep fun s =>
    if sliceServes slice r.pa && decide (0 < reqLen r.op) && decide (r.pa % 32 + reqLen r.op ≤ 32) then s.arriveAt slice.toNat r else s

/-- COLUMN_LINE_FILL (R407), for the request that asked for it (R450). -/
def State.fillLine (s : State) (i line : Nat) : State :=
  if (s.slice i).mshr.any fun e => e.1 == line then
    let first := ((s.slice i).mshr.find? fun e => e.1 == line).bind fun e => e.2.head?
    let host := match first with | some r => fromHost r.src | none => false
    let s := if (s.slice i).resident.contains line then s else s.sliceTouch line .normal false false host
    let n := ((s.slice i).mshr.map fun e => e.2.length).sum + 1
    (s.drainLine i line n).placeAll i
  else s

def execColumnLineFill (slice : SliceId) (line : Nat) : State → Host.Outcome State Fault Refusal :=
  runStep fun s => s.fillLine slice.toNat line

/-- The first reply of a kind returns to its source, which drops its copy of the request; later copies of it are discarded
there (R403, R404, R430). -/
def State.returnReply (s : State) (i : Nat) (p : Reply → Bool) : State :=
  match (s.slice i).replies.find? p with
  | none => s
  | some a =>
    let s := s.modSlice i fun x => { x with replies := eraseFirst (· == a) x.replies }
    { s with unanswered := s.unanswered.filter fun u => !(u.slice.toNat == i && u.req.src == a.src && u.req.seq == a.seq) }

/-- STORE_ACK (R207, R406). -/
def execStoreAck (slice : SliceId) : State → Host.Outcome State Fault Refusal :=
  runStep fun s => s.returnReply slice.toNat fun p => p.tag.isSome

/-- LOAD_REPLY (R403): data, or the fault that takes its place. -/
def execLoadReply (slice : SliceId) : State → Host.Outcome State Fault Refusal :=
  runStep fun s => s.returnReply slice.toNat fun p => p.tag.isNone

/-- A reply is lost on the mesh (R422): its beat fails its CRC, and the resend of its request recovers it. Which, and when,
the spec leaves open (log 78). -/
def State.loseReply (s : State) (i : Nat) : State :=
  match pick s.free (s.slice i).replies with
  | some p => s.draw.modSlice i fun x => { x with replies := eraseFirst (fun q => q == p) x.replies }
  | none => s

def execReplyLoss (i : Nat) : State → Host.Outcome State Fault Refusal := runStep fun s => s.loseReply i

/-- A source's copy of a request. -/
def State.copyOf (s : State) (slice : SliceId) (src : Nat) (seq : BitVec 16) : Option Unanswered :=
  s.unanswered.find? fun u => u.slice == slice && u.req.src == src && u.req.seq == seq

/-- REQUEST_RESEND (R403): 8 us without an answer. -/
def State.resend (s : State) (slice : SliceId) (src : Nat) (seq : BitVec 16) : State :=
  match s.copyOf slice src seq with
  | none => s
  | some u =>
    let s : State := { s with
      clock := Nat.max s.clock u.deadline
      unanswered := s.unanswered.map fun v =>
        if v == u then { u with resends := u.resends + 1, deadline := Nat.max s.clock u.deadline + sourceWait } else v }
    s.arriveAt slice.toNat u.req

def execRequestResend (slice : SliceId) (src : Nat) (seq : BitVec 16) : State → Host.Outcome State Fault Refusal :=
  runStep fun s => s.resend slice src seq

/-! ### Watches (R414) -/

/-- The watch notice reaches a block: the VWAIT that sleeps on the granule, of its own stream or of its call, wakes to read
its flags again, its watches are cancelled, WAKE is posted. -/
def State.wakeSlot (s : State) (sl : SlotId) (pa : Nat) : State :=
  let x := s.slot sl
  let front := x.run == .asleep && x.wait.granules.contains (pa / 32)
  let own := x.ownGranules.contains (pa / 32)
  if !front && !own then s
  else
    let keep := (if own then [] else x.ownGranules) ++ if x.run == .asleep && !front then x.wait.granules else []
    ((s.dropWatchesBut (.slot sl) keep).postEvent (slotCluster sl) (s.slotEvent sl 7 (BitVec.ofNat 64 pa) 0)).modSlot sl fun x =>
      { x with run := if front then .running else x.run
               call := if own then x.call.map fun c => { c with asleep := false } else x.call }

/-- A watcher reads again what it watches. -/
def State.wake (s : State) (w : Watcher) (pa : Nat) : State :=
  match w with
  | .slot sl => s.wakeSlot sl pa
  | .queue q => s.tailNotice q
  | .coll _ _ => s

/-- WATCH_NOTICE (R414): the oldest notice reaches its watcher. A collective looks at its header at its next part. -/
def State.watchNotice (s : State) : State :=
  match s.notices with
  | [] => s
  | n :: rest => { s with notices := rest }.wake n.who n.pa

def execWatchNotice : State → Host.Outcome State Fault Refusal := runStep State.watchNotice

/-- WATCH_POLL (R414): 1 us has passed for a watcher that found the table full. -/
def State.watchPoll (s : State) (w : Watcher) : State :=
  match s.watches.find? (fun x => x.who == w && x.polls) with
  | none => s
  | some x => { s with clock := s.clock + Config.usClocks }.wake w (x.gran * 32)

def execWatchPoll (w : Watcher) : State → Host.Outcome State Fault Refusal := runStep fun s => s.watchPoll w

/-! ### Window ports (R29, R30, R336) -/

/-- An agent's write at a window port; the block-slot control registers are read-only (R150). -/
def State.windowWrite (s : State) (c off : Nat) (bs : List Byte) (writer : Option SlotId) : State :=
  let pa := coreBase c + off
  if s.coreGone c || off % 32 + bs.length > 32 || bs.isEmpty then s
  else match winPart off with
    | .stream n k o => s.streamIn (slotOf c n) k o bs { writer := writer, fail := { iva := 0, tile := none, elem := none, va := BitVec.ofNat 64 pa } }
    | .ctl _ _ => s
    | _ => s.performWrite (match writer with | some w => corePort (slotCore w) (pa / 32 % 16) | none => portSrc 0) 0 pa .normal bs

/-- WINDOW_PORT_ACCESS (R29): a read changes nothing. -/
def execWindowPortAccess (a : WinAccess) : State → Host.Outcome State Fault Refusal :=
  runStep fun s => match a.data with
    | some bs => if a.off < 0x100000 then s.windowWrite a.core.toNat a.off (bs.take a.n) a.writer else s
    | none => s

/-- STREAM_INBOUND_WRITE (R336). -/
def execStreamInboundWrite (a : WinAccess) : State → Host.Outcome State Fault Refusal :=
  runStep fun s => match a.data, winPart a.off with
    | some bs, .stream _ _ _ => if a.off < 0xE0000 then s.windowWrite a.core.toNat a.off (bs.take a.n) a.writer else s
    | _, _ => s

/-! ### Instruction lines (R224, R227) -/

/-- The granules of a line read for a core, each at its ordering point; none where one cannot be had. -/
def fillGranules (c home : Nat) : List Nat → M Bool
  | [] => return true
  | g :: rest => do
    match ← snoopGate (corePort c (g / 32 % 16)) g false with
    | some _ => return false
    | none =>
      let s ← get
      if s.corrupt g || s.pathFenced g || s.unreachable g home then return false
      set ((s.didRead (corePort c (g / 32 % 16)) home g .normal).snoopDone g)
      fillGranules c home rest

/-- ICACHE_FILL (R224): a line whose fill is in flight arrives, once the host has answered for it (R412). One that cannot be
read is not installed. -/
def State.icacheFill (s : State) (c : Nat) (f : LineFill) : State :=
  match (s.core c).fills.find? fun e => e.1 == f with
  | none => s
  | some e =>
    let drop (s : State) : State := s.modCore c fun y => { y with fills := eraseFirst (· == e) y.fills }
    match (fillGranules c e.2.2 [f.pa, f.pa + 32]).run s with
    | .ok true s => (drop s).modCore c fun y =>
        { y with icache := icInstall y.icache ⟨f.set, f.pa, BitVec.ofNat 512 (Memory.nat s.mem f.pa 64)⟩ }
    | .ok false s => drop s
    | .error _ s => s

def execIcacheFill (core : CoreId) (f : LineFill) : State → Host.Outcome State Fault Refusal :=
  runStep fun s => s.icacheFill core.toNat f

/-! ### Walks ahead of their access (R443 - R445) -/

def dieNum (die : Bool) : Nat := if die then 1 else 0

/-- A walker begins a walk at the deepest walk-cache hit, or at the context entry, as level 6 (R443); a context table that is
not enabled ends it at once (R434). -/
def State.walkBegin (s : State) (d : Nat) (w : WalkReq) : State :=
  match (ctxGate w.va { acc := w.acc }).run s with
  | .error _ _ => s
  | .ok _ _ =>
    let (level, table) := (s.walkHit d w.ctx w.va.toNat).getD (6, 0)
    { s with walks := Tbl.set s.walks d (Tbl.get [] s.walks d ++ [⟨w, level, table, false, false⟩]) }

/-- The cluster of a die that a miss comes from, 16 for the Dispatcher: whose turn it takes (R445). -/
def walkGroup (w : WalkReq) : Nat := match WalkSrcCluster w.src with | some k => k % 16 | none => 16

/-- A free walker of a die takes the oldest queued miss of the next cluster that has one, in turn (R445). -/
def State.walkServe (s : State) (d : Nat) : State :=
  let q := Tbl.get [] s.walkQueue d
  let last := Tbl.get 16 s.walkTurn d
  if 64 ≤ (Tbl.get [] s.walks d).length then s
  else match (List.range' 1 17).findSome? fun i => q.find? fun w => walkGroup w == (last + i) % 17 with
    | none => s
    | some w => { s with walkQueue := Tbl.set s.walkQueue d (eraseFirst (· == w) q)
                         walkTurn := Tbl.set s.walkTurn d (walkGroup w) }.walkBegin d w

/-- PAGE_WALK_START (R443, R445): a miss that no walk matches joins the queue of its die, one of at most 32 of its source, and
a free walker takes one. Its faults are raised only by the access itself, when it is the oldest (R444). -/
def State.walkStart (s : State) (d : Nat) (w : WalkReq) : State :=
  let fetch := match w.acc with | .fetch => true | .ipref => true | _ => false
  let mine := ((Tbl.get [] s.walks d).map (·.req) ++ Tbl.get [] s.walkQueue d).filter fun x => x.src == w.src
  if WalkSrcDie w.src ≠ d || s.walkPending d w.ctx w.va.toNat || 32 ≤ mine.length || 2 ^ 57 ≤ w.va.toNat
      || (s.tlbLookup w.src fetch w.ctx w.va.toNat).1.isSome then s
  else { s with walkQueue := Tbl.set s.walkQueue d (Tbl.get [] s.walkQueue d ++ [w]) }.walkServe d

def execPageWalkStart (die : Bool) (w : WalkReq) : State → Host.Outcome State Fault Refusal :=
  runStep fun s => s.walkStart (dieNum die) w

/-- The use that a walk ahead of its access is checked for: it sets A but never D (R441). -/
def accIsHint : Access → Bool
  | .ipref | .dpref => true
  | _ => false

/-- One entry of a walk: the next level, or a translation. -/
def walkEntry (d : Nat) (x : Walk) : M (Nat × Nat × Bool ⊕ TlbEntry) := do
  let w := x.req
  let u : Use := { acc := w.acc, who := WalkSrcMaker w.src }
  let pa := x.table + 8 * levelIndex x.level x.big w.va.toNat
  if x.level = 6 then return .inl (5, ← walkRoot (walkSource w.src) d w.ctx w.va u, false)
  match ← walkRead (walkSource w.src) pa with
  | .error c => accessFault c w.va x.level w.acc
  | .ok p =>
    if !pteV p || pteReserved x.level x.big p then accessFault .rsvbit w.va x.level w.acc
    if pteL p then
      if !ptePermits p w.acc || (accIsHint w.acc && !pteA p) then accessFault (pageFault w.acc) w.va x.level w.acc
      let e := leafEntry w.ctx w.va.toNat x.level x.big p pa
      match leafCheck (← get) u w.va (entryLoc e w.va.toNat) with
      | some t => trap t
      | none =>
        if ordBad u p then accessFault .ordkind w.va x.level w.acc
        let p' ← if accIsHint w.acc then pure p else setAD (walkSource w.src) pa p w.va x.level { acc := .load }
        return .inr { e with pte := p' }
    else
      if Config.hbmEnd ≤ ptePA p then accessFault .access w.va x.level w.acc
      if !x.marked then modify fun s => s.walkInstall d w.ctx w.va.toNat (x.level - 1) (ptePA p)
      return .inl (x.level - 1, ptePA p, pteT p)

/-- PAGE_WALK_ENTRY_READ (R439): the n-th walk of a die reads its next entry; one that ends frees its walker (R445). A walk marked by a TLBINV installs nothing
(R447). -/
def State.walkStep (s : State) (d n : Nat) : State :=
  match (Tbl.get [] s.walks d)[n]? with
  | none => s
  | some x =>
    let l (s : State) : List Walk := Tbl.get [] s.walks d
    let drop (s : State) : State := { s with walks := Tbl.set s.walks d ((l s).eraseIdx n) }.walkServe d
    match (walkEntry d x).run s with
    | .ok (.inl (lv, table, big)) s =>
      { s with walks := Tbl.set s.walks d (setAt (l s) n { x with level := lv, table := table, big := big }) }
    | .ok (.inr e) s =>
      let fetch := match x.req.acc with | .fetch => true | .ipref => true | _ => false
      if x.marked then drop s else (drop s).tlbFill x.req.src fetch e x.req.va.toNat
    | .error (.trap _) s => drop s
    | .error .stall s => s

def execPageWalkEntryRead (die : Bool) (n : Nat) : State → Host.Outcome State Fault Refusal :=
  runStep fun s => s.walkStep (dieNum die) n

/-! ### Snoops and host lines (R412, R413, R484) -/

/-- Requests that waited for a snoop of a host line go on. -/
def State.afterSnoop (s : State) (line : Nat) : State :=
  [line * 64, line * 64 + 32].foldl (fun s pa =>
    let i := sliceOf pa
    let x := s.slice i
    if x.mshr.any (fun e => e.1 == lineOf pa) && (x.resident.contains (lineOf pa) || x.fenced) then
      s.drainLine i (lineOf pa) ((x.mshr.map fun e => e.2.length).sum + 1)
    else s) s

/-- The host's dirty data of a line it owns is merged, as host writes. -/
def State.hostMerge (s : State) (line : Nat) (data : Option (BitVec 512)) : State :=
  match data with
  | some d =>
    let bs := bytesOfNat 64 d.toNat
    let src := portSrc (hbmDie (line * 64))
    (s.performWrite src 0 (line * 64) .normal (bs.take 32)).performWrite src 0 (line * 64 + 32) .normal (bs.drop 32)
  | none => s

/-- BISNP_RESPONSE (R412): the host's dirty data is merged first; after a BISnpInv both granules' bits are clear. The access
that waits keeps its place. A response that comes after the snoop has failed loses no data (R484). -/
def State.snoopAnswer (s : State) (line : Nat) (data : Option (BitVec 512)) : State :=
  match s.snoops.find? (fun x => x.line == line && !x.answered && !x.failed) with
  | none => if s.hostOwned (line * 64) then s.hostMerge line data else s
  | some x =>
    let s := s.hostMerge line data
    let s := if x.inv then
        (s.modGran (2 * line) fun g => { g with owned := false }).modGran (2 * line + 1) fun g => { g with owned := false }
      else s
    let s := if settleWaiter 0 ≤ x.who then { s with snoops := s.snoops.filter fun y => y != x }
      else { s with snoops := s.snoops.map fun y => if y == x then { y with answered := true } else y }
    s.afterSnoop line

def execBisnpResponse (line : Nat) (data : Option (BitVec 512)) : State → Host.Outcome State Fault Refusal :=
  runStep fun s => s.snoopAnswer line data

/-- SNOOP_TIMEOUT (R484): sent again at 100 us; at 1 ms the access that waits ends with FENCED and the line is reported. -/
def State.snoopTimeout (s : State) (line : Nat) : State :=
  match s.snoops.find? (fun x => x.line == line && !x.answered && !x.failed) with
  | none => s
  | some x =>
    let sent := x.deadline - Config.msClocks
    if s.clock < sent + 100 * Config.usClocks then { s with clock := sent + 100 * Config.usClocks }
    else
      let s := { s with clock := Nat.max s.clock x.deadline
                        snoops := s.snoops.map fun y => if y == x then { y with failed := true } else y }
      (s.logHealth (portCode (hbmDie (line * 64))) 6 0 (line * 64)).afterSnoop line

def execSnoopTimeout (line : Nat) : State → Host.Outcome State Fault Refusal := runStep fun s => s.snoopTimeout line

def portNum (p : Bool) : Nat := if p then 1 else 0

/-- HOST_CACHE_SNOOP (R413, R414): the host takes a line, which counts as a write for its watches. -/
def execHostCacheSnoop (p : Bool) (line : Nat) : State → Host.Outcome State Fault Refusal :=
  runStep fun s => s.dropLine (portNum p) line

/-- HOST_LINE_GRANT (R413): a line comes, shared or owned, with the bytes that the host's own writes have given it where no
port held it; a line that is new has its counters at 0 (R406). -/
def State.hostGrant (s : State) (p line : Nat) (own : Bool) (data : Option (BitVec 512)) : State :=
  if (s.port p).lines.any fun y => y.line == line then
    (if own then (s.otherPort p line true).hostCount p (line * 64) true else s).modPort p fun x =>
      { x with lines := x.lines.map fun y => if y.line == line then { y with owned := y.owned || own } else y }
  else match regionOf (line * 64) with
    | .host _ =>
      let s := match data with
        | some d => if (s.port (1 - p)).lines.any fun y => y.line == line then s
          else s.setMem (Memory.putAll s.mem (line * 64) (bytesOfNat 64 d.toNat))
        | none => s
      (((s.otherPort p line own).hostCount p (line * 64) own).modPort p fun x =>
        { x with lines := { line := line, owned := own, dirty := false } :: x.lines }).trimLines p
    | _ => s

def execHostLineGrant (p : Bool) (line : Nat) (grant : LineGrant) : State → Host.Outcome State Fault Refusal :=
  runStep fun s => s.hostGrant (portNum p) line grant.own grant.data

end Sys2Proof.Machine
end

