-- ==== Sys2Proof/Machine/Base.lean ====
section
/-! DEFINITION. The steps of the base dies (R449 - R463) and of the host ports' access counters (R492). -/
namespace Sys2Proof.Machine

/-! ### Requests (R450 - R452) -/

def baseServes (b : BaseId) (pa : Nat) : Bool :=
  match regionOf pa with | .hbm _ => baseOf pa == b.toNat | _ => false

/-- PA of the granule a request names. -/
def reqGran (r : BaseReq) : Nat := r.pa / 32 * 32

/-- A tag of a slice's read or write queue is free (R450): there are 384 and 256, each held until its completion arrives. -/
def BaseDie.tagFree (x : BaseDie) (slice : Nat) (write : Bool) (tag : Nat) : Bool :=
  decide (tag < if write then 256 else 384) && !(x.done.any fun d => d.slice == slice && d.write == write && d.tag == tag)
    && (write || !((x.sectors.any fun e => e.2.any fun q => q.1 == tag && sectorSlice e.1 q.2 == slice)
      || x.heldSectors.any fun e => e.1 == tag && sectorSlice e.2.1 e.2.2 == slice))

/-- A request that meets a fenced or a retired channel (R426, R507). -/
def State.channelFault (s : State) (pa : Nat) : Option Cause :=
  if s.unreachable pa 0 then some .access else if s.pathFenced pa then some .fenced else none

/-- A request of a slice to its base die, under a free tag of its queue: refused on its channel, or performed there. -/
def State.baseRequest (s : State) (b : BaseId) (r : BaseReq) (write : Bool) (f : State → BaseDone × State) : State :=
  if !baseServes b r.pa || !(s.base b.toNat).tagFree (sliceOf r.pa) write r.tag then s
  else match s.channelFault r.pa with
    | some c => s.baseDone b.toNat ⟨r.tag, 0, 0, false, some (c, 0), sliceOf r.pa, write⟩
    | none => let (d, s) := f s; s.baseDone b.toNat d

/-- A completion of the write queue. -/
def ackOf (r : BaseReq) (err : Option (Cause × BitVec 4)) : BaseDone := ⟨r.tag, 0, r.ctr, false, err, sliceOf r.pa, true⟩

/-- BASE_READ (R450 - R452): what the base die holds. -/
def State.baseRead (r : BaseReq) (s : State) : BaseDone × State :=
  let g := s.granule (reqGran r / 32)
  let d := s.dram (reqGran r / 32)
  let s := s.baseCount (reqGran r) r.host
  if d.2 then (⟨r.tag, 0, 0, false, some (.decode, 0), sliceOf r.pa, false⟩, s.badRead (reqGran r))
  else (⟨r.tag, if g.zero then 0 else BitVec.ofNat 256 (natOfBytes d.1), g.ctr, g.zero, none, sliceOf r.pa, false⟩, s)

def execBaseRead (b : BaseId) (r : BaseReq) : State → Host.Outcome State Fault Refusal :=
  runStep fun s => s.baseRequest b r false (State.baseRead r)

/-- The bytes of a granule after a WRITE under its byte mask. -/
def mergeMask (old : List Byte) (r : BaseReq) : List Byte :=
  (List.range 32).map fun i => if r.mask.getLsbD i then BitVec.ofNat 8 (bits r.data.toNat (8 * i) 8) else old.getD i 0

/-- The base die's copy of a granule becomes `bs`, with its counter and its zero-on-read mark; where the slice holds newer
bytes in a dirty line, those stand (R408, R451). -/
def State.dramPut (s : State) (r : BaseReq) (bs : List Byte) (zero : Bool) : State :=
  let s := s.baseStore (reqGran r) r.host
  match (s.granule (reqGran r / 32)).below with
  | some _ => s.modGran (reqGran r / 32) fun g => { g with below := some (BitVec.ofNat 256 (natOfBytes bs), false) }
  | none => (s.setMem (Memory.putAll s.mem (reqGran r) bs)).modGran (reqGran r / 32) fun g =>
      { g with ctr := r.ctr, zero := zero, bad := g.bad && !(zero || r.mask == 0xFFFFFFFF), media := false }

/-- BASE_WRITE (R450, R452, R460): merged with the stored bytes; a partial one of uncorrectable data fails (R425). -/
def State.baseWrite (r : BaseReq) (s : State) : BaseDone × State :=
  let d := s.dram (reqGran r / 32)
  if d.2 && r.mask != 0xFFFFFFFF then (ackOf r (some (.decode, 0)), s.baseCount (reqGran r) r.host)
  else (ackOf r none, s.dramPut r (mergeMask d.1 r) false)

def execBaseWrite (b : BaseId) (r : BaseReq) : State → Host.Outcome State Fault Refusal :=
  runStep fun s => s.baseRequest b r true (State.baseWrite r)

/-- BASE_DISCARD (R410): the granule is marked zero-on-read. -/
def State.baseDiscard (r : BaseReq) (s : State) : BaseDone × State := (ackOf r none, s.dramPut r (zeros 32) true)

def execBaseDiscard (b : BaseId) (r : BaseReq) : State → Host.Outcome State Fault Refusal :=
  runStep fun s => s.baseRequest b r true (State.baseDiscard r)

/-! ### Sectors (R457, R458, R460) -/

/-- BASE_SECTOR (R458). -/
def State.baseSector (s : State) (b tag stripe : Nat) (col : BitVec 4) : State := s.askSector b tag stripe col

def execBaseSector (b : BaseId) (tag stripe : Nat) (col : BitVec 4) : State → Host.Outcome State Fault Refusal :=
  runStep fun s =>
    if baseServes b (stripe * 512) && (s.base b.toNat).tagFree (sectorSlice stripe col) false tag then
      s.baseSector b.toNat tag stripe col
    else s

/-- SECTOR_DECODE_DONE (R457, R458): one of the four decodes under way, those of the oldest stripes, ends and answers every
request that merged with it; which is a free choice (log 3). -/
def State.decodeDone (s : State) (b : Nat) : State :=
  match pick s.free ((s.base b).sectors.take 4) with
  | none => s
  | some e => (s.draw.endDecode e.1).2

def execSectorDecodeDone (b : BaseId) : State → Host.Outcome State Fault Refusal :=
  runStep fun s => s.decodeDone b.toNat

/-- BASE_COMPLETION (R450): a completion, in any order (log 3), returns to its slice, and its tag is free. -/
def State.complete (s : State) (b : Nat) : State :=
  match pick s.free (s.base b).done with
  | none => s
  | some d => s.draw.modBase b fun x => { x with done := eraseFirst (fun e => e == d) x.done }

def execBaseCompletion (b : BaseId) : State → Host.Outcome State Fault Refusal :=
  runStep fun s => s.complete b.toNat

/-! ### SETTLE (R461) -/

/-- Host lines of a range of a die's HBM that the host owns a granule of. -/
def State.ownedIn (s : State) (d : Nat) (r : Nat × Nat) : List Nat :=
  (s.gran.filterMap fun e =>
    let pa := e.1 * 32
    if e.2.owned && s.hostOwned pa && hbmDie pa == d && decide (r.1 ≤ pa) && decide (pa < r.1 + r.2) then some (e.1 / 2) else none).eraseDups

/-- The snoops that recover the host's data (R412); one that timed out is sent again. -/
def State.settleSnoops (s : State) (d : Nat) (r : Nat × Nat) : State :=
  (s.ownedIn d r).foldl (fun s l =>
    let s : State := { s with snoops := s.snoops.filter fun x => !(x.line == l && x.inv && x.failed) }
    if (s.snoops.any fun x => x.line == l && x.inv) || !s.snoopRoom (l * 64) then s
    else { s with snoops := s.snoops ++ [Snoop.mk l true false (s.clock + Config.msClocks) false (settleWaiter d)] }) s

/-- A write of a SETTLE register: the range, and a go that starts a settle unless one is under way. -/
def State.settleGo (s : State) (d : Nat) (v : Word) : State :=
  let base := bits v.toNat 12 40
  let pages := bits v.toNat 52 12
  let s := s.modSettle d fun x => { x with base := BitVec.ofNat 40 base, pages := BitVec.ofNat 12 pages }
  if v.getLsbD 0 && (s.settleReg d).range.isNone then
    let r := (base * 4096, (pages + 1) * 4096)
    (s.modSettle d fun x => { x with range := some r }).settleSnoops d r
  else s

def execSettleGo (die : Bool) (v : Word) : State → Host.Outcome State Fault Refusal :=
  runServing fun s => s.settleGo (dieNum die) v

/-- A granule lies in a range of a die's HBM. -/
def inSettle (d : Nat) (r : Nat × Nat) (pa : Nat) : Bool :=
  (match regionOf pa with | .hbm e => e == d | _ => false) && decide (r.1 ≤ pa) && decide (pa < r.1 + r.2)

/-- Dirty lines of the range are written back, buffered sectors dropped, and a decode under way goes on with the settled bytes,
so that every read after the settle decodes those (R460). -/
def State.settleRange (s : State) (d : Nat) (r : Nat × Nat) : State :=
  let s := (List.range 80).foldl (fun s j =>
    let i := d * 80 + j
    ((s.slice i).dirty.filter fun l => (lineGranules l).any (inSettle d r)).foldl (fun s l => s.writeBack i l) s) s
  let meets (st : Nat) : Bool := inSettle d r (st * 512)
  (List.range 5).foldl (fun s j => s.modBase (d * 5 + j) fun x =>
    { x with buffer := x.buffer.filter fun e => !meets e.1, stale := x.stale.filter fun e => !meets e.1 }) s

/-- SETTLE_COMPLETE (R461): once the host holds nothing of the range. -/
def State.settleComplete (s : State) (d : Nat) : State :=
  match (s.settleReg d).range with
  | none => s
  | some r =>
    if (s.ownedIn d r).isEmpty then (s.settleRange d r).modSettle d fun x => { x with range := none }
    else s.settleSnoops d r

def execSettleComplete (die : Bool) : State → Host.Outcome State Fault Refusal :=
  runStep fun s => s.settleComplete (dieNum die)

/-! ### Access counters (R462, R463, R492) -/

/-- Every entry is freed; with a dump under way, after it. -/
def Counters.clear (c : Counters) : Counters := if c.busy then { c with clearAfter := true } else { c with entries := [] }

/-- A write of ACCTL or HACCTL (R463). -/
def Counters.writeCtl (c : Counters) (v : Word) : Counters :=
  let c := { c with en := v.getLsbD 0, dev := v.getLsbD 1, host := v.getLsbD 2, sample := BitVec.ofNat 4 (bits v.toNat 4 4) }
  if v.getLsbD 3 then c.clear else c

/-- A dump starts. -/
def Counters.go (c : Counters) : Counters := if c.busy then c else { c with busy := true, target := c.buffer }

/-- A write of ACDUMP or HACDUMP (R10, R463); the dump under way goes where it began. -/
def Counters.writeDump (c : Counters) (v : Word) : Counters :=
  let c := { c with buffer := BitVec.ofNat 40 (bits v.toNat 12 40) }
  if v.getLsbD 0 then c.go else c

/-- The 16 bytes of an entry, or of a free one (R463). -/
def Counters.entryBytes (c : Counters) (i : Nat) : List Byte :=
  match c.entries[i]? with
  | none => zeros 16
  | some e => bytesOfNat 8 (e.1 * 65536 + 1) ++ bytesOfNat 2 e.2.1.toNat ++ bytesOfNat 2 e.2.2.toNat ++ zeros 4

/-- The records of a dump that have not been written: those from granule n on, two to a granule. A fenced unit, and a
missing port, hold it up; an address that cannot be reached loses its record (R426, R463, R485). -/
def dumpFrom (c : Counters) : Nat → Nat → M Unit
  | 0, _ => return ()
  | f + 1, n => do
    let pa := c.target.toNat * 4096 + n * 32
    let r ← attempt (devCheck true 1 pa 32)
    match r with
    | .ok _ => modify fun s => s.devPut pa (c.entryBytes (2 * n) ++ c.entryBytes (2 * n + 1)) 1
    | .error .stall => stall
    | .error (.trap t) => if t.cause = .fenced then stall
    dumpFrom c f (n + 1)

/-- Run a dump: `true` when every record is written. -/
def State.dump (s : State) (c : Counters) : Bool × State :=
  match (dumpFrom c 512 0).run s with
  | .ok _ s => (true, s)
  | .error _ s => (false, s)

def Counters.dumped (c : Counters) : Counters :=
  { c with busy := false, entries := if c.clearAfter then [] else c.entries, clearAfter := false }

/-- ACCTL_CLEAR (R463). -/
def execAcctlClear (b : BaseId) : State → Host.Outcome State Fault Refusal :=
  runServing fun s => s.modBase b.toNat fun x => { x with ac := x.ac.clear }

/-- ACDUMP_GO (R463). -/
def execAcdumpGo (b : BaseId) : State → Host.Outcome State Fault Refusal :=
  runServing fun s => s.modBase b.toNat fun x => { x with ac := x.ac.go }

/-- ACDUMP_COMPLETE (R463). -/
def State.acDump (s : State) (b : Nat) : State :=
  if (s.base b).ac.busy then
    let (done, s) := s.dump (s.base b).ac
    if done then s.modBase b fun x => { x with ac := x.ac.dumped } else s
  else s

def execAcdumpComplete (b : BaseId) : State → Host.Outcome State Fault Refusal :=
  runStep fun s => s.acDump b.toNat

/-- HACCTL_CLEAR (R492). -/
def execHacctlClear (p : Bool) : State → Host.Outcome State Fault Refusal :=
  runStep fun s => s.modPort (portNum p) fun x => { x with hac := x.hac.clear }

/-- HACDUMP_GO (R492). -/
def execHacdumpGo (p : Bool) : State → Host.Outcome State Fault Refusal :=
  runStep fun s => s.modPort (portNum p) fun x => { x with hac := x.hac.go }

/-- HACDUMP_COMPLETE (R492). -/
def State.hacDump (s : State) (p : Nat) : State :=
  if (s.port p).hac.busy then
    let (done, s) := s.dump (s.port p).hac
    if done then s.modPort p fun x => { x with hac := x.hac.dumped } else s
  else s

def execHacdumpComplete (p : Bool) : State → Host.Outcome State Fault Refusal :=
  runStep fun s => s.hacDump (portNum p)

/-! ### Registers of a base die (R461, R463) -/

def BaseDie.write (x : BaseDie) (off : Nat) (v : Word) : BaseDie :=
  if off = 0x10 then { x with ac := x.ac.writeCtl v } else if off = 0x18 then { x with ac := x.ac.writeDump v } else x

end Sys2Proof.Machine
end

