-- ==== Sys2Proof/Machine/Health.lean ====
section
/-! DEFINITION. Health and containment (R493 - R507): fencing, resets, boot, power, the health log; the steps that lead to
them at Stewards, Porters and paths (R270, R494). -/
namespace Sys2Proof.Machine

/-! ### Records lost with a Steward (R499, log 18) -/

def State.records (s : State) (k : Nat) : List EventRec :=
  let c := s.cluster k
  ((List.range c.count).map fun i =>
    EventRec.ofBytes (Memory.bytes s.mem (eventPA k (c.head + BitVec.ofNat 64 i)) 32)) ++ c.held

/-- A child of an evicted block is asked for again where the block goes. -/
def State.keepChild (s : State) (k : Nat) (e : EventRec) : State :=
  s.modCluster k fun c => { c with pending := c.pending.map fun p => if p.named e then { p with child := some e } else p }

/-- What a record says that must not be lost: outcomes of blocks, ends of parks, a child of an evicted block. -/
def State.accountRecord (s : State) (k : Nat) (e : EventRec) : State :=
  if e.typ = 2 then s.eventLaunch e fun l => { l with ended := l.ended + 1 }
  else if e.typ = 3 then s.trapEvent k e
  else if e.typ = 5 then s.replayToken k e.a
  else if e.typ = 8 then s.keepChild k e
  else s

/-- A Steward's records are accounted and its queue is empty. -/
def State.drainEvents (s : State) (k : Nat) : State :=
  let s := (s.records k).foldl (fun s e => s.accountRecord k e) s
  let s := (s.cluster k).again.foldl (fun s e => s.keepChild k e) s
  s.modCluster k fun c => { c with head := c.tail, held := [], again := [], pending := c.pending.map fun p => { p with seen := true } }

/-! ### Fencing of each kind of unit (R496) -/

/-- A FENCE record (R145). -/
def fenceEvent (u : UnitCode) : EventRec := { typ := 12, a := u.zeroExtend 64 }

/-- A core (R286, R294, R373, R496): its slots stop, which their launches report (R139), evictions are abandoned, its lane
groups are disabled, its Sett table and names are discarded, remote reads of it fail. -/
def State.fenceCore (s : State) (c : Nat) : State :=
  let s := ((s.core c).postings.filter (·.bound)).foldl (fun s p => (p.sender.map fun m => s.endPosting c m).getD s) s
  let s := s.modCore c fun y =>
    { y with fenced := true, sett := [], dens := [], postings := []
             lanes := y.lanes.map fun e => { e with enabled := false, borrower := none, strip := false } }
  let k := coreCluster c
  let s := s.modCluster k fun y =>
    { y with xr := { y.xr with remote := y.xr.remote.filter fun r => k * 8 + r.owner.toNat != c && slotCore r.reader != c } }
  let s := ((s.cluster k).xr.sends.filter fun m => slotCore m.slot == c).foldl (fun s m => s.endSend k m) s
  (List.range 4).foldl (fun s n =>
    let sl := slotOf c n
    let s := s.dropWatches (.slot sl)
    let x := s.slot sl
    let s := if x.run = .empty || x.halted then s
      else s.modLaunch x.queue x.number fun l => { l with fencedpart := true }
    if (s.slot sl).run = .evicting then s.modSlot sl fun x => { x with evict := none, inFlight := 0, run := .running }
    else s.modSlot sl fun x => { x with evict := none, inFlight := 0 }) s

/-- A command of a fenced Porter (R263): one that is started stops with FENCED; a refill ends its stream; any other passes
to a substitute, or stops. -/
def State.passCmd (s : State) (k : Nat) (c : Cmd) : State :=
  let drop (s : State) : State := s.modCmds k fun l => l.filter fun d => d.id != c.id
  match c.src with
  | .refill kq => (drop s).endStream c.slot kq .fenced
  | .tile =>
    if c.started || c.park.isSome then
      if c.stopped.isSome then s
      else s.stopCmd k { c with started := true } .fenced (c.park.map fun p => p.2.2) c.owesWrite
    else s.passOn k c

/-- A Porter (R263). -/
def State.fencePorter (s : State) (k : Nat) : State :=
  let s := s.modCluster k fun c => { c with porter := { c.porter with fenced := true } }
  (s.cluster k).porter.cmds.foldl (fun s c => s.passCmd k c) s

/-- Clusters that a Porter's fence concerns (R496): its own, those whose commands it has, and those it is the substitute of. -/
def State.porterClusters (s : State) (k : Nat) : List Nat :=
  (k :: (((s.cluster k).porter.cmds.map fun c => c.home.toNat)
    ++ (List.range 32).filter fun j => s.servingPorter j == some k || s.fwPorter j == some k)).eraseDups

/-- Blocks pending on a Steward go back to the Dispatcher (R496). -/
def State.returnPending (s : State) (k : Nat) (keep : Pending → Bool) : State :=
  let ps := (s.cluster k).pending.filter fun p => !keep p
  let s := s.modCluster k fun c => { c with pending := c.pending.filter keep }
  ps.foldl (fun s p => s.modLaunch p.queue p.number fun l =>
    { l with back := l.back ++ [p.wid], backAge := l.backAge ++ [(p.wid, p.level, p.since, p.reached)]
             images := if p.image.isSome then l.images ++ [{ p with stood := none }] else l.images }) s

/-- A Steward, with its cluster (R496). -/
def State.fenceSteward (s : State) (k : Nat) : State :=
  let cores := (List.range 8).map (k * 8 + ·)
  let s := cores.foldl (fun s c => if s.coreGone c then s else s.fenceCore c) s
  let s := if (s.cluster k).porter.fenced then s else s.fencePorter k
  let s := s.drainEvents k
  let s := (List.range 32).foldl (fun s i => s.interrupt (BitVec.ofNat 10 (k * 32 + i)) true) s
  (s.returnPending k fun _ => false).modCluster k fun c => { c with fenced := true }

/-- Every dirty line of a slice is written back; granules with data it cannot read enter the bad-granule table, where
memory keeps them marked (R425, R426). -/
def State.flushSlice (s : State) (i : Nat) : State :=
  (s.slice i).dirty.foldl (fun s l => s.writeBack i l) s

/-- A slice runs its channels uncached (R426); the requests that waited for a fill go on. -/
def State.fenceSlice (s : State) (i : Nat) : State :=
  let s := (s.flushSlice i).modSlice i fun x => { x with fenced := true, resident := [] }
  let s := (s.slice i).mshr.foldl (fun s e => s.drainLine i e.1 (((s.slice i).mshr.map fun e => e.2.length).sum + 1)) s
  s.takeInMore i (s.slice i).ingress.length

/-! ### A port that is lost (R486, R487) -/

/-- Device memory words of the driver queues that a lost port carried (R487): fault entries from the head last read to the
tail, the tail, the last done word. -/
def State.driverWords (s : State) : List (DriverQ × Nat × List Byte) :=
  let f := s.drv.fault
  let d := s.drv.inval
  let at_ (q : DriverQ) (pa n : Nat) : DriverQ × Nat × List Byte := (q, pa, Memory.bytes s.mem pa n)
  let entries := if f.enabled then
      (List.range (f.tail - f.head).toNat).map fun i => at_ .fault (f.ring + (f.head.toNat + i) % 2 ^ f.log2 * 128) 128
    else []
  let tail := if f.enabled then [at_ .fault f.tailPA 8] else []
  let done := if d.enabled && s.drv.lastDone.isSome then [at_ .inval d.donePA 8] else []
  entries ++ tail ++ done

/-- A lost dirty line: the host's bytes stand, and each access that had written it is a failed write (R173, R486). -/
def State.loseLine (s : State) (y : HostLine) : State :=
  let s := s.setMem (Memory.putAll s.mem (y.line * 64) y.before)
  let s := s.notifyRange (y.line * 64) 64
  y.writers.foldl (fun s w =>
    let x := s.slot w.slot
    let s := if x.run != .empty && x.queue == w.queue && x.number == w.number && x.wid == w.wid then
        s.recordFailed w.slot w.fail w.fail.elem.isSome
      else s
    s.modLaunch w.queue w.number fun l => { l with fencedpart := true }) s

/-- A driver queue whose words cannot be written again is disabled and logged with cause 11 (R512); nothing is dropped: fault
entries are held again, and the done word waits for the queue to be enabled. -/
def State.rewriteFails (s : State) (q : DriverQ) (pa : Nat) : State :=
  let mine := s.drv.rewrite.filter fun e => e.1 == q
  let d := { s.drv with rewrite := s.drv.rewrite.filter fun e => e.1 != q }
  let d := match q with
    | .fault => { d with fault := { d.fault.off with
        held := (mine.filter fun e => e.2.2.length == 128).map (fun e => e.2.2) ++ d.fault.held } }
    | .replay => { d with replay := d.replay.off }
    | .inval => { d with inval := d.inval.off, orphan := true
                         pending := d.pending.or (d.lastDone.map fun n => ([], 0, 0, n)) }
  { s with drv := d }.logHealth 0 11 0 pa

/-- Write again what a lost port held of the driver queues, once a port serves (R487). -/
def State.flushRewrites (s : State) : Nat → State
  | 0 => s
  | f + 1 =>
    if s.healthPort.isNone then s else
    match s.drv.rewrite with
    | [] => s
    | (q, pa, bs) :: rest =>
      match (devCheck true 6 pa bs.length).run s with
      | .error .stall s => s
      | .error (.trap t) s => (s.rewriteFails q t.va.toNat).flushRewrites f
      | .ok _ s =>
        let s := s.devPut pa bs 6
        State.flushRewrites { s with drv := { s.drv with rewrite := rest } } f

/-- The host-line cache of a port is lost, and those who watch its lines are told; the driver queues go on through the other port (R486, R487). -/
def State.losePort (s : State) (p : Nat) (was : State) : State :=
  let lost := (s.port p).lines.filter fun y => y.dirty
  let words := if was.healthPort = some p then s.driverWords else []
  let clean := (s.port p).lines.filter fun y => !y.dirty
  let s := lost.foldl State.loseLine (s.modPort p fun x => { x with lines := [] })
  let s := clean.foldl (fun s y => s.notifyRange (y.line * 64) 64) s
  State.flushRewrites { s with drv := { s.drv with rewrite := s.drv.rewrite ++ words } } (words.length + s.drv.rewrite.length)

/-! ### Warm device reset (R501, R503) -/

/-- A core after a core reset: what is fused or fenced stays so. -/
def Core.reset (c : Core) : Core :=
  { fused := c.fused, fenced := c.fenced
    lanes := Vector.replicate 16 { enabled := !c.fenced && !c.fused } }

/-- The Ferry at rest: no helm, no plan, the split at FCTL.rest (R466, R501); removed crossings stay removed. -/
def Ferry.atRest (f : Ferry) : Ferry :=
  let t := f.clamp f.rest.toNat
  let east := f.inRotation.take t
  { rest := f.rest, hold := f.hold
    xings := Vector.ofFn fun c =>
      let x := f.xings[c]
      { dir := if x.rotation then east.contains c else x.dir, rotation := x.rotation, spares := x.spares
        state := if x.state = .removed then .removed else .active } }

/-- A cluster after a warm reset: its evicted blocks stay pending. -/
def Cluster.reset (c : Cluster) : Cluster :=
  { fenced := c.fenced, pending := c.pending.map fun p => if p.ready then { p with child := none } else p
    again := (c.pending.filter (·.ready)).filterMap (·.child), porter := { fenced := c.porter.fenced } }

/-- The blocks of a cluster at a warm reset (R501): those that are resident count as interrupted, those sent and not placed
go back. -/
def State.resetBlocks (s : State) (k : Nat) : State :=
  let s := (List.range 32).foldl (fun s i => s.modSlot (BitVec.ofNat 10 (k * 32 + i)) fun x => { x with evict := none }) s
  let s := s.drainEvents k
  let s := (List.range 32).foldl (fun s i => s.interrupt (BitVec.ofNat 10 (k * 32 + i)) true) s
  s.returnPending k fun p => p.image.isSome

/-- A slice after a warm reset: its lines clean, its sources' requests gone. -/
def Slice.reset (x : Slice) : Slice := { fenced := x.fenced, resident := x.resident }

/-- Window order counters are 0 at core reset (R406). -/
def windowGranule (g : Nat) : Bool := decide (Config.coreWin ≤ g * 32)

def mapTbl {α : Type} (f : α → α) (t : Tbl α) : Tbl α := t.map fun e => (e.1, f e.2)

/-- A warm device reset begins (R503). -/
def State.warmReset (s : State) : State :=
  if s.health.busy then s
  else
    let s := (List.range 160).foldl (fun s i => s.flushSlice i) s
    let s := (List.range 32).foldl (fun s k => s.resetBlocks k) s
    let q (x : Queue) : Queue := { x with park := none }
    let l (x : Launch) : Launch := { x with level := x.lrec.priority, since := s.clock, backAge := [] }
    { s with
      gran := s.gran.map fun e => if windowGranule e.1 then (e.1, { e.2 with ctr := 0 }) else e
      resetAt := s.clock
      slots := []
      cores := mapTbl Core.reset s.cores
      clusters := mapTbl Cluster.reset s.clusters
      disp := { queues := mapTbl q s.disp.queues, launches := s.disp.launches.map l }
      ctxCache := [], walkCaches := [], walks := [], walkQueue := [], walkTurn := [], watches := [], notices := [], snoops := [], unanswered := []
      slices := mapTbl Slice.reset s.slices
      bases := mapTbl (fun (x : BaseDie) => { x with sectors := [], stale := [], done := [] }) s.bases
      ferry := s.ferry.atRest
      drv := { s.drv with pending := s.drv.pending.map fun p => ([], p.2) }
      health := { s.health with busy := true } }

/-- HRESET_WARM (R503, R507). -/
def execHresetWarm : State → Host.Outcome State Fault Refusal := runStep State.warmReset

/-- FUNCTION_LEVEL_RESET (R503). -/
def execFunctionLevelReset : State → Host.Outcome State Fault Refusal := runStep State.warmReset

/-- DISPATCHER_OR_HEALTH_FAULT (R498). -/
def execDispatcherOrHealthFault : State → Host.Outcome State Fault Refusal := runStep State.warmReset

/-! ### Fencing a unit (R495, R496) -/

/-- Parts of a unit code. -/
def codeKind (u : UnitCode) : Nat := u.toNat % 16
def codeDie (u : UnitCode) : Nat := bits u.toNat 4 1
def codeIndex (u : UnitCode) : Nat := bits u.toNat 5 8

/-- The unit codes of R495. -/
def codeOk (u : UnitCode) : Bool :=
  let i := codeIndex u
  u == unitCode (codeKind u) (codeDie u) i &&
    match codeKind u with
    | 1 => decide (i < 128)
    | 2 | 3 => decide (i < 16)
    | 4 => decide (i < 80)
    | 5 => decide (i < 160)
    | 6 => decide (i < 48) && codeDie u == 0
    | 7 => decide (i < 2) && codeDie u == i
    | _ => false

/-- The number of a unit among all of its kind. -/
def codeNumber (u : UnitCode) : Nat :=
  codeDie u * (match codeKind u with | 1 => 128 | 2 | 3 => 16 | 4 => 80 | 5 => 160 | _ => 0) + codeIndex u

/-- A unit is fenced already, or fused off. -/
def State.isFenced (s : State) (u : UnitCode) : Bool :=
  s.health.fenced.contains u || (let n := codeNumber u
    match codeKind u with
    | 1 => s.coreGone n
    | 2 => (s.cluster n).fenced
    | 3 => (s.cluster n).porter.fenced
    | _ => false)

/-- The blocks of a fenced core under a Steward that runs code of its own: a restartable one waits on it to be placed again from
its entry, and its slot is free; what the others count as, CQPUSH says (R149, R151, R496). -/
def State.codeFence (s : State) (c : Nat) : State :=
  let k := coreCluster c
  if !(s.cluster k).steward.code then s
  else (List.range 4).foldl (fun s n =>
    let sl := slotOf c n
    let x := s.slot sl
    if x.run = .empty || x.halted then s
    else
      let s := if x.lrec.restartable then s.modCluster k fun c => { c with pending := c.pending ++
          [{ queue := x.queue, number := x.number, wid := x.wid, recVA := x.recVA, level := x.lrec.priority
             since := s.clock, reached := s.clock, seen := true }] } else s
      s.freeSlot sl) s

/-- The action of R496 for a unit. -/
def State.fenceAction (s : State) (u : UnitCode) : State :=
  let n := codeNumber u
  match codeKind u with
  | 1 => (s.fenceCore n).codeFence n
  | 2 => s.fenceSteward n
  | 3 => s.fencePorter n
  | 4 => s.fenceSlice n
  | 6 => { s with ferry := s.ferry.remove n s.clock }
  | 7 => (s.modPort n fun x => { x with fenced := true }).losePort n s
  | _ => s

/-- The die of a source of requests (R403). -/
def srcDie (src : Nat) : Nat :=
  if src < 4096 then src / 16 / 128 else if src < 4128 then clusterDie (src - 4096) else if src < 4160 then clusterDie (src - 4128)
  else if src = 4162 then 1 else 0

/-- Units on the path from a source to a slice (R494): the slice, the core of the source's plane port, and, where they lie on
two dies, the crossings in rotation towards the slice's. -/
def State.pathUnit (s : State) (slice : SliceId) (src : Nat) (c : UnitCode) : Bool :=
  c == sliceCode slice.toNat || (decide (src < 4096) && c == coreCode (src / 16))
    || (codeKind c == 6 && srcDie src != slice.toNat / 80 && (let x := s.ferry.xing (BitVec.ofNat 6 (codeIndex c))
      x.rotation && x.dir == (srcDie src == 0)))

/-- A fence ends with FENCED the unanswered requests whose path the unit is on (R403). -/
def State.endPaths (s : State) (u : UnitCode) : State :=
  let on (v : Unanswered) : Bool := s.pathUnit v.slice v.req.src u
  (s.unanswered.filter on).foldl (fun t v => t.modSlice v.slice.toNat fun x =>
    { x with replies := x.replies ++ [⟨v.req.src, v.req.seq, none, [], some .fenced⟩] })
    { s with unanswered := s.unanswered.filter fun v => !on v }

/-- The clusters whose blocks a unit served (R496). -/
def State.fenceClusters (s : State) (u : UnitCode) : List Nat :=
  let n := codeNumber u
  match codeKind u with
  | 1 => [coreCluster n]
  | 2 => [n]
  | 3 => s.porterClusters n
  | _ => List.range 32

/-- A unit is fenced (R496): its action, FENCE to its clusters, the log entry, MSI-X vector 0. With fewer than 2 crossings
left the device resets (R498); during a warm reset the fence waits for its end (R498). -/
def State.fenceUnit (s : State) (u : UnitCode) (why : BitVec 8) (count : BitVec 16) : State :=
  if !codeOk u || s.isFenced u then s
  else if s.health.busy then { s with health := { s.health with deferred := s.health.deferred ++ [(u, why, count)] } }
  else
    let ks := s.fenceClusters u
    let s := { s with health := { s.health with fenced := u :: s.health.fenced } }
    let s := (s.endPaths u).fenceAction u
    let s := ks.foldl (fun s k => s.postEvent k (fenceEvent u)) s
    let s := s.logHealth u why count 0
    let s : State := { s with health := { s.health with msix := s.health.msix ++ [0] } }
    if codeKind u = 6 ∧ s.ferry.n < 2 then s.warmReset else s

/-- UNIT_FENCE (R496): a judgement of the health controller, by one of the causes 1 to 5 (R507). -/
def execUnitFence (u : UnitCode) (why : BitVec 8) : State → Host.Outcome State Fault Refusal :=
  runStep fun s => if 1 ≤ why.toNat ∧ why.toNat ≤ 5 then s.fenceUnit u why 0 else s

/-! ### The end of a warm reset (R498, R501) -/

/-- Insert a deferred fence in ascending unit code. -/
def sortFences (l : List (UnitCode × BitVec 8 × BitVec 16)) : List (UnitCode × BitVec 8 × BitVec 16) :=
  sortBy (fun a b => decide (a.1 ≤ b.1)) l

/-- Records at the head whose status word is nonzero count as consumed, and the head goes past them (R501). -/
def skipConsumed (q : QId) : Nat → M Unit
  | 0 => return ()
  | f + 1 => do
    let x := (← get).queue q
    if x.pending = 0 then return ()
    let d ← dispRead x.ctx (BitVec.ofNat 64 (x.ring + x.head.toNat % 2 ^ x.log2 * 128)) 8
    if natOfBytes d = 0 then return ()
    let hp ← dispLocate x.ctx true (cutGranules 2 x.headVA 8)
    modify fun s => (s.dispPut hp (bytesOfNat 8 (x.head.toNat + 1))).modQueue q fun x => { x with head := x.head + 1 }
    skipConsumed q f

/-- WARM_RESET_COMPLETE (R498, R501): what waited is fenced, then dispatch resumes; tail words are read again. -/
def State.warmResetDone (s : State) : State :=
  if !s.health.busy then s
  else
    let ds := sortFences s.health.deferred
    let s : State := { s with health := { s.health with busy := false, deferred := [] } }
    let s := ds.foldl (fun s d => s.fenceUnit d.1 d.2.1 d.2.2) s
    ((List.range 64).map (BitVec.ofNat 6)).foldl (fun s q =>
      let s := s.tailNotice q
      if (s.queue q).live then s.queueWork q (skipConsumed q 65536) else s) s

def execWarmResetComplete : State → Host.Outcome State Fault Refusal := runStep State.warmResetDone

/-! ### Cold reset, boot, power (R503 - R506) -/

/-- Why a bundle is refused (R504): HBOOT.fail. -/
def bundleFail (f : Fuses) (b : Bundle) : BitVec 6 :=
  if b.ed25519 ≠ f.ed25519 && b.mldsa ≠ f.mldsa then 3 else if b.ed25519 ≠ f.ed25519 then 1 else if b.mldsa ≠ f.mldsa then 2
  else if b.version < f.minimum then 4 else 0

/-- Memory after a cold reset: free bytes in HBM (R503; log 3), and what the host's own memory holds. -/
def coldMemory (n : Nat) (m : Memory) : Memory :=
  (Config.coldHbm n).foldl (fun m c => if c.1 < Config.hbmEnd then Memory.put m c.1 c.2 else m) []
    ++ m.filter fun c => decide (Config.cxlBase ≤ c.1) && decide (c.1 < Config.cxlEnd)

/-- The end of the boot (R504): the boot ROM accepts a bundle, or the part stays in recovery. -/
def State.bootEnd (s : State) (b : Bundle) : State :=
  let fail := bundleFail s.fuses b
  { s with health := { s.health with boot := if fail = 0 then 1 else 2, bootFail := fail
                                     version := if fail = 0 then b.version else 0 } }

/-- The part right after a cold reset with some cores fused off (R2, R290, R503). -/
def State.resetWith (grade640S : Bool) (fused : List Nat) : State :=
  { State.reset with grade640S := grade640S, cores := fused.map fun c => (c, Core.reset { fused := true }) }

/-- COLD_RESET: everything but the fuses starts anew (R503), and the boot ROM verifies a bundle (R504). What the outside world
has on its way to the machine, and the model's counters of free values, are no state of the part. -/
def State.coldReset (s : State) (b : Bundle) : State :=
  let fused : List Nat := (s.cores.filter fun (e : Nat × Core) => e.2.fused).map fun (e : Nat × Core) => e.1
  { State.resetWith s.grade640S fused with
    mem := coldMemory s.free s.mem, fuses := s.fuses, free := s.free + 1, agenda := s.agenda, cur := s.cur, clock := s.clock
    resetAt := s.clock }.bootEnd b

/-- A boot that no COLD_RESET names a bundle for: from State.reset, the boot ROM verifies a bundle that is free (R504). -/
def execBoot : State → Host.Outcome State Fault Refusal :=
  runStep fun s => if s.health.boot = 0 then
    let b := Config.bundle s.free
    s.bootEnd { ed25519 := b.1, mldsa := b.2.1, version := b.2.2 } else s

/-- The fuses are those of a part that is sold (R2): none, or in grade 640S 32 cores, at most 2 of a cluster. -/
def State.gradeOk (s : State) : Bool :=
  let fused := (List.range 256).filter fun c => (s.core c).fused
  if s.grade640S then
    fused.length == 32 && (List.range 32).all fun k => decide ((fused.filter fun c => coreCluster c == k).length ≤ 2)
  else fused.isEmpty

def execColdReset (boot : Bundle) : State → Host.Outcome State Fault Refusal := fun s => .next (s.coldReset boot)

/-- POWER_LOSS (R503). -/
def execPowerLoss : State → Host.Outcome State Fault Refusal := runStep fun s => { s with power := .off }

/-- Sensor readings (R506, R507); that of the coolant inlet is a free value. -/
def State.sense (s : State) (junction : BitVec 8) (watts : BitVec 11) : State :=
  { s.draw with health := { s.health with
      junction := junction, now := watts, inlet := BitVec.ofNat 8 (Config.choice s.free)
      tooHot := s.health.tooHot || decide (105 ≤ junction.toNat) } }

/-- THERMAL_THROTTLE (R506): one more step of 50 MHz at 105 degrees or at the cap; at 115 degrees the module shuts down. -/
def State.throttle (s : State) (junction : BitVec 8) (watts : BitVec 11) : State :=
  let s := s.sense junction watts
  if 115 ≤ junction.toNat then { s with power := .off }
  else if 105 ≤ junction.toNat ∨ s.health.cap ≤ watts then
    { s with health := { s.health with slow := true, slowdown := Nat.min 20 (s.health.slowdown + 1) } }
  else s

def execThermalThrottle (junction : BitVec 8) (watts : BitVec 11) : State → Host.Outcome State Fault Refusal :=
  runStep fun s => s.throttle junction watts

/-- THERMAL_THROTTLE_END (R506): the clock is whole again below both limits. -/
def State.throttleEnd (s : State) (junction : BitVec 8) (watts : BitVec 11) : State :=
  let s := s.sense junction watts
  if junction.toNat < 105 ∧ watts < s.health.cap then { s with health := { s.health with slow := false, slowdown := 0 } } else s

def execThermalThrottleEnd (junction : BitVec 8) (watts : BitVec 11) : State → Host.Outcome State Fault Refusal :=
  runStep fun s => s.throttleEnd junction watts

/-- THERMAL_SHUTDOWN (R506). -/
def execThermalShutdown : State → Host.Outcome State Fault Refusal := runStep fun s => { s with power := .off }

/-- The Porter images loaded: cluster, image, context (R268, R505). -/
def State.loadedImages (s : State) : List (Nat × BitVec 16 × BitVec 16) :=
  (s.clusters.filter fun e => e.2.porter.custom).map fun e => (e.1, e.2.porter.image, e.2.porter.ctx)

/-- SPDM_GET_MEASUREMENTS (R505): the two identity keys' signatures over one transcript, which covers the bundle, the fuses
and the Porter images loaded. -/
def State.measure (s : State) : State :=
  let t := Config.transcript s.health.measured s.health.version (s.fuses.ed25519, s.fuses.mldsa, s.fuses.minimum) s.loadedImages
  { s with health := { s.health with measured := s.health.measured + 1
                                     answer := some ⟨t, Config.sign true t, Config.sign false t⟩ } }

def execSpdmGetMeasurements : State → Host.Outcome State Fault Refusal := runStep State.measure

/-! ### Channels retired, the health log (R507) -/

/-- HRETIRE_WRITE: the channel of the value's fields; a number that names no channel does nothing. -/
def State.retireChannel (s : State) (v : Word) : State :=
  let i := bits v.toNat 0 8
  let c := bits v.toNat 8 1 * 160 + i
  if 160 ≤ i then s
  else
    let s := { s with health := { s.health with retired := if s.health.retired.contains c then s.health.retired else c :: s.health.retired } }
    s.logHealth (channelCode c) 8 0 0

def execHretireWrite (v : Word) : State → Host.Outcome State Fault Refusal := runStep fun s => s.retireChannel v

/-! ### Watchdogs and paths (R270, R493, R494) -/

/-- A firmware core that has failed: its Porter is fenced (R270). -/
def State.haltPorter (s : State) (k : Nat) : State :=
  (s.modCluster k fun c => { c with porter := { c.porter with halted := true } }).fenceUnit (porterCode k) 4 0

/-- PORTER_WATCHDOG (R270): commands pending and none started for 1 ms. -/
def State.porterIdle (s : State) (k : Nat) : Bool :=
  let p := (s.cluster k).porter
  p.runs && p.cmds.any (fun c => !c.started) && p.cmds.all fun c => !c.started

def execPorterWatchdog (k : ClusterId) : State → Host.Outcome State Fault Refusal :=
  runStep fun s =>
    if s.porterIdle k.toNat then
      { s with clock := Nat.max s.clock ((s.cluster k.toNat).porter.idleSince + Config.msClocks) }.haltPorter k.toNat
    else s

/-- PORTER_FIRMWARE_TRAP (R270). -/
def execPorterFirmwareTrap (k : ClusterId) : State → Host.Outcome State Fault Refusal :=
  runStep fun s => if (s.cluster k.toNat).porter.runs then s.haltPorter k.toNat else s

/-- STEWARD_SERVICE_TIMEOUT (R493): a Steward that trapped with ctl.tvec 0, or records pending and none taken for 10 ms. -/
def State.stewardDead (s : State) (k : Nat) : State :=
  let c := s.cluster k
  if c.fenced then s
  else if c.steward.stopped then s.fenceUnit (stewardCode k) 2 0
  else if c.count = 0 then s
  else { s with clock := Nat.max s.clock (c.service + 10 * Config.msClocks) }.fenceUnit (stewardCode k) 2 0

def execStewardServiceTimeout (k : ClusterId) : State → Host.Outcome State Fault Refusal :=
  runStep fun s => s.stewardDead k.toNat


/-- PATH_REPORT (R494): the unit that fails the test of a path is fenced; with none found, the device resets. No test finds a unit that is not on the path. -/
def State.pathReport (s : State) (slice : SliceId) (src : Nat) (seq : BitVec 16) (failed : Option UnitCode) : State :=
  match s.copyOf slice src seq with
  | none => s
  | some u =>
    if u.resends < 4 || u.reported then s
    else
      let t := { s with unanswered := s.unanswered.map fun v => if v == u then { u with reported := true } else v }
      match failed with
      | none => t.warmReset
      | some c => if s.pathUnit slice src c then t.fenceUnit c 3 0 else s

/-- What the test of a request's path can find: which, is a free choice (log 78). -/
def State.pathFindings (s : State) (u : Unanswered) : List (Option UnitCode) :=
  none :: (((sliceCode u.slice.toNat :: (if u.req.src < 4096 then [coreCode (u.req.src / 16)] else []))
    ++ (List.range 48).map xingCode).filter (s.pathUnit u.slice u.req.src)).map some

def execPathReport (slice : SliceId) (src : Nat) (seq : BitVec 16) (failed : Option UnitCode) :
    State → Host.Outcome State Fault Refusal :=
  runStep fun s => s.pathReport slice src seq failed

end Sys2Proof.Machine
end

