-- ==== Sys2Proof/Machine/Crossings.lean ====
section
/-! DEFINITION. The steps of the Ferry (R472 - R477, R479). -/
namespace Sys2Proof.Machine

/-- Clocks of the gap between turns, of the longest start delay, of a quiet or check step, of the longest drain and of an
acknowledgement's wait (R472, R473, R476): 100, 50, 24, 1,000 and 500 ns. -/
def turnGap : Nat := 105
def turnDelay : Nat := 52
def stepClocks : Nat := 25
def drainClocks : Nat := 1050
def ackClocks : Nat := 525

/-- Clocks of the longest retrain (R477): 3 us. -/
def retrainClocks : Nat := 3 * Config.usClocks

/-- Clocks of a minute. -/
def minClocks : Nat := 60 * secClocks

/-- FCTL_WRITE (R474). -/
def execFctlWrite (v : Word) : State → Host.Outcome State Fault Refusal :=
  runServing fun s => { s with ferry := s.ferry.writeCtl v s.clock }

/-- FERRY_TURN_START (R472): no sooner than 100 ns after the last turn, and within 50 ns of the later of that moment and the
entry reaching the head. -/
def State.turnStart (s : State) : State :=
  let f := s.ferry
  if f.turn.isSome then s
  else
    let (g, t) := f.serve 20
    match t.bind g.pick with
    | none => { s with ferry := g }
    | some _ =>
      let due := Nat.max (f.lastTurnEnd + turnGap) g.headAt + Config.delay s.free % (turnDelay + 1)
      { s.draw with clock := Nat.max s.clock due, ferry := g.startTurn due }

def execFerryTurnStart : State → Host.Outcome State Fault Refusal := runStep State.turnStart

/-- The turn in progress is at a step, and its crossing is not retraining. -/
def Ferry.turnAt (f : Ferry) (step : Nat) : Bool :=
  match f.turn with
  | some (c, _, st, _) => st == step && (f.xing c).state == .turning
  | none => false

def Ferry.turnTo (f : Ferry) (step clock : Nat) : Ferry :=
  { f with turn := f.turn.map fun t => (t.1, t.2.1, step, clock) }

/-- FERRY_DRAIN_END (R473): the crossing's retry buffer is empty. -/
def State.drainEnd (s : State) : State :=
  match s.ferry.turn with
  | some (c, _, _, _) =>
    if s.ferry.turnAt 0 && (s.ferry.xing c).retry.isEmpty then { s with ferry := s.ferry.turnTo 1 s.clock } else s
  | none => s

def execFerryDrainEnd : State → Host.Outcome State Fault Refusal := runStep State.drainEnd

/-- FERRY_QUIET_END (R473): the ends swap, and the check begins. -/
def State.quietEnd (s : State) : State :=
  if s.ferry.turnAt 1 then
    let clock := s.clock + stepClocks
    { s with clock := clock, ferry := s.ferry.turnTo 2 clock }
  else s

def execFerryQuietEnd : State → Host.Outcome State Fault Refusal := runStep State.quietEnd

/-- Retrains and replays of a crossing against their thresholds (R493). -/
def State.judgeXing (s : State) (c : XingId) : State :=
  let x := s.ferry.xing c
  let within (w : Nat) (l : List Nat) : Nat := (l.filter fun t => decide (s.clock < t + w)).length
  if 4 ≤ within minClocks x.retrainTimes then s.fenceUnit (xingCode c.toNat) 2 0
  else if 1000 ≤ within secClocks x.replayTimes then
    s.fenceUnit (xingCode c.toNat) 1 (BitVec.ofNat 16 (Nat.min 0xFFFF (within secClocks x.replayTimes)))
  else s

/-- A crossing that is in rotation begins to retrain (R477). -/
def State.retrain (s : State) (c : XingId) : State :=
  { s with ferry := s.ferry.loseLock c s.clock }.judgeXing c

/-- FERRY_CHECK_END (R473): the turn ends, or the crossing retrains in its new direction (R479). -/
def State.checkEnd (s : State) (ok : Bool) : State :=
  if s.ferry.turnAt 2 then
    let clock := s.clock + stepClocks
    let s := { s with clock := clock }
    match s.ferry.turn with
    | some (c, _, _, _) => if ok then { s with ferry := s.ferry.endTurn clock } else s.retrain c
    | none => s
  else s

def execFerryCheckEnd (ok : Bool) : State → Host.Outcome State Fault Refusal := runStep fun s => s.checkEnd ok

/-- PLAN_ENTRY_EXPIRE (R472): the oldest entry, 1 ms after its acceptance. -/
def State.planExpire (s : State) : State :=
  let f := if s.ferry.turn.isSome then s.ferry else (s.ferry.serve 20).1
  match f.plan with
  | [] => { s with ferry := f }
  | e :: rest =>
    { s with clock := Nat.max s.clock (e.accepted + Config.msClocks)
             ferry := { f with plan := rest, headAt := Nat.max s.clock (e.accepted + Config.msClocks), expired := if f.expired = 0xFFFF then f.expired else f.expired + 1 } }

def execPlanEntryExpire : State → Host.Outcome State Fault Refusal := runStep State.planExpire

/-- FLIT_RECEIVE (R475, R476). -/
def execFlitReceive (c : XingId) (f : Flit) : State → Host.Outcome State Fault Refusal :=
  runStep fun s => { s with ferry := s.ferry.receive c f s.clock }.judgeXing c

/-- FLIT_REPLAY_TIMEOUT (R476): 500 ns without an acknowledgement. -/
def State.replayFlits (s : State) (c : XingId) : State :=
  let x := s.ferry.xing c
  if x.retry.isEmpty || x.state == .retraining then s
  else
    let clock := Nat.max s.clock (x.acked + ackClocks)
    { s with clock := clock, ferry := s.ferry.replay c.toNat clock }.judgeXing c

def execFlitReplayTimeout (c : XingId) : State → Host.Outcome State Fault Refusal :=
  runStep fun s => s.replayFlits c

/-- LANE_LOCK_LOSS (R477). -/
def execLaneLockLoss (c : XingId) : State → Host.Outcome State Fault Refusal :=
  runStep fun s => s.retrain c

/-- DRAIN_TIMEOUT (R473, R477): a drain above 1 us. -/
def State.drainTimeout (s : State) : State :=
  match s.ferry.turn with
  | some (c, _, _, t) =>
    if s.ferry.turnAt 0 then { s with clock := Nat.max s.clock (t + drainClocks) }.retrain c else s
  | none => s

def execDrainTimeout : State → Host.Outcome State Fault Refusal := runStep State.drainTimeout

/-- RETRAIN_END (R477), at most 3 us after the retrain began: `bad` more lanes are replaced; a crossing that needs a fifth
spare is fenced. -/
def State.retrainDone (s : State) (c : XingId) (bad : Nat) : State :=
  let x := s.ferry.xing c
  if x.state ≠ .retraining ∨ !x.rotation then s
  else if 4 < x.spares + bad then s.fenceUnit (xingCode c.toNat) 2 0
  else { s with ferry := s.ferry.endRetrain c bad (Nat.min s.clock ((x.retrainTimes.head?.getD s.clock) + retrainClocks)) }.judgeXing c

def execRetrainEnd (c : XingId) (bad : Nat) : State → Host.Outcome State Fault Refusal :=
  runStep fun s => s.retrainDone c bad

end Sys2Proof.Machine
end

