-- ==== Sys2Proof/Machine/Device.lean ====
section
/-! DEFINITION. The registers of the part (R10, R11): block-slot control registers (R150), cluster windows (R143, R267),
the device window (R131, R434, R461, R474, R485, R488, R507), as Stewards and the host reach them. -/
namespace Sys2Proof.Machine

/-- Bytes of a 64-bit register that a write touches, as a mask of its bits. -/
def byteMask (first n : Nat) : Word := BitVec.ofNat 64 ((2 ^ (8 * n) - 1) * 2 ^ (8 * first))

/-- A register's value with the bytes of a write in their places. -/
def mergeWord (old v mask : Word) : Word := (old &&& ~~~mask) ||| (v &&& mask)

/-! ### Descriptors of the driver queues and the health log (R488) -/

def DrvQ.setWord (q : DrvQ) (i : Nat) (v : Word) : DrvQ :=
  let old := q.desc &&& ~~~((BitVec.ofNat 512 (2 ^ 64 - 1)) <<< (64 * i))
  { q with desc := old ||| ((v.zeroExtend 512 : BitVec 512) <<< (64 * i)) }

/-- The fields of a descriptor are in range and its reserved bits 0. `inval`: the queue has a done word. -/
def DrvQ.descOk (q : DrvQ) (inval : Bool) : Bool :=
  let f (o n : Nat) : Nat := bits q.desc.toNat (8 * o) (8 * n)
  let ram (pa : Nat) : Bool := match regionOf pa with | .hbm _ | .host _ => true | _ => false
  f 0 8 % 128 == 0 && ram (f 0 8) && decide (4 ≤ f 8 1) && decide (f 8 1 ≤ 16) && f 9 3 == 0 && decide (f 0x0C 4 < 2)
    && f 0x10 8 % 8 == 0 && f 0x18 8 % 8 == 0 && (if inval then f 0x20 8 % 8 == 0 else f 0x20 8 == 0) && f 0x28 24 == 0

/-- A queue as its descriptor gives it, counts 0; one whose descriptor is in error stays disabled (R488). -/
def DrvQ.enable (q : DrvQ) (inval : Bool) : DrvQ :=
  let f (o n : Nat) : Nat := bits q.desc.toNat (8 * o) (8 * n)
  if q.enabled then q
  else if q.descOk inval then
    { q with desc := q.desc ||| (1#512 <<< 96), enabled := true, ring := f 0 8, log2 := f 8 1, tailPA := f 0x10 8
             headPA := f 0x18 8, donePA := f 0x20 8, tail := 0, head := 0, setup := true }
  else q.off

/-- A word of a descriptor is written: the enable bit's rise reads it, its fall disables the queue (R488). -/
def DrvQ.write (q : DrvQ) (inval : Bool) (i : Nat) (v : Word) : DrvQ :=
  let q' := q.setWord i v
  if i ≠ 1 then q'
  else if v.getLsbD 32 then q'.enable inval
  else { q' with enabled := false }

def State.setDrvQ (s : State) (d : DriverQ) (q : DrvQ) : State :=
  { s with drv := match d with
      | .fault => { s.drv with fault := q }
      | .replay => { s.drv with replay := q }
      | .inval => { s.drv with inval := q } }

/-- What follows a change of a driver queue's enable bit: held fault entries are written, and an invalidation in progress
is no longer the head of its ring (R488, R512). -/
def State.drvChanged (s : State) (d : DriverQ) (old : DrvQ) : State :=
  if old.enabled || !(s.drvQ d).enabled then s
  else match d with
    | .fault => s.flushFaults
    | .replay => s
    | .inval => { s with drv := { s.drv with orphan := s.drv.pending.isSome } }

def drvInval : DriverQ → Bool
  | .inval => true
  | _ => false

/-- DRIVER_QUEUE_ENABLE (R488): the enable bit of a queue's descriptor goes to 1. -/
def State.driverEnable (s : State) (d : DriverQ) : State :=
  let q := s.drvQ d
  (s.setDrvQ d (q.enable (drvInval d))).drvChanged d q

def execDriverQueueEnable (d : DriverQ) : State → Host.Outcome State Fault Refusal :=
  runStep fun s => if s.health.boot = 1 then s.driverEnable d else s

/-- HEALTH_LOG_ENABLE (R507). -/
def State.logEnable (s : State) : State :=
  State.flushLog { s with health := { s.health with log := s.health.log.enable false } }

def execHealthLogEnable : State → Host.Outcome State Fault Refusal := runStep State.logEnable

/-! ### Health registers (R507) -/

/-- HJRNL: base in die E HBM, the region 8 MiB. -/
def journalOk (base : BitVec 29) : Bool := decide (base.toNat * 2 ^ 23 + 2 ^ 23 ≤ Config.hbmW)

/-- A write of HJRNL: valid changes only while no queue is enabled. -/
def State.writeJournal (s : State) (v : Word) : State :=
  let base := BitVec.ofNat 29 (bits v.toNat 23 29)
  let on := s.disp.queues.any fun e => e.2.enabled
  { s with health := { s.health with jBase := base
                                     jValid := if on then s.health.jValid else v.getLsbD 0 && journalOk base } }

/-- A write of a health register: `v` holds the register's own bytes where the write has none; `mask` tells them apart. -/
def State.writeHealth (s : State) (off : Nat) (v mask : Word) : State :=
  if off < 0x40 then
    State.flushLog { s with health := { s.health with log := s.health.log.write false (off / 8) v } }
  else if off = 0x40 then s.writeJournal v
  else if off = 0x48 then (if v.getLsbD 0 && mask.getLsbD 0 then s.warmReset else s)
  else if off = 0x58 then
    { s with health := { s.health with cap := BitVec.ofNat 11 (Nat.max 600 (Nat.min 1600 (bits v.toNat 0 11))) } }
  else if off = 0x60 then
    (if v.getLsbD 17 && mask.getLsbD 17 then { s with health := { s.health with tooHot := false } } else s)
  else if off = 0x68 then (if mask.getLsbD 0 || mask.getLsbD 8 then s.retireChannel (v &&& mask) else s)
  else if off = 0x70 then
    { s with health := { s.health with traceOn := v.getLsbD 0, traceSlice := BitVec.ofNat 7 (bits v.toNat 1 7)
                                       traceDie := v.getLsbD 8 } }
  else s

/-! ### The device window (R23) -/

/-- A write of HWIN (R485). -/
def Port.writeHwin (x : Port) (v : Word) : Port :=
  { x with hwinEnable := v.getLsbD 0
           hwinLimit := BitVec.ofNat 39 (Nat.min (bits v.toNat 12 39) ((Config.cxlEnd - Config.cxlBase) / 4096)) }

/-- A write of a 64-bit register of the device window; reserved ones ignore it (R11). -/
def State.writeDev (s : State) (off : Nat) (v mask : Word) : State :=
  if off = 0x20000 then { s with ctxEnable := v.getLsbD 0, ctxBase := BitVec.ofNat 40 (bits v.toNat 12 40) }
  else if 0x30000 ≤ off ∧ off < 0x30A00 then s.modBase ((off - 0x30000) / 256) fun x => x.write (off % 256) v
  else if off = 0x30A00 then s.settleGo 0 v
  else if off = 0x30A08 then s.settleGo 1 v
  else if off = 0x40000 then { s with ferry := s.ferry.writeCtl v s.clock }
  else if 0x50000 ≤ off ∧ off < 0x52000 then
    let p := (off - 0x50000) / 0x1000
    let o := off % 0x1000
    if o < 0xC0 then
      if p = 0 then
        let d := drvAt o
        let q := s.drvQ d
        (s.setDrvQ d (q.write (drvInval d) (o % 64 / 8) v)).drvChanged d q
      else s
    else if o = 0xC0 then s.modPort p fun x => x.writeHwin v
    else if o = 0x100 then s.modPort p fun x => { x with hac := x.hac.writeCtl v }
    else if o = 0x108 then s.modPort p fun x => { x with hac := x.hac.writeDump v }
    else s
  else if 0x60000 ≤ off ∧ off < 0x61000 then s.writeHealth (off - 0x60000) v mask
  else s

/-- The control word of a launch queue's descriptor after a write of the descriptor's bytes (R131). -/
def State.queueWritten (s : State) (q : QId) (was : Bool) : State :=
  let on := (Memory.get s.mem (queueDesc q + 0x0C)).getLsbD 0
  if on && !was then s.enableQueue q
  else if !on && was then s.closeQueue q 0
  else s

/-! ### Writes of the windows -/

/-- Write bytes of an on-chip window that are plain memory, within one granule. -/
def State.ioStore (s : State) (src : Source) (pa : Nat) (bs : List Byte) : State :=
  match regionOf pa with
  | .device off =>
    let q : QId := BitVec.ofNat 6 ((off - 0x10000) / 64)
    (s.performWrite src 0 pa .normal bs).queueWritten q (s.queue q).enabled
  | _ => s.performWrite src 0 pa .normal bs

/-- Write at most 8 bytes within an aligned word of an on-chip window. -/
def State.ioPut (s : State) (src : Source) (pa : Nat) (bs : List Byte) : State :=
  let a := pa / 8 * 8
  let mask := byteMask (pa % 8) bs.length
  let v := BitVec.ofNat 64 (natOfBytes bs * 2 ^ (8 * (pa % 8)))
  match s.ioWord a, regionOf a with
  | .plain, _ => s.ioStore src pa bs
  | .reg old, .device off => s.writeDev off (mergeWord old v mask) mask
  | .reg old, .cluster k off => if off = 0x98000 then s.writePctl k (mergeWord old v mask) else s
  | _, _ => s

/-- Write bytes of an on-chip window, within one granule: an indivisible write (R29). A descriptor's control word, the second
of its 64 bytes, takes effect when the others are there (R131, R488). -/
def State.ioWrite (s : State) (src : Source) (pa : Nat) (bs : List Byte) : Except Cause State :=
  let ws := cutWords 5 pa bs.length
  let put (s : State) (w : Nat × Nat) : State := s.ioPut src w.1 ((bs.drop (w.1 - pa)).take w.2)
  match s.ioFault ws with
  | some c => .error c
  | none =>
    if ws.all fun w => s.ioWord (w.1 / 8 * 8) == .plain then .ok (s.ioStore src pa bs)
    else .ok ((ws.filter (fun w => w.1 / 8 % 8 == 1)).foldl put ((ws.filter (fun w => w.1 / 8 % 8 != 1)).foldl put s))

/-- The register writes of Porters and the Dispatcher in the step that ends are performed (R28). -/
def State.landRegs (s : State) : State :=
  s.regWrites.foldl (fun s w => match s.ioWrite w.1 w.2.1 w.2.2 with | .ok s => s | .error _ => s) { s with regWrites := [] }

/-- REGISTER_WRITE (R10): a 64-bit register of the device window whose write has no step of its own; the steps that enable
a queue, reset, retire a channel, or start a settle or a dump stand beside it. In recovery only the health controller's serve
(R504). -/
def execRegisterWrite (off : BitVec 21) (v : Word) : State → Host.Outcome State Fault Refusal :=
  runStep fun s =>
    if off.toNat < 0x100000 && (s.health.boot == 1 || decide (0x60000 ≤ off.toNat) && decide (off.toNat < 0x69000)) then
      match s.ioWrite (portSrc 0) (Config.deviceWin + off.toNat / 8 * 8) (bytesOfNat 8 v.toNat) with
      | .ok s => s
      | .error _ => s
    else s

end Sys2Proof.Machine
end

