-- ==== Sys2Proof/Machine/Host.lean ====
section
/-! DEFINITION. The steps of the host ports and the driver queues (R412, R480 - R491, R493, R512). -/
namespace Sys2Proof.Machine

/-! ### Requests of the host (R481 - R483) -/

/-- A completion towards the host: data, or none for an error or an unsupported request. -/
def State.hostReply (s : State) (p addr : Nat) (d : Option (List Byte)) : State :=
  s.modPort p fun x => { x with replies := x.replies ++ [(addr, d)] }

/-- A granule that a host request cannot have (R425, R426, R483, R507). -/
def State.hostBad (s : State) (pa : Nat) (whole : Bool) : Bool :=
  s.unreachable pa 0 || s.pathFenced pa || (s.corrupt pa && !whole)

/-- The granules of a request. -/
def hostParts (addr n : Nat) : List (Nat × Nat) :=
  (cutGranules 3 (BitVec.ofNat 64 addr) n).map fun c => (c.1.toNat, c.2)

/-- A CXL.mem read (R412, R483): no byte of a granule that cannot be read; a line that the host may cache is marked. -/
def State.hostLoad (s : State) (p : Nat) (r : HostReq) : State :=
  let ps := hostParts r.addr r.n
  match ps.find? fun c => s.hostBad c.1 false with
  | some c => ((s.badRead c.1).logHealth (portCode p) 7 0 c.1).hostReply p r.addr none
  | none =>
    let s := ps.foldl (fun s c => s.didRead (portSrc p) 0 c.1 .normal) s
    let l := r.addr / 64
    let own (s : State) (g : Nat) : State := s.modGran g fun x => { x with owned := true }
    let s := if r.cacheable then own (own s (2 * l)) (2 * l + 1) else s
    s.hostReply p r.addr (some (Memory.bytes s.mem r.addr r.n))

/-- A CXL.mem write (R412, R425, R483): performed granule by granule; one that cannot be is discarded and logged. -/
def State.hostStore (s : State) (p : Nat) (r : HostReq) (bs : List Byte) : State :=
  let s := (hostParts r.addr bs.length).foldl (fun s c =>
    if s.hostBad c.1 (c.2 == 32) then s.logHealth (portCode p) 9 0 c.1
    else s.performWrite (portSrc p) 0 c.1 .normal ((bs.drop (c.1 - r.addr)).take c.2)) s
  s.hostReply p r.addr (some [])

/-- A host request performed at its granules; one that arrives behind others there waits for them (R405, R412). -/
def State.hostPerform (s : State) (p : Nat) (r : HostReq) (n : Nat) : State :=
    let s := (hostParts r.addr n).foldl (fun s c => s.fillLine (sliceOf c.1) (lineOf c.1)) s
    if (hostParts r.addr n).any fun c => s.queuedAt c.1 then
      s.modPort p fun x => { x with waiting := x.waiting ++ [r] }
    else match r.data with
      | some bs => s.hostStore p r bs
      | none => s.hostLoad p r

/-- HOST_MEM_REQUEST (R480, R482): the port's HDM decoder takes the host address to a device one; requests lie in one 64-byte
line, and a port has 1,024 of them outstanding at most. -/
def State.hostMem (s : State) (p : Nat) (r : HostReq) : State :=
  let n := match r.data with | some bs => bs.length | none => r.n
  let h := (s.port p).hdmBase.toNat
  let a := r.addr - h
  if !s.portUp p || s.health.boot ≠ 1 || decide (1024 ≤ (s.port p).waiting.length) then s
  else if decide (r.addr < h) || Config.hbmEnd ≤ a || n = 0 || 64 < a % 64 + n then s.hostReply p r.addr none
  else s.hostPerform p { r with addr := a } n

def execHostMemRequest (p : Bool) (r : HostReq) : State → Host.Outcome State Fault Refusal :=
  runStep fun s => s.hostMem (portNum p) r

/-- A host request that waited at its granule is tried again (R405). -/
def State.hostAgain (s : State) (p : Nat) : State :=
  match (s.port p).waiting with
  | [] => s
  | r :: rest =>
    if !s.portUp p || s.health.boot ≠ 1 then s
    else (s.modPort p fun x => { x with waiting := rest }).hostPerform p r (match r.data with | some bs => bs.length | none => r.n)

def execHostAgain (p : Nat) : State → Host.Outcome State Fault Refusal := runStep fun s => s.hostAgain p

/-- Whether the host reaches a physical address through BAR0 (R143, R481); in recovery only the health registers serve
(R504). -/
def State.hostReaches (s : State) (pa : Nat) : Bool :=
  match regionOf pa with
  | .core c _ => !s.coreGone c && s.health.boot == 1
  | .cluster _ off => decide (0x40000 ≤ off) && s.health.boot == 1
  | .device off => s.health.boot == 1 || (decide (0x60000 ≤ off) && decide (off < 0x69000))
  | _ => false

/-- Every byte of the access is reached. -/
def State.reachesAll (s : State) (pa n : Nat) : Bool := s.hostReaches pa && s.hostReaches (pa + n - 1)

/-- A request to the CXL component registers in BAR2, 64 KiB (R481): the base of the HDM decoder is held, the others are not
given (log 55). -/
def State.bar2 (s : State) (p : Nat) (r : HostReq) : State :=
  let at_ (a : Nat) : Byte :=
    if Config.hdmOffset ≤ a ∧ a < Config.hdmOffset + 8 then ((s.port p).hdmBase >>> (8 * (a - Config.hdmOffset))).truncate 8
    else Config.componentReg p a
  match r.data with
  | none =>
    let ok := !r.atomicTlp && r.n != 0 && decide (r.addr + r.n ≤ 0x10000)
    s.hostReply p r.addr (if ok then some ((List.range r.n).map fun i => at_ (r.addr + i)) else none)
  | some bs =>
    if r.atomicTlp then s.hostReply p r.addr none
    else if r.addr = Config.hdmOffset && bs.length == 8 then
      s.modPort p fun x => { x with hdmBase := BitVec.ofNat 64 (natOfBytes bs) }
    else s

/-- BAR0_ACCESS (R481): an atomic, which asks for an answer, is answered as an Unsupported Request. -/
def State.bar0 (s : State) (p : Nat) (r : HostReq) : State :=
  let n := match r.data with | some bs => bs.length | none => r.n
  let pa := Config.coreWin + r.addr
  let bad := r.atomicTlp || n = 0 || 32 < r.addr % 32 + n || 0x12100000 ≤ r.addr || !s.reachesAll pa n
  if r.bar2 then s.bar2 p r else
  match r.data with
  | none =>
    if bad then s.hostReply p r.addr none
    else match s.ioRead pa n with
      | .ok bs => s.hostReply p r.addr (some bs)
      | .error _ => s.hostReply p r.addr none
  | some bs =>
    if bad then (if r.atomicTlp then s.hostReply p r.addr none else s)
    else match regionOf pa with
      | .core c off => match winPart off with
        | .stream m k o => s.streamIn (slotOf c m) k o bs { writer := none, fail := { iva := 0, tile := none, elem := none, va := BitVec.ofNat 64 pa } }
        | _ => match s.ioWrite (portSrc p) pa bs with | .ok s => s | .error _ => s
      | _ => match s.ioWrite (portSrc p) pa bs with | .ok s => s | .error _ => s

def execBar0Access (p : Bool) (r : HostReq) : State → Host.Outcome State Fault Refusal :=
  runStep fun s => if s.portUp (portNum p) then s.bar0 (portNum p) r else s

/-! ### Host-produced queues (R488, R512) -/

/-- FAULT_QUEUE_HEAD_ADVANCE (R489): held entries are written while there is room. -/
def execFaultQueueHeadAdvance (head : Word) : State → Host.Outcome State Fault Refusal :=
  runStep fun s =>
    State.flushFaults { s with drv := { s.drv with fault := { s.drv.fault with head := head } } }

/-- Read bytes by physical address on the device's own behalf. -/
def devRead (pa n : Nat) : M (List Byte) := do
  devCheck false 6 pa n
  let s ← get
  set ((hostParts pa n).foldl (fun s c => (s.didRead healthSrc 0 c.1 .normal).snoopDone c.1) s)
  return Memory.bytes s.mem pa n

/-- Write a word by physical address on the device's own behalf. -/
def devSet (pa : Nat) (v : Word) : M Unit := do
  devCheck true 2 pa 8
  modify fun s => s.devPut pa (bytesOfNat 8 v.toNat) 2

/-- Work on a host-produced queue, while a port serves (R487): a word or an entry that cannot be reached disables it
(R512). -/
def State.drvWork (s : State) (d : DriverQ) (m : M Unit) : State :=
  if s.healthPort.isNone then s else
  match m.run s with
  | .ok _ s => s
  | .error .stall s => s
  | .error (.trap t) s => (s.setDrvQ d (s.drvQ d).off).logHealth 0 11 0 t.va.toNat

/-- The words that an enable sets to 0 (R488). -/
def drvSetup (d : DriverQ) : M Unit := do
  let q := (← get).drvQ d
  if q.setup then
    devSet q.headPA 0
    if drvInval d then devSet q.donePA 0
    modify fun s => s.setDrvQ d { q with setup := false }

/-- Commands published and not consumed (R132, R488). -/
def DrvQ.pending (q : DrvQ) : Nat :=
  let d := q.tail - q.head
  if d.getLsbD 63 then 0 else Nat.min d.toNat (2 ^ q.log2)

/-- The command at the head of a host-produced queue, if one is published. -/
def drvHeadEntry (d : DriverQ) (size : Nat) : M (Option (List Byte)) := do
  if !((← get).drvQ d).enabled then return none
  drvSetup d
  let q := (← get).drvQ d
  let t ← devWord q.tailPA
  modify fun s => s.setDrvQ d { q with tail := t }
  if ({ q with tail := t } : DrvQ).pending = 0 then return none
  return some (← devRead (q.ring + q.head.toNat % 2 ^ q.log2 * size) size)

/-- The head goes past a command. -/
def drvAdvance (d : DriverQ) : M Unit := do
  let q := (← get).drvQ d
  devSet q.headPA (q.head + 1)
  modify fun s => s.setDrvQ d { s.drvQ d with head := q.head + 1 }

/-! ### Replay commands (R490) -/

/-- Who waits on a replay token. -/
inductive Holder where
  | slot (sl : SlotId)
  | cmd (k : Nat) (c : Cmd)
  | image (k : Nat)
  | back
  | queue (q : QId)
  deriving DecidableEq, Repr

def Pending.hasToken (p : Pending) (tok : Word) : Bool := !p.ready && p.token == tok

/-- An image of a pending block holds a parked copy with a token. -/
def State.imageToken (s : State) (p : Pending) (tok : Word) : Bool :=
  s.savedTiles.any fun t => some t.va == p.image && ((s.launchOf p.queue p.number).any fun l => l.ctx == t.ctx)
    && t.cmds.any fun c => c.hasToken tok

def State.holder (s : State) (tok : Word) : Option Holder :=
  let slots := (s.slots.find? fun e => e.2.run != .empty && e.2.park.any fun p => p.token == tok).map fun e =>
    Holder.slot (BitVec.ofNat 10 e.1)
  let cmds := s.clusters.findSome? fun e => (e.2.porter.cmds.find? fun c => c.hasToken tok).map fun c => Holder.cmd e.1 c
  let images := (s.clusters.find? fun e => e.2.pending.any fun p => p.hasToken tok || s.imageToken p tok).map fun e =>
    Holder.image e.1
  let waits (l : Launch) : Bool := l.images.any fun p => p.hasToken tok || s.imageToken p tok
  let back := if s.disp.launches.any waits then some Holder.back else none
  let qs := (s.disp.queues.find? fun e => e.2.park.any fun p => p.1 == tok).map fun e => Holder.queue (BitVec.ofNat 6 e.1)
  slots.or (cmds.or (images.or (back.or qs)))

/-- A REPLAY record (R145). -/
def replayEvent (tok : Word) : EventRec := { typ := 5, a := tok }

/-- The cluster that a REPLAY goes to, if any. -/
def Holder.cluster : Holder → Option Nat
  | .slot sl => some (slotCluster sl)
  | .cmd _ c => some c.home.toNat
  | .image k => some k
  | .back | .queue _ => none

/-- Blocks that wait in the Dispatcher, and parked copies of their images, are ready for a token. -/
def State.readyBack (s : State) (tok : Word) (aborted : Bool) : State :=
  let f (p : Pending) : Pending := if p.hasToken tok then { p with ready := true, aborted := aborted } else p
  let g (m : Cmd) : Cmd := if m.hasToken tok && !aborted then { m with park := none } else m
  { s with disp := { s.disp with launches := s.disp.launches.map fun l => { l with images := l.images.map f } }
           clusters := s.clusters.map fun e => (e.1, if aborted then { e.2 with pending := e.2.pending.map f } else e.2)
           savedTiles := s.savedTiles.map fun t => { t with cmds := t.cmds.map g } }

/-- Retry (R490, R510): REPLAY to the cluster that holds the token; a queue is tried again. -/
def State.replayRetry (s : State) (tok : Word) : State :=
  match s.holder tok with
  | none => s
  | some (.queue q) => (s.modQueue q fun x => { x with park := none }).tailNotice q
  | some .back => s.readyBack tok false
  | some h => match h.cluster with
    | some k => s.postEvent k (replayEvent tok)
    | none => s

/-- A parked copy that an image holds stops with ACCESS: its chunks that are not ready are abandoned (R261). -/
def TileImage.abortCmd (t : TileImage) (tok : Word) : TileImage :=
  match t.cmds.find? fun c => c.hasToken tok with
  | none => t
  | some c =>
    let id := c.instr.td.bind (·.entry)
    let stop (d : Cmd) : Cmd := if d.hasToken tok then { d with park := none, stopped := some .access } else d
    let rest (e : Entry) : BitVec 256 := BitVec.ofNat 256 (2 ^ e.chunks - 1) &&& ~~~e.ready
    let leave (e : Entry) : Entry := if some e.id == id then { e with abandoned := e.abandoned ||| rest e } else e
    { t with cmds := t.cmds.map stop
             entries := t.entries.map leave
             failed := if c.owesWrite && t.failed.isNone then
                 some { c.failedWrite (c.park.map fun p => p.2.2) with cause := Cause.access.code } else t.failed }

/-- What an abort does (R490): the access ends with ACCESS at the block's Steward, or disables the queue (R510). -/
def State.abortToken (s : State) (tok : Word) : State :=
  match s.holder tok with
  | none => s
  | some (.queue q) => s.queueFault q { cause := .access }
  | some (.slot sl) =>
    let x := s.slot sl
    let va := (x.park.map (·.va)).getD 0
    let acc := (x.park.map (·.acc)).getD .load
    let s := s.modSlot sl fun x => { x with park := none, run := if x.run = .parked then .running else x.run
                                            wait := match x.wait with | .tlaunch _ _ none => .none | w => w }
    s.modSlot sl fun x => { x with stop := some { cause := .access, va := va, vaValid := true, acc := acc } }
  | some (.cmd k c) => match c.src with
    | .tile => s.stopCmd k c .access (c.park.map fun p => p.2.2) c.owesWrite
    | .refill kq => (s.modCmds k fun l => l.filter fun d => d.id != c.id).endStream c.slot kq .access
  | some _ =>
    let s := s.readyBack tok true
    { s with savedTiles := s.savedTiles.map fun t => t.abortCmd tok }

/-- Abort (R490): the access ends, and REPLAY goes to the cluster that held the token, whose park is gone. -/
def State.replayAbort (s : State) (tok : Word) : State :=
  match (s.holder tok).bind Holder.cluster with
  | some k => (s.abortToken tok).postEvent k (replayEvent tok)
  | none => s.abortToken tok

/-- The oldest replay command is consumed, if `mine` says that this step takes it: action 1 aborts, 0 retries, anything
else is discarded and logged (R490). -/
def replayStep (abort : Bool) : M Unit := do
  match ← drvHeadEntry .replay 16 with
  | none => return ()
  | some e =>
    let tok := BitVec.ofNat 64 (fieldAt e 0 8)
    let act := fieldAt e 8 1
    let ok := fieldAt e 9 7 == 0 && decide (act < 2)
    if ok && (act == 1) != abort then return ()
    devCheck true 2 ((← get).drvQ .replay).headPA 8
    modify fun s =>
      if !ok then s.logHealth 0 10 0 0 else if act = 1 then s.replayAbort tok else s.replayRetry tok
    drvAdvance .replay

/-- REPLAY_COMMAND_RETRY (R490). -/
def execReplayCommandRetry : State → Host.Outcome State Fault Refusal :=
  runStep fun s => s.drvWork .replay (replayStep false)

/-- REPLAY_COMMAND_ABORT (R490). -/
def execReplayCommandAbort : State → Host.Outcome State Fault Refusal :=
  runStep fun s => s.drvWork .replay (replayStep true)

/-! ### Invalidation commands (R491) -/

/-- The request in progress ends once every cluster has retired it; a fenced one counts as retired. The done word waits
for an enabled queue (R512). -/
def finishInval : M Unit := do
  let s ← get
  match s.drv.pending with
  | none => return ()
  | some (ks, _, _, seq) =>
    if ks.any (fun k => !(s.cluster k.toNat).fenced) || !s.drv.inval.enabled then return ()
    drvSetup .inval
    let q := (← get).drv.inval
    devCheck true 2 q.headPA 8
    devSet q.donePA seq
    let orphan := (← get).drv.orphan
    if !orphan then drvAdvance .inval
    modify fun s => { s with drv := { s.drv with pending := none, orphan := false, lastDone := some seq } }

/-- Clusters of a mask, die E 0 - 15, die W 16 - 31. -/
def maskClusters (m : Nat) : List ClusterId := ((List.range 32).filter fun k => m.testBit k).map (BitVec.ofNat 5)

/-- One invalidation command is taken when none is in progress. -/
def invalStep : M Unit := do
  finishInval
  if (← get).drv.pending.isSome then return ()
  match ← drvHeadEntry .inval 32 with
  | none => return ()
  | some e =>
    let w (o : Nat) : Word := BitVec.ofNat 64 (fieldAt e o 8)
    modify fun s =>
      { s with drv := { s.drv with pending := some (maskClusters (fieldAt e 0x10 4), w 0, w 8, w 0x18), orphan := false } }
    finishInval

/-- INVALIDATION_COMMAND (R491). -/
def execInvalidationCommand : State → Host.Outcome State Fault Refusal :=
  runStep fun s => s.drvWork .inval invalStep

/-- INVALIDATION_DONE (R491): the firmware of a cluster issues its TLBINV, which retires. -/
def State.invalDone (s : State) (k : ClusterId) : State :=
  match s.drv.pending with
  | none => s
  | some (ks, rs1, rs2, seq) =>
    let here := ks.contains k && !(s.cluster k.toNat).fenced
    let s := if here then s.tlbInv k.toNat rs1 rs2 else s
    if here && s.tlbBusy k.toNat rs1 rs2 then s
    else State.drvWork { s with drv := { s.drv with pending := some (ks.filter fun j => j != k, rs1, rs2, seq) } } .inval finishInval

def execInvalidationDone (k : ClusterId) : State → Host.Outcome State Fault Refusal :=
  runStep fun s => s.invalDone k

/-! ### Links (R480, R486, R487, R493) -/

/-- Events of a unit counted within a window, and the clocks at which they came. -/
def State.countEvent (s : State) (u : UnitCode) (window : Nat) : Nat × State :=
  let old := ((s.health.counts.find? fun e => e.1 == u).map (·.2)).getD []
  let now := s.clock :: old.filter fun t => decide (s.clock < t + window)
  (now.length, { s with health := { s.health with counts := (u, now) :: s.health.counts.filter fun e => e.1 != u } })

/-- Correctable errors of a unit's arrays and memories within an hour that make it lasting (R493). -/
def errorLimit (u : UnitCode) : Nat := match codeKind u with | 4 => 32 | 5 => 256 | _ => 16

/-- A correctable error of a unit is corrected in place (R423, R452, R493): it changes no value, and counts against the unit.
When one arises, and where, the spec leaves open (log 78). -/
def State.corrected (s : State) (u : UnitCode) : State :=
  if s.isFenced u then s
  else
    let (n, s) := s.countEvent u (60 * minClocks)
    if errorLimit u ≤ n then s.fenceUnit u 1 (BitVec.ofNat 16 n) else s

/-- Units whose arrays and memories count correctable errors: cores, Stewards, Porters, slices, channels (R493). -/
def errorUnits : List UnitCode :=
  (List.range 256).map coreCode ++ (List.range 32).map stewardCode ++ (List.range 32).map porterCode
    ++ (List.range 160).map sliceCode ++ (List.range 320).map channelCode

/-- A correctable error arises somewhere: which unit's is free. -/
def execCorrectableError : State → Host.Outcome State Fault Refusal :=
  runStep fun s => match pick s.free errorUnits with
    | some u => s.draw.corrected u
    | none => s

/-- Granules in a slice's bad-granule table (R425). -/
def State.badTable (s : State) (i : Nat) : Nat := (s.gran.filter fun e => e.2.bad && sliceServes (BitVec.ofNat 8 i) (e.1 * 32)).length

/-- An uncorrectable error in a granule of HBM (R424, R425, R452): in the slice's copy where its line is dirty, so that it
enters the bad-granule table, of which the 65th entry fences the slice (R493); otherwise in the stored data. -/
def State.uncorrectable (s : State) (pa : Nat) : State :=
  let i := sliceOf pa
  if !(s.slice i).fenced && (s.slice i).dirty.contains (lineOf pa) then
    let s := s.modGran (pa / 32) fun g => { g with bad := true }
    if 64 < s.badTable i then s.fenceUnit (sliceCode i) 2 0 else s
  else s.modGran (pa / 32) fun g => { g with media := true }

/-- An uncorrectable error arises somewhere (log 78): in a core's architectural state, which fences it (R493), or in a
granule. -/
def execUncorrectableError : State → Host.Outcome State Fault Refusal :=
  runStep fun s =>
    let n := Config.choice (s.free + 1)
    if Config.choice s.free % 2 = 0 then s.draw.draw.fenceUnit (coreCode (n % 256)) 2 0
    else s.draw.draw.uncorrectable (n % (Config.hbmEnd / 32) * 32)

/-- Channels with uncorrectable reads of 4 distinct granules within 24 hours (R493). -/
def State.badChannels (s : State) : List Nat :=
  let cs := (s.health.badReads.filter fun e => decide (s.clock < e.2 + dayClocks)).map fun e => channelOf (e.1 * 32)
  cs.eraseDups.filter fun c => decide (4 ≤ (cs.filter (· == c)).length) && !s.isFenced (channelCode c)

/-- A channel is judged lasting (R493). -/
def execChannelJudge (c : Nat) : State → Host.Outcome State Fault Refusal :=
  runStep fun s => if s.badChannels.contains c then s.fenceUnit (channelCode c) 2 0 else s

/-- A parity error in a Sett entry (R373, R493): the entry is dropped, so that its lookup misses. -/
def State.settParity (s : State) (c : Nat) : State :=
  match pick s.free (s.core c).sett with
  | some e => ((s.modCore c fun x => { x with sett := eraseFirst (fun y => y == e) x.sett }).draw).corrected (coreCode c)
  | none => s

def execSettParity (c : Nat) : State → Host.Outcome State Fault Refusal := runStep fun s => s.settParity c

/-- HOST_LINK_RETRAIN (R493): 8 within a minute fence the port. -/
def State.linkRetrain (s : State) (p : Nat) : State :=
  if !s.portUp p then s
  else
    let (n, s) := (s.modPort p fun x => { x with retrains := x.retrains + 1 }).countEvent (portCode p) minClocks
    if 8 ≤ n then s.fenceUnit (portCode p) 1 (BitVec.ofNat 16 n) else s

def execHostLinkRetrain (p : Bool) : State → Host.Outcome State Fault Refusal :=
  runStep fun s => s.linkRetrain (portNum p)

/-- HOST_LINK_DOWN (R486). -/
def State.linkDown (s : State) (p : Nat) : State :=
  if !s.portUp p then s
  else (s.modPort p fun x => { x with up := false, downSince := s.clock }).losePort p s

def execHostLinkDown (p : Bool) : State → Host.Outcome State Fault Refusal :=
  runStep fun s => s.linkDown (portNum p)

/-- LINK_DOWN_TIMEOUT (R493): 100 ms. -/
def State.linkDead (s : State) (p : Nat) : State :=
  let x := s.port p
  if x.up || x.fenced then s
  else { s with clock := Nat.max s.clock (x.downSince + 100 * Config.msClocks) }.fenceUnit (portCode p) 5 0

def execLinkDownTimeout (p : Bool) : State → Host.Outcome State Fault Refusal :=
  runStep fun s => s.linkDead (portNum p)

/-- What the driver queues and the health log wait to write is written, where it can be (R487, R489). -/
def State.drvRetry (s : State) : State := ((s.flushRewrites s.drv.rewrite.length).flushFaults).flushLog

def execDrvRetry : State → Host.Outcome State Fault Refusal := runStep State.drvRetry

/-- HOST_LINK_UP (R480, R487): the link comes up at a rate, 1 to 3 for 16, 32 and 64 GT/s, and a width, 1 to 3 for x4, x8 and
x16; other codes name no link that the port supports; a fenced port stays fenced. What the driver queues wait to write is
written. -/
def State.linkUp (s : State) (p : Nat) (rate width : BitVec 2) : State :=
  if (s.port p).fenced || rate = 0 || width = 0 then s
  else (s.modPort p fun x => { x with up := true, rate := rate, width := width }).drvRetry

def execHostLinkUp (p : Bool) (rate width : BitVec 2) : State → Host.Outcome State Fault Refusal :=
  runStep fun s => s.linkUp (portNum p) rate width

end Sys2Proof.Machine
end

