-- ==== Sys2Proof/Machine/LoadStore.lean ====
section
/-! DEFINITION. LD and ST (R203 - R206): a block's, and a Steward's, which also reach the registers of the part (R28). -/
namespace Sys2Proof.Machine

/-- One part of a Steward's load. -/
def stewardRead (p : Part) : M (List Byte) := do
  if isIo p.loc.pa then
    match (← get).ioRead p.loc.pa p.len with
    | .ok bs => return bs
    | .error c => accessFault c p.va 0 .load
  else match regionOf p.loc.pa with
    | .core _ off => match winPart off with
      | .stream _ _ _ => accessFault .access p.va 0 .load
      | _ => readPart .normal p
    | _ => readPart .normal p

def stewardReads : List Part → M (List Byte)
  | [] => return []
  | p :: rest => do
    let a ← stewardRead p
    let b ← stewardReads rest
    return a ++ b

/-- A load of n bytes by the current hart. -/
def hartLoad (va : Word) (n : Nat) : M (List Byte) := do
  match (← get).cur with
  | .block _ => loadBytes va n (scalarUse .load) .normal
  | .steward _ =>
    let ps ← locate (scalarUse .load) (cutGranules 3 va n)
    stewardReads ps

/-- The registers that a Steward's store meets are checked before any part is performed. -/
def stewardCheck : List Part → M Unit
  | [] => return ()
  | p :: rest => do
    if isIo p.loc.pa then
      match (← get).ioFault (cutWords 5 p.loc.pa p.len) with
      | some c => accessFault c p.va 0 .store
      | none => pure ()
    stewardCheck rest

def State.stewardWrites (s : State) (k : ClusterId) : List Part → List Byte → State
  | [], _ => s
  | p :: rest, bs =>
    let b := bs.take p.len
    let s := if isIo p.loc.pa then
        (match s.ioWrite (stewardSrc k.toNat) p.loc.pa b with | .ok s => s | .error _ => s)
      else s.writePart .normal p b none
    s.stewardWrites k rest (bs.drop p.len)

/-- A store of bytes by the current hart. -/
def hartStore (va : Word) (bs : List Byte) : M Unit := do
  match (← get).cur with
  | .block _ => storeBytes va bs (scalarUse .store) .normal
  | .steward k =>
    let ps ← locate (scalarUse .store) (cutGranules 3 va bs.length)
    stewardCheck ps
    modify fun s => s.stewardWrites k ps bs

/-- LD (R203): a load to x0 is performed and discarded. -/
def execLd (size : LdSize) (rd rs1 : Reg) (imm : BitVec 13) : State → Host.Outcome State Fault Refusal :=
  runInstr 4 (do
    scalarGate [rd, rs1] rd
    let a ← readX rs1
    let bs ← hartLoad (a + imm.signExtend 64) (LdSizeBytes size).1
    writeX rd (extendLoad (LdSizeBytes size).2 (LdSizeBytes size).1 (natOfBytes bs)))

/-- ST (R203). -/
def execSt (size : StSize) (rs2 rs1 : Reg) (imm : BitVec 13) : State → Host.Outcome State Fault Refusal :=
  runInstr 4 (do
    scalarGate [rs1, rs2] 0
    let a ← readX rs1
    let v ← readX rs2
    hartStore (a + imm.signExtend 64) (bytesOfNat (StSizeBytes size) v.toNat))

end Sys2Proof.Machine
end

