-- ==== Sys2Proof/Machine/Reserved.lean ====
section
/-! DEFINITION. Reserved encodings (R94, R95, R98). -/
namespace Sys2Proof.Machine

/-- Whether a word of a vector-class major has an active element (R95); an MZERO has where mvl > 0 (R379). -/
def State.wordActive (s : State) (sl : SlotId) (major : Nat) (vm : Bool) (mzero : Bool) : Bool :=
  let c := s.vctx sl vm 0
  if major = 0x1C then true
  else if major = 0x25 then decide (c.vstart < c.vl)
  else if mzero then decide (s.hart.mvl ≠ 0)
  else if major = 0x26 then (List.range s.hart.mvl.toNat).any fun i => vm || c.bit 0 i
  else !c.active.isEmpty

/-- What a reserved encoding does: PRIV for a Steward-only major in a block (R98); a no-operation for a vector-class word
with no active element (R95); else ILLEGAL. -/
def reservedWord (w : BitVec 32) : M Unit := do
  let s ← get
  let major := bits w.toNat 26 6
  match s.cur with
  | .steward _ => illegal
  | .block sl =>
    if major = 0x17 then privTrap
    if s.lane.isSome || major < 0x1C || 0x26 < major then illegal
    if s.wordActive sl major (w.getLsbD 10) (major == 0x26 && bits w.toNat 4 6 == 0) then illegal
    modify State.endVector

/-- RESERVED_ENCODING (R94): the words of the encoding, for ctl.tval; a second word where the major has one. -/
def execReservedEncoding (w w2 : BitVec 32) : State → Host.Outcome State Fault Refusal := fun s =>
  runInstr 4 (reservedWord w) { s with ir := BitVec.ofNat 64 (w.toNat + w2.toNat * 2 ^ 32) }

end Sys2Proof.Machine
end

