-- ==== Sys2Proof/Machine/ScalarFp.lean ====
section
/-! DEFINITION. Scalar floating point (R197 - R202). -/
namespace Sys2Proof.Machine

/-- The format of an fmt code (R77). -/
def flOf : FFmt → Fl
  | .f16 => .f16 | .bf16 => .bf16 | .f32 => .f32 | .f64 => .f64

/-- The value bits of a boxed register; an improper box reads as the canonical NaN (R197). -/
def unbox (f : Fl) (w : Word) : Nat :=
  if w.toNat / 2 ^ f.width = 2 ^ (64 - f.width) - 1 then w.toNat % 2 ^ f.width else f.canonNaN

/-- A value boxed with ones (R197). -/
def box (f : Fl) (v : Nat) : Word := BitVec.ofNat 64 (v % 2 ^ f.width + (2 ^ 64 - 2 ^ f.width))

/-- A rounding instruction: mode, operation, flags, boxed result (R199, R202). -/
def fpRound (rm : Rm) (f : Fl) (rd : Reg) (rs : List Reg) (op : Rnd → List Nat → Nat × Nat) :
    State → Host.Outcome State Fault Refusal :=
  runInstr 4 (do
    match rndField (← get) rm with
    | none => illegal
    | some r =>
      scalarGate (rd :: rs) rd
      let s ← get
      let v := op r (rs.map fun x => unbox f (s.getX x))
      raiseFlags v.2
      writeX rd (box f v.1))

/-- An instruction that does not round (R200). -/
def fpPlain (f : Fl) (rd rs1 rs2 : Reg) (op : Nat → Nat → Word × Nat) : State → Host.Outcome State Fault Refusal :=
  runInstr 4 (do
    scalarGate [rd, rs1, rs2] rd
    let a ← readX rs1
    let b ← readX rs2
    let v := op (unbox f a) (unbox f b)
    raiseFlags v.2
    writeX rd v.1)

def arg (l : List Nat) (i : Nat) : Nat := l.getD i 0

/-- FADD (R199). -/
def execFadd (fmt : FFmt) (rm : Rm) (rd rs1 rs2 : Reg) : State → Host.Outcome State Fault Refusal :=
  fpRound rm (flOf fmt) rd [rs1, rs2] fun r l => (flOf fmt).add r (arg l 0) (arg l 1)
/-- FSUB (R199). -/
def execFsub (fmt : FFmt) (rm : Rm) (rd rs1 rs2 : Reg) : State → Host.Outcome State Fault Refusal :=
  fpRound rm (flOf fmt) rd [rs1, rs2] fun r l => (flOf fmt).sub r (arg l 0) (arg l 1)
/-- FMUL (R199). -/
def execFmul (fmt : FFmt) (rm : Rm) (rd rs1 rs2 : Reg) : State → Host.Outcome State Fault Refusal :=
  fpRound rm (flOf fmt) rd [rs1, rs2] fun r l => (flOf fmt).mul r (arg l 0) (arg l 1)
/-- FDIV (R199). -/
def execFdiv (fmt : FFmt) (rm : Rm) (rd rs1 rs2 : Reg) : State → Host.Outcome State Fault Refusal :=
  fpRound rm (flOf fmt) rd [rs1, rs2] fun r l => (flOf fmt).div r (arg l 0) (arg l 1)
/-- FSQRT (R199). -/
def execFsqrt (fmt : FFmt) (rm : Rm) (rd rs1 : Reg) : State → Host.Outcome State Fault Refusal :=
  fpRound rm (flOf fmt) rd [rs1] fun r l => (flOf fmt).sqrt r (arg l 0)
/-- FMA (R199): z is the old rd. -/
def execFma (fmt : FFmt) (rm : Rm) (rd rs1 rs2 : Reg) : State → Host.Outcome State Fault Refusal :=
  fpRound rm (flOf fmt) rd [rs1, rs2, rd] fun r l => (flOf fmt).fma r false false (arg l 0) (arg l 1) (arg l 2)
/-- FMS (R199): z is the old rd. -/
def execFms (fmt : FFmt) (rm : Rm) (rd rs1 rs2 : Reg) : State → Host.Outcome State Fault Refusal :=
  fpRound rm (flOf fmt) rd [rs1, rs2, rd] fun r l => (flOf fmt).fma r false true (arg l 0) (arg l 1) (arg l 2)
/-- FNMA (R199): z is the old rd. -/
def execFnma (fmt : FFmt) (rm : Rm) (rd rs1 rs2 : Reg) : State → Host.Outcome State Fault Refusal :=
  fpRound rm (flOf fmt) rd [rs1, rs2, rd] fun r l => (flOf fmt).fma r true true (arg l 0) (arg l 1) (arg l 2)
/-- FNMS (R199): z is the old rd. -/
def execFnms (fmt : FFmt) (rm : Rm) (rd rs1 rs2 : Reg) : State → Host.Outcome State Fault Refusal :=
  fpRound rm (flOf fmt) rd [rs1, rs2, rd] fun r l => (flOf fmt).fma r true false (arg l 0) (arg l 1) (arg l 2)
/-- FMIN (R200, R121). -/
def execFmin (fmt : FFmt) (rd rs1 rs2 : Reg) : State → Host.Outcome State Fault Refusal :=
  fpPlain (flOf fmt) rd rs1 rs2 fun a b => (box (flOf fmt) ((flOf fmt).minmax false a b).1, ((flOf fmt).minmax false a b).2)
/-- FMAX (R200, R121). -/
def execFmax (fmt : FFmt) (rd rs1 rs2 : Reg) : State → Host.Outcome State Fault Refusal :=
  fpPlain (flOf fmt) rd rs1 rs2 fun a b => (box (flOf fmt) ((flOf fmt).minmax true a b).1, ((flOf fmt).minmax true a b).2)
/-- FEQ (R200, R121). -/
def execFeq (fmt : FFmt) (rd rs1 rs2 : Reg) : State → Host.Outcome State Fault Refusal :=
  fpPlain (flOf fmt) rd rs1 rs2 fun a b => (boolWord ((flOf fmt).cmp .eq a b).1, ((flOf fmt).cmp .eq a b).2)
/-- FLT (R200, R121). -/
def execFlt (fmt : FFmt) (rd rs1 rs2 : Reg) : State → Host.Outcome State Fault Refusal :=
  fpPlain (flOf fmt) rd rs1 rs2 fun a b => (boolWord ((flOf fmt).cmp .lt a b).1, ((flOf fmt).cmp .lt a b).2)
/-- FLE (R200, R121). -/
def execFle (fmt : FFmt) (rd rs1 rs2 : Reg) : State → Host.Outcome State Fault Refusal :=
  fpPlain (flOf fmt) rd rs1 rs2 fun a b => (boolWord ((flOf fmt).cmp .le a b).1, ((flOf fmt).cmp .le a b).2)
/-- FCLASS (R200). -/
def execFclass (fmt : FFmt) (rd rs1 : Reg) : State → Host.Outcome State Fault Refusal :=
  fpPlain (flOf fmt) rd rs1 0 fun a _ => (BitVec.ofNat 64 ((flOf fmt).classify a), 0)
/-- FSGNJ (R200). -/
def execFsgnj (fmt : FFmt) (rd rs1 rs2 : Reg) : State → Host.Outcome State Fault Refusal :=
  fpPlain (flOf fmt) rd rs1 rs2 fun a b => (box (flOf fmt) ((flOf fmt).sgnj 0 a b), 0)
/-- FSGNJN (R200). -/
def execFsgnjn (fmt : FFmt) (rd rs1 rs2 : Reg) : State → Host.Outcome State Fault Refusal :=
  fpPlain (flOf fmt) rd rs1 rs2 fun a b => (box (flOf fmt) ((flOf fmt).sgnj 1 a b), 0)
/-- FSGNJX (R200). -/
def execFsgnjx (fmt : FFmt) (rd rs1 rs2 : Reg) : State → Host.Outcome State Fault Refusal :=
  fpPlain (flOf fmt) rd rs1 rs2 fun a b => (box (flOf fmt) ((flOf fmt).sgnj 2 a b), 0)
/-- The source of a conversion to a floating format (R201): its value, and NV where it is a signalling NaN. -/
def cvtSource (src : Ty) (w : Word) : Fv × Option Int :=
  match src with
  | .i32 => (.nan false, some (sint w.toNat 32))
  | .i64 => (.nan false, some (sint w.toNat 64))
  | .n32 => (.nan false, some (w.toNat % 2 ^ 32 : Nat))
  | .n64 => (.nan false, some w.toNat)
  | .f16 => (Fl.decode .f16 (unbox .f16 w), none)
  | .bf16 => (Fl.decode .bf16 (unbox .bf16 w), none)
  | .f32 => (Fl.decode .f32 (unbox .f32 w), none)
  | .f64 => (Fl.decode .f64 w.toNat, none)
  | .f8e4 => (Fl.decode .f8e4 (unbox .f8e4 w), none)
  | .f8e5 => (Fl.decode .f8e5 (unbox .f8e5 w), none)
  | _ => (if w.toNat / 64 = 2 ^ 58 - 1 then lgDecode (w.toNat % 64) else .nan false, none)

/-- FCVT to a floating format (R201, R120). -/
def execFcvtToFloat (fmt : FFmt) (rm : Rm) (src : Ty) (rd rs1 : Reg) : State → Host.Outcome State Fault Refusal :=
  runInstr 4 (do
    match rndField (← get) rm with
    | none => illegal
    | some r =>
      scalarGate [rd, rs1] rd
      let a ← readX rs1
      let v := match cvtSource src a with
        | (_, some i) => (flOf fmt).ofInt r i
        | (x, none) => (((flOf fmt).deliver r x).1, orFlags (nvIf [x]) ((flOf fmt).deliver r x).2)
      raiseFlags v.2
      writeX rd (box (flOf fmt) v.1))

/-- FCVT to an integer (R201, R120): 32-bit results are extended as their type says. -/
def execFcvtToInt (fmt : FFmt) (rm : Rm) (dst : Ty) (rd rs1 : Reg) : State → Host.Outcome State Fault Refusal :=
  runInstr 4 (do
    match rndField (← get) rm with
    | none => illegal
    | some r =>
      scalarGate [rd, rs1] rd
      let a ← readX rs1
      let x := (flOf fmt).decode (unbox (flOf fmt) a)
      let v := match dst with
        | .i32 => let t := toIntV x r true 32; (wForm (BitVec.ofNat 32 t.1), t.2)
        | .n32 => let t := toIntV x r false 32; (BitVec.ofNat 64 t.1, t.2)
        | .n64 => let t := toIntV x r false 64; (BitVec.ofNat 64 t.1, t.2)
        | _ => let t := toIntV x r true 64; (BitVec.ofNat 64 t.1, t.2)
      raiseFlags v.2
      writeX rd v.1)

end Sys2Proof.Machine
end

