-- ==== Sys2Proof/Machine/Dispatch.lean ====
section
/-! DEFINITION. What each instruction and each step does: one arm per constructor, one call per arm. -/
namespace Sys2Proof.Machine

/-- The outcome of an instruction or step in a state. -/
def exec (i : Instr) (s : State) : Host.Outcome State Fault Refusal :=
  match i with
  | .add rd rs1 rs2 => Sys2Proof.Machine.execAdd rd rs1 rs2 s
  | .sub rd rs1 rs2 => Sys2Proof.Machine.execSub rd rs1 rs2 s
  | .and rd rs1 rs2 => Sys2Proof.Machine.execAnd rd rs1 rs2 s
  | .or rd rs1 rs2 => Sys2Proof.Machine.execOr rd rs1 rs2 s
  | .xor rd rs1 rs2 => Sys2Proof.Machine.execXor rd rs1 rs2 s
  | .andn rd rs1 rs2 => Sys2Proof.Machine.execAndn rd rs1 rs2 s
  | .orn rd rs1 rs2 => Sys2Proof.Machine.execOrn rd rs1 rs2 s
  | .sll rd rs1 rs2 => Sys2Proof.Machine.execSll rd rs1 rs2 s
  | .srl rd rs1 rs2 => Sys2Proof.Machine.execSrl rd rs1 rs2 s
  | .sra rd rs1 rs2 => Sys2Proof.Machine.execSra rd rs1 rs2 s
  | .rol rd rs1 rs2 => Sys2Proof.Machine.execRol rd rs1 rs2 s
  | .ror rd rs1 rs2 => Sys2Proof.Machine.execRor rd rs1 rs2 s
  | .slt rd rs1 rs2 => Sys2Proof.Machine.execSlt rd rs1 rs2 s
  | .sltn rd rs1 rs2 => Sys2Proof.Machine.execSltn rd rs1 rs2 s
  | .min rd rs1 rs2 => Sys2Proof.Machine.execMin rd rs1 rs2 s
  | .max rd rs1 rs2 => Sys2Proof.Machine.execMax rd rs1 rs2 s
  | .minn rd rs1 rs2 => Sys2Proof.Machine.execMinn rd rs1 rs2 s
  | .maxn rd rs1 rs2 => Sys2Proof.Machine.execMaxn rd rs1 rs2 s
  | .czeq rd rs1 rs2 => Sys2Proof.Machine.execCzeq rd rs1 rs2 s
  | .czne rd rs1 rs2 => Sys2Proof.Machine.execCzne rd rs1 rs2 s
  | .clz rd rs1 => Sys2Proof.Machine.execClz rd rs1 s
  | .ctz rd rs1 => Sys2Proof.Machine.execCtz rd rs1 s
  | .popc rd rs1 => Sys2Proof.Machine.execPopc rd rs1 s
  | .bswap rd rs1 => Sys2Proof.Machine.execBswap rd rs1 s
  | .sextb rd rs1 => Sys2Proof.Machine.execSextb rd rs1 s
  | .sexth rd rs1 => Sys2Proof.Machine.execSexth rd rs1 s
  | .sextw rd rs1 => Sys2Proof.Machine.execSextw rd rs1 s
  | .zextw rd rs1 => Sys2Proof.Machine.execZextw rd rs1 s
  | .addw rd rs1 rs2 => Sys2Proof.Machine.execAddw rd rs1 rs2 s
  | .subw rd rs1 rs2 => Sys2Proof.Machine.execSubw rd rs1 rs2 s
  | .sllw rd rs1 rs2 => Sys2Proof.Machine.execSllw rd rs1 rs2 s
  | .srlw rd rs1 rs2 => Sys2Proof.Machine.execSrlw rd rs1 rs2 s
  | .sraw rd rs1 rs2 => Sys2Proof.Machine.execSraw rd rs1 rs2 s
  | .addi rd rs1 imm => Sys2Proof.Machine.execAddi rd rs1 imm s
  | .andi rd rs1 imm => Sys2Proof.Machine.execAndi rd rs1 imm s
  | .ori rd rs1 imm => Sys2Proof.Machine.execOri rd rs1 imm s
  | .xori rd rs1 imm => Sys2Proof.Machine.execXori rd rs1 imm s
  | .slli rd rs1 sh => Sys2Proof.Machine.execSlli rd rs1 sh s
  | .srli rd rs1 sh => Sys2Proof.Machine.execSrli rd rs1 sh s
  | .srai rd rs1 sh => Sys2Proof.Machine.execSrai rd rs1 sh s
  | .addwi rd rs1 imm => Sys2Proof.Machine.execAddwi rd rs1 imm s
  | .slti rd rs1 imm => Sys2Proof.Machine.execSlti rd rs1 imm s
  | .sltni rd rs1 imm => Sys2Proof.Machine.execSltni rd rs1 imm s
  | .lui rd imm => Sys2Proof.Machine.execLui rd imm s
  | .auipc rd imm => Sys2Proof.Machine.execAuipc rd imm s
  | .fadd fmt rm rd rs1 rs2 => Sys2Proof.Machine.execFadd fmt rm rd rs1 rs2 s
  | .fsub fmt rm rd rs1 rs2 => Sys2Proof.Machine.execFsub fmt rm rd rs1 rs2 s
  | .fmul fmt rm rd rs1 rs2 => Sys2Proof.Machine.execFmul fmt rm rd rs1 rs2 s
  | .fdiv fmt rm rd rs1 rs2 => Sys2Proof.Machine.execFdiv fmt rm rd rs1 rs2 s
  | .fsqrt fmt rm rd rs1 => Sys2Proof.Machine.execFsqrt fmt rm rd rs1 s
  | .fma fmt rm rd rs1 rs2 => Sys2Proof.Machine.execFma fmt rm rd rs1 rs2 s
  | .fms fmt rm rd rs1 rs2 => Sys2Proof.Machine.execFms fmt rm rd rs1 rs2 s
  | .fnma fmt rm rd rs1 rs2 => Sys2Proof.Machine.execFnma fmt rm rd rs1 rs2 s
  | .fnms fmt rm rd rs1 rs2 => Sys2Proof.Machine.execFnms fmt rm rd rs1 rs2 s
  | .fmin fmt rd rs1 rs2 => Sys2Proof.Machine.execFmin fmt rd rs1 rs2 s
  | .fmax fmt rd rs1 rs2 => Sys2Proof.Machine.execFmax fmt rd rs1 rs2 s
  | .feq fmt rd rs1 rs2 => Sys2Proof.Machine.execFeq fmt rd rs1 rs2 s
  | .flt fmt rd rs1 rs2 => Sys2Proof.Machine.execFlt fmt rd rs1 rs2 s
  | .fle fmt rd rs1 rs2 => Sys2Proof.Machine.execFle fmt rd rs1 rs2 s
  | .fclass fmt rd rs1 => Sys2Proof.Machine.execFclass fmt rd rs1 s
  | .fsgnj fmt rd rs1 rs2 => Sys2Proof.Machine.execFsgnj fmt rd rs1 rs2 s
  | .fsgnjn fmt rd rs1 rs2 => Sys2Proof.Machine.execFsgnjn fmt rd rs1 rs2 s
  | .fsgnjx fmt rd rs1 rs2 => Sys2Proof.Machine.execFsgnjx fmt rd rs1 rs2 s
  | .fcvtToFloat fmt rm src rd rs1 => Sys2Proof.Machine.execFcvtToFloat fmt rm src rd rs1 s
  | .fcvtToInt fmt rm dst rd rs1 => Sys2Proof.Machine.execFcvtToInt fmt rm dst rd rs1 s
  | .mul rd rs1 rs2 => Sys2Proof.Machine.execMul rd rs1 rs2 s
  | .mulh rd rs1 rs2 => Sys2Proof.Machine.execMulh rd rs1 rs2 s
  | .mulhn rd rs1 rs2 => Sys2Proof.Machine.execMulhn rd rs1 rs2 s
  | .mulhsn rd rs1 rs2 => Sys2Proof.Machine.execMulhsn rd rs1 rs2 s
  | .mulw rd rs1 rs2 => Sys2Proof.Machine.execMulw rd rs1 rs2 s
  | .div rd rs1 rs2 => Sys2Proof.Machine.execDiv rd rs1 rs2 s
  | .divn rd rs1 rs2 => Sys2Proof.Machine.execDivn rd rs1 rs2 s
  | .rem rd rs1 rs2 => Sys2Proof.Machine.execRem rd rs1 rs2 s
  | .remn rd rs1 rs2 => Sys2Proof.Machine.execRemn rd rs1 rs2 s
  | .divw rd rs1 rs2 => Sys2Proof.Machine.execDivw rd rs1 rs2 s
  | .ld size rd rs1 imm => Sys2Proof.Machine.execLd size rd rs1 imm s
  | .st size rs2 rs1 imm => Sys2Proof.Machine.execSt size rs2 rs1 imm s
  | .amo op order width scope rd rs1 rs2 => Sys2Proof.Machine.execAmo op order width scope rd rs1 rs2 s
  | .cas order width scope rd rs1 rs2 => Sys2Proof.Machine.execCas order width scope rd rs1 rs2 s
  | .cas2 order scope rd rs1 rs2 => Sys2Proof.Machine.execCas2 order scope rd rs1 rs2 s
  | .ldaq width scope rd rs1 => Sys2Proof.Machine.execLdaq width scope rd rs1 s
  | .strl width scope rs1 rs2 => Sys2Proof.Machine.execStrl width scope rs1 rs2 s
  | .fence kind scope => Sys2Proof.Machine.execFence kind scope s
  | .fenceSv => Sys2Proof.Machine.execFenceSv s
  | .fenceVs => Sys2Proof.Machine.execFenceVs s
  | .fenceI => Sys2Proof.Machine.execFenceI s
  | .ipref rs1 imm => Sys2Proof.Machine.execIpref rs1 imm s
  | .dpref rs1 imm => Sys2Proof.Machine.execDpref rs1 imm s
  | .beq rs1 rs2 off => Sys2Proof.Machine.execBeq rs1 rs2 off s
  | .bne rs1 rs2 off => Sys2Proof.Machine.execBne rs1 rs2 off s
  | .blt rs1 rs2 off => Sys2Proof.Machine.execBlt rs1 rs2 off s
  | .bge rs1 rs2 off => Sys2Proof.Machine.execBge rs1 rs2 off s
  | .bltn rs1 rs2 off => Sys2Proof.Machine.execBltn rs1 rs2 off s
  | .bgen rs1 rs2 off => Sys2Proof.Machine.execBgen rs1 rs2 off s
  | .jal rd imm => Sys2Proof.Machine.execJal rd imm s
  | .jalr rd rs1 imm => Sys2Proof.Machine.execJalr rd rs1 imm s
  | .jtW xi xn size => Sys2Proof.Machine.execJtW xi xn size s
  | .jtD xi xn size => Sys2Proof.Machine.execJtD xi xn size s
  | .bstrip rs1 rs2 off => Sys2Proof.Machine.execBstrip rs1 rs2 off s
  | .ecall => Sys2Proof.Machine.execEcall s
  | .ebreak => Sys2Proof.Machine.execEbreak s
  | .trapret => Sys2Proof.Machine.execTrapret s
  | .yield => Sys2Proof.Machine.execYield s
  | .widf rd rs1 level => Sys2Proof.Machine.execWidf rd rs1 level s
  | .ctlr rd addr => Sys2Proof.Machine.execCtlr rd addr s
  | .ctlw rd rs1 addr => Sys2Proof.Machine.execCtlw rd rs1 addr s
  | .ctls rd rs1 addr => Sys2Proof.Machine.execCtls rd rs1 addr s
  | .ctlc rd rs1 addr => Sys2Proof.Machine.execCtlc rd rs1 addr s
  | .evpop rd rs1 => Sys2Proof.Machine.execEvpop rd rs1 s
  | .evwait rd rs1 => Sys2Proof.Machine.execEvwait rd rs1 s
  | .slotassign rd rs1 => Sys2Proof.Machine.execSlotassign rd rs1 s
  | .slotevict rd rs1 rs2 => Sys2Proof.Machine.execSlotevict rd rs1 rs2 s
  | .cqpush rd rs1 => Sys2Proof.Machine.execCqpush rd rs1 s
  | .tlbinv rs1 rs2 => Sys2Proof.Machine.execTlbinv rs1 rs2 s
  | .vsetvli rd rs1 vtype => Sys2Proof.Machine.execVsetvli rd rs1 vtype s
  | .vsetvl rd rs1 rs2 => Sys2Proof.Machine.execVsetvl rd rs1 rs2 s
  | .msetmvl rd rs1 => Sys2Proof.Machine.execMsetmvl rd rs1 s
  | .vstream vd rs1 k => Sys2Proof.Machine.execVstream vd rs1 k s
  | .vunstream k => Sys2Proof.Machine.execVunstream k s
  | .vadd k vm vd s1 vs2 => Sys2Proof.Machine.execVadd k vm vd s1 vs2 s
  | .vsub k vm vd s1 vs2 => Sys2Proof.Machine.execVsub k vm vd s1 vs2 s
  | .vrsub k vm vd s1 vs2 => Sys2Proof.Machine.execVrsub k vm vd s1 vs2 s
  | .vmul k vm vd s1 vs2 => Sys2Proof.Machine.execVmul k vm vd s1 vs2 s
  | .vmulh k vm vd s1 vs2 => Sys2Proof.Machine.execVmulh k vm vd s1 vs2 s
  | .vmulhn k vm vd s1 vs2 => Sys2Proof.Machine.execVmulhn k vm vd s1 vs2 s
  | .vdiv k vm vd s1 vs2 => Sys2Proof.Machine.execVdiv k vm vd s1 vs2 s
  | .vdivn k vm vd s1 vs2 => Sys2Proof.Machine.execVdivn k vm vd s1 vs2 s
  | .vrem k vm vd s1 vs2 => Sys2Proof.Machine.execVrem k vm vd s1 vs2 s
  | .vremn k vm vd s1 vs2 => Sys2Proof.Machine.execVremn k vm vd s1 vs2 s
  | .vmin k vm vd s1 vs2 => Sys2Proof.Machine.execVmin k vm vd s1 vs2 s
  | .vmax k vm vd s1 vs2 => Sys2Proof.Machine.execVmax k vm vd s1 vs2 s
  | .vminn k vm vd s1 vs2 => Sys2Proof.Machine.execVminn k vm vd s1 vs2 s
  | .vmaxn k vm vd s1 vs2 => Sys2Proof.Machine.execVmaxn k vm vd s1 vs2 s
  | .vand k vm vd s1 vs2 => Sys2Proof.Machine.execVand k vm vd s1 vs2 s
  | .vor k vm vd s1 vs2 => Sys2Proof.Machine.execVor k vm vd s1 vs2 s
  | .vxor k vm vd s1 vs2 => Sys2Proof.Machine.execVxor k vm vd s1 vs2 s
  | .vsll k vm vd s1 vs2 => Sys2Proof.Machine.execVsll k vm vd s1 vs2 s
  | .vsrl k vm vd s1 vs2 => Sys2Proof.Machine.execVsrl k vm vd s1 vs2 s
  | .vsra k vm vd s1 vs2 => Sys2Proof.Machine.execVsra k vm vd s1 vs2 s
  | .vnsrl k vm vd s1 vs2 => Sys2Proof.Machine.execVnsrl k vm vd s1 vs2 s
  | .vnsra k vm vd s1 vs2 => Sys2Proof.Machine.execVnsra k vm vd s1 vs2 s
  | .vwadd k vm vd s1 vs2 => Sys2Proof.Machine.execVwadd k vm vd s1 vs2 s
  | .vwaddn k vm vd s1 vs2 => Sys2Proof.Machine.execVwaddn k vm vd s1 vs2 s
  | .vwmul k vm vd s1 vs2 => Sys2Proof.Machine.execVwmul k vm vd s1 vs2 s
  | .vwmuln k vm vd s1 vs2 => Sys2Proof.Machine.execVwmuln k vm vd s1 vs2 s
  | .vsadd k vm vd s1 vs2 => Sys2Proof.Machine.execVsadd k vm vd s1 vs2 s
  | .vsaddn k vm vd s1 vs2 => Sys2Proof.Machine.execVsaddn k vm vd s1 vs2 s
  | .vssub k vm vd s1 vs2 => Sys2Proof.Machine.execVssub k vm vd s1 vs2 s
  | .vssubn k vm vd s1 vs2 => Sys2Proof.Machine.execVssubn k vm vd s1 vs2 s
  | .vmacc k vm vd s1 vs2 => Sys2Proof.Machine.execVmacc k vm vd s1 vs2 s
  | .vnmsac k vm vd s1 vs2 => Sys2Proof.Machine.execVnmsac k vm vd s1 vs2 s
  | .vmerge k vd s1 vs2 => Sys2Proof.Machine.execVmerge k vd s1 vs2 s
  | .vmv k vd s1 => Sys2Proof.Machine.execVmv k vd s1 s
  | .vcmp c k vm vd s1 vs2 => Sys2Proof.Machine.execVcmp c k vm vd s1 vs2 s
  | .vfadd k alt vm vd s1 vs2 => Sys2Proof.Machine.execVfadd k alt vm vd s1 vs2 s
  | .vfsub k alt vm vd s1 vs2 => Sys2Proof.Machine.execVfsub k alt vm vd s1 vs2 s
  | .vfrsub k alt vm vd s1 vs2 => Sys2Proof.Machine.execVfrsub k alt vm vd s1 vs2 s
  | .vfmul k alt vm vd s1 vs2 => Sys2Proof.Machine.execVfmul k alt vm vd s1 vs2 s
  | .vfdiv k alt vm vd s1 vs2 => Sys2Proof.Machine.execVfdiv k alt vm vd s1 vs2 s
  | .vfrdiv k alt vm vd s1 vs2 => Sys2Proof.Machine.execVfrdiv k alt vm vd s1 vs2 s
  | .vfsqrt alt vm vd vs2 => Sys2Proof.Machine.execVfsqrt alt vm vd vs2 s
  | .vfrece alt vm vd vs2 => Sys2Proof.Machine.execVfrece alt vm vd vs2 s
  | .vfrsqe alt vm vd vs2 => Sys2Proof.Machine.execVfrsqe alt vm vd vs2 s
  | .vfexp2 alt vm vd vs2 => Sys2Proof.Machine.execVfexp2 alt vm vd vs2 s
  | .vflog2 alt vm vd vs2 => Sys2Proof.Machine.execVflog2 alt vm vd vs2 s
  | .vfmacc k alt vm vd s1 vs2 => Sys2Proof.Machine.execVfmacc k alt vm vd s1 vs2 s
  | .vfnmacc k alt vm vd s1 vs2 => Sys2Proof.Machine.execVfnmacc k alt vm vd s1 vs2 s
  | .vfmsac k alt vm vd s1 vs2 => Sys2Proof.Machine.execVfmsac k alt vm vd s1 vs2 s
  | .vfnmsac k alt vm vd s1 vs2 => Sys2Proof.Machine.execVfnmsac k alt vm vd s1 vs2 s
  | .vfmin k alt vm vd s1 vs2 => Sys2Proof.Machine.execVfmin k alt vm vd s1 vs2 s
  | .vfmax k alt vm vd s1 vs2 => Sys2Proof.Machine.execVfmax k alt vm vd s1 vs2 s
  | .vfsgnj k alt vm vd s1 vs2 => Sys2Proof.Machine.execVfsgnj k alt vm vd s1 vs2 s
  | .vfclass alt vm vd vs2 => Sys2Proof.Machine.execVfclass alt vm vd vs2 s
  | .vfcvt code salt dalt vm vd vs2 => Sys2Proof.Machine.execVfcvt code salt dalt vm vd vs2 s
  | .vfsgnjN k alt vm vd s1 vs2 => Sys2Proof.Machine.execVfsgnjN k alt vm vd s1 vs2 s
  | .vfsgnjX k alt vm vd s1 vs2 => Sys2Proof.Machine.execVfsgnjX k alt vm vd s1 vs2 s
  | .vfcmp c k alt vm vd s1 vs2 => Sys2Proof.Machine.execVfcmp c k alt vm vd s1 vs2 s
  | .vlmul vm vd vs1 vs2 => Sys2Proof.Machine.execVlmul vm vd vs1 vs2 s
  | .vldot vm vd vs1 vs2 => Sys2Proof.Machine.execVldot vm vd vs1 vs2 s
  | .vlcvt fromLg alt vm vd vs2 => Sys2Proof.Machine.execVlcvt fromLg alt vm vd vs2 s
  | .vlscale k vm vd s1 vs2 => Sys2Proof.Machine.execVlscale k vm vd s1 vs2 s
  | .vredsum vm vd vs1 vs2 => Sys2Proof.Machine.execVredsum vm vd vs1 vs2 s
  | .vredmin vm vd vs1 vs2 => Sys2Proof.Machine.execVredmin vm vd vs1 vs2 s
  | .vredmax vm vd vs1 vs2 => Sys2Proof.Machine.execVredmax vm vd vs1 vs2 s
  | .vredminn vm vd vs1 vs2 => Sys2Proof.Machine.execVredminn vm vd vs1 vs2 s
  | .vredmaxn vm vd vs1 vs2 => Sys2Proof.Machine.execVredmaxn vm vd vs1 vs2 s
  | .vredand vm vd vs1 vs2 => Sys2Proof.Machine.execVredand vm vd vs1 vs2 s
  | .vredor vm vd vs1 vs2 => Sys2Proof.Machine.execVredor vm vd vs1 vs2 s
  | .vredxor vm vd vs1 vs2 => Sys2Proof.Machine.execVredxor vm vd vs1 vs2 s
  | .vfredsum alt vm vd vs1 vs2 => Sys2Proof.Machine.execVfredsum alt vm vd vs1 vs2 s
  | .vfredosum alt vm vd vs1 vs2 => Sys2Proof.Machine.execVfredosum alt vm vd vs1 vs2 s
  | .vfredmin alt vm vd vs1 vs2 => Sys2Proof.Machine.execVfredmin alt vm vd vs1 vs2 s
  | .vfredmax alt vm vd vs1 vs2 => Sys2Proof.Machine.execVfredmax alt vm vd vs1 vs2 s
  | .vslideup k vm vd s1 vs2 => Sys2Proof.Machine.execVslideup k vm vd s1 vs2 s
  | .vslidedn k vm vd s1 vs2 => Sys2Proof.Machine.execVslidedn k vm vd s1 vs2 s
  | .vslide1up k vm vd s1 vs2 => Sys2Proof.Machine.execVslide1up k vm vd s1 vs2 s
  | .vslide1dn k vm vd s1 vs2 => Sys2Proof.Machine.execVslide1dn k vm vd s1 vs2 s
  | .vgather k vm vd s1 vs2 => Sys2Proof.Machine.execVgather k vm vd s1 vs2 s
  | .vcompress vd vs1 vs2 => Sys2Proof.Machine.execVcompress vd vs1 vs2 s
  | .vrotl k vm vd s1 vs2 => Sys2Proof.Machine.execVrotl k vm vd s1 vs2 s
  | .vmvxs vm rd vs2 => Sys2Proof.Machine.execVmvxs vm rd vs2 s
  | .vmvsx vm vd rs1 => Sys2Proof.Machine.execVmvsx vm vd rs1 s
  | .vxq vm vd vs2 => Sys2Proof.Machine.execVxq vm vd vs2 s
  | .vxqw vm vs1 vs2 => Sys2Proof.Machine.execVxqw vm vs1 vs2 s
  | .vscan op vm vd vs1 vs2 => Sys2Proof.Machine.execVscan op vm vd vs1 vs2 s
  | .vmand vd vs1 vs2 => Sys2Proof.Machine.execVmand vd vs1 vs2 s
  | .vmor vd vs1 vs2 => Sys2Proof.Machine.execVmor vd vs1 vs2 s
  | .vmxor vd vs1 vs2 => Sys2Proof.Machine.execVmxor vd vs1 vs2 s
  | .vmandn vd vs1 vs2 => Sys2Proof.Machine.execVmandn vd vs1 vs2 s
  | .vmnand vd vs1 vs2 => Sys2Proof.Machine.execVmnand vd vs1 vs2 s
  | .vmpop vm rd vs2 => Sys2Proof.Machine.execVmpop vm rd vs2 s
  | .vmfirst vm rd vs2 => Sys2Proof.Machine.execVmfirst vm rd vs2 s
  | .viota vm vd vs2 => Sys2Proof.Machine.execViota vm vd vs2 s
  | .vid vm vd => Sys2Proof.Machine.execVid vm vd s
  | .vle eew hint vm vd rs1 => Sys2Proof.Machine.execVle eew hint vm vd rs1 s
  | .vlse eew hint vm vd rs1 rs2 => Sys2Proof.Machine.execVlse eew hint vm vd rs1 rs2 s
  | .vlxe eew hint vm vd rs1 vs2 => Sys2Proof.Machine.execVlxe eew hint vm vd rs1 vs2 s
  | .vleff eew hint vm vd rs1 => Sys2Proof.Machine.execVleff eew hint vm vd rs1 s
  | .vlsc eew hint vm vd rs1 rs2 => Sys2Proof.Machine.execVlsc eew hint vm vd rs1 rs2 s
  | .vse eew hint vm vs3 rs1 => Sys2Proof.Machine.execVse eew hint vm vs3 rs1 s
  | .vsse eew hint vm vs3 rs1 rs2 => Sys2Proof.Machine.execVsse eew hint vm vs3 rs1 rs2 s
  | .vsxe eew hint vm vs3 rs1 vs2 => Sys2Proof.Machine.execVsxe eew hint vm vs3 rs1 vs2 s
  | .vssc eew hint vm vs3 rs1 rs2 => Sys2Proof.Machine.execVssc eew hint vm vs3 rs1 rs2 s
  | .vamo op order width vm vd rs1 vs2 => Sys2Proof.Machine.execVamo op order width vm vd rs1 vs2 s
  | .vwait c order width vm vd rs1 vs2 => Sys2Proof.Machine.execVwait c order width vm vd rs1 vs2 s
  | .vrrs op order width vm vd rs1 vs2 => Sys2Proof.Machine.execVrrs op order width vm vd rs1 vs2 s
  | .lbr c ra rb off => Sys2Proof.Machine.execLbr c ra rb off s
  | .vsplit va off => Sys2Proof.Machine.execVsplit va off s
  | .vjoin => Sys2Proof.Machine.execVjoin s
  | .mzero ac => Sys2Proof.Machine.execMzero ac s
  | .mhold ty vm vs1 vs2 => Sys2Proof.Machine.execMhold ty vm vs1 vs2 s
  | .mop ty vm ac vs1 vs2 => Sys2Proof.Machine.execMop ty vm ac vs1 vs2 s
  | .mops ty vm ac vs1 vs2 => Sys2Proof.Machine.execMops ty vm ac vs1 vs2 s
  | .mhmul ty vm ac vs1 => Sys2Proof.Machine.execMhmul ty vm ac vs1 s
  | .mrd vm ac vd rs1 => Sys2Proof.Machine.execMrd vm ac vd rs1 s
  | .mwr vm ac vd rs1 => Sys2Proof.Machine.execMwr vm ac vd rs1 s
  | .tdef tn ra => Sys2Proof.Machine.execTdef tn ra s
  | .tshape ra => Sys2Proof.Machine.execTshape ra s
  | .tfree tn => Sys2Proof.Machine.execTfree tn s
  | .twait tn ra g => Sys2Proof.Machine.execTwait tn ra g s
  | .tchk tn ra g => Sys2Proof.Machine.execTchk tn ra g s
  | .tacq tn va => Sys2Proof.Machine.execTacq tn va s
  | .tsignal ra rb => Sys2Proof.Machine.execTsignal ra rb s
  | .tsignalAdd ra rb => Sys2Proof.Machine.execTsignalAdd ra rb s
  | .tbar ra b => Sys2Proof.Machine.execTbar ra b s
  | .tend => Sys2Proof.Machine.execTend s
  | .tlaunch ra rb => Sys2Proof.Machine.execTlaunch ra rb s
  | .tld hint ev ty td ra rb => Sys2Proof.Machine.execTld hint ev ty td ra rb s
  | .tldPb hint ev td ra gen => Sys2Proof.Machine.execTldPb hint ev td ra gen s
  | .tst hint ev ty ta ra rb => Sys2Proof.Machine.execTst hint ev ty ta ra rb s
  | .tstPb hint ev ta ra gen => Sys2Proof.Machine.execTstPb hint ev ta ra gen s
  | .tcpy ev td ta => Sys2Proof.Machine.execTcpy ev td ta s
  | .tcpyPb hint ev ra gen => Sys2Proof.Machine.execTcpyPb hint ev ra gen s
  | .tzero ev td => Sys2Proof.Machine.execTzero ev td s
  | .tcoll hint ev op td ta ra rb => Sys2Proof.Machine.execTcoll hint ev op td ta ra rb s
  | .tmma z out ac td ta tb => Sys2Proof.Machine.execTmma z out ac td ta tb s
  | .tmmas z out ac td ta tb => Sys2Proof.Machine.execTmmas z out ac td ta tb s
  | .tmmv z out ac td ta tb => Sys2Proof.Machine.execTmmv z out ac td ta tb s
  | .tmap len two td ta tb ra rb => Sys2Proof.Machine.execTmap len two td ta tb ra rb s
  | .tred len two td ta tb ra rb => Sys2Proof.Machine.execTred len two td ta tb ra rb s
  | .tsend ta ra rb c => Sys2Proof.Machine.execTsend ta ra rb c s
  | .trecv td ra c => Sys2Proof.Machine.execTrecv td ra c s
  | .tdiscard ra rb => Sys2Proof.Machine.execTdiscard ra rb s
  | .fbias flush ra rb tag => Sys2Proof.Machine.execFbias flush ra rb tag s
  | .fstat ra sel => Sys2Proof.Machine.execFstat ra sel s
  | .launchQueueEnable q => Sys2Proof.Machine.execLaunchQueueEnable q s
  | .launchQueueDisable q => Sys2Proof.Machine.execLaunchQueueDisable q s
  | .tailWordNotice q => Sys2Proof.Machine.execTailWordNotice q s
  | .launchRecordConsume q => Sys2Proof.Machine.execLaunchRecordConsume q s
  | .launchCompletion q => Sys2Proof.Machine.execLaunchCompletion q s
  | .completionHeadAdvance q head => Sys2Proof.Machine.execCompletionHeadAdvance q head s
  | .dispatchPlace q number k => Sys2Proof.Machine.execDispatchPlace q number k s
  | .agingTick t => Sys2Proof.Machine.execAgingTick t s
  | .preemptSend q number => Sys2Proof.Machine.execPreemptSend q number s
  | .eventRecordPost k => Sys2Proof.Machine.execEventRecordPost k s
  | .stewardPlacement k => Sys2Proof.Machine.execStewardPlacement k s
  | .stewardPreempt k => Sys2Proof.Machine.execStewardPreempt k s
  | .parkTimeout sl => Sys2Proof.Machine.execParkTimeout sl s
  | .stewardReplay k => Sys2Proof.Machine.execStewardReplay k s
  | .stewardTlaunch k => Sys2Proof.Machine.execStewardTlaunch k s
  | .stewardFence k => Sys2Proof.Machine.execStewardFence k s
  | .evictionComplete sl => Sys2Proof.Machine.execEvictionComplete sl s
  | .evwaitTimeout k => Sys2Proof.Machine.execEvwaitTimeout k s
  | .vwaitTimeout sl => Sys2Proof.Machine.execVwaitTimeout sl s
  | .tileCommit sl => Sys2Proof.Machine.execTileCommit sl s
  | .roomAllocate sl => Sys2Proof.Machine.execRoomAllocate sl s
  | .instanceRelease sl => Sys2Proof.Machine.execInstanceRelease sl s
  | .branchMispredictSquash sl => Sys2Proof.Machine.execBranchMispredictSquash sl s
  | .microOpIssue core eng => Sys2Proof.Machine.execMicroOpIssue core eng s
  | .chunkComplete k cmd chunk => Sys2Proof.Machine.execChunkComplete k cmd chunk s
  | .failedWriteRecord sl f => Sys2Proof.Machine.execFailedWriteRecord sl f s
  | .storeAck slice => Sys2Proof.Machine.execStoreAck slice s
  | .loadReply slice => Sys2Proof.Machine.execLoadReply slice s
  | .requestResend slice src seq => Sys2Proof.Machine.execRequestResend slice src seq s
  | .pathReport slice src seq failed => Sys2Proof.Machine.execPathReport slice src seq failed s
  | .sliceRequestAdmit slice r => Sys2Proof.Machine.execSliceRequestAdmit slice r s
  | .columnLineFill slice line => Sys2Proof.Machine.execColumnLineFill slice line s
  | .watchNotice => Sys2Proof.Machine.execWatchNotice s
  | .watchPoll w => Sys2Proof.Machine.execWatchPoll w s
  | .windowPortAccess a => Sys2Proof.Machine.execWindowPortAccess a s
  | .denNaming sl v => Sys2Proof.Machine.execDenNaming sl v s
  | .bisnpResponse line data => Sys2Proof.Machine.execBisnpResponse line data s
  | .snoopTimeout line => Sys2Proof.Machine.execSnoopTimeout line s
  | .hostMemRequest p r => Sys2Proof.Machine.execHostMemRequest p r s
  | .hostCacheSnoop p line => Sys2Proof.Machine.execHostCacheSnoop p line s
  | .hostLineGrant p line grant => Sys2Proof.Machine.execHostLineGrant p line grant s
  | .baseRead b r => Sys2Proof.Machine.execBaseRead b r s
  | .baseWrite b r => Sys2Proof.Machine.execBaseWrite b r s
  | .baseDiscard b r => Sys2Proof.Machine.execBaseDiscard b r s
  | .baseSector b tag stripe col => Sys2Proof.Machine.execBaseSector b tag stripe col s
  | .baseCompletion b => Sys2Proof.Machine.execBaseCompletion b s
  | .sectorDecodeDone b => Sys2Proof.Machine.execSectorDecodeDone b s
  | .settleGo die v => Sys2Proof.Machine.execSettleGo die v s
  | .settleComplete die => Sys2Proof.Machine.execSettleComplete die s
  | .acctlClear b => Sys2Proof.Machine.execAcctlClear b s
  | .acdumpGo b => Sys2Proof.Machine.execAcdumpGo b s
  | .acdumpComplete b => Sys2Proof.Machine.execAcdumpComplete b s
  | .hacctlClear p => Sys2Proof.Machine.execHacctlClear p s
  | .hacdumpGo p => Sys2Proof.Machine.execHacdumpGo p s
  | .hacdumpComplete p => Sys2Proof.Machine.execHacdumpComplete p s
  | .fctlWrite v => Sys2Proof.Machine.execFctlWrite v s
  | .ferryTurnStart => Sys2Proof.Machine.execFerryTurnStart s
  | .ferryDrainEnd => Sys2Proof.Machine.execFerryDrainEnd s
  | .ferryQuietEnd => Sys2Proof.Machine.execFerryQuietEnd s
  | .ferryCheckEnd ok => Sys2Proof.Machine.execFerryCheckEnd ok s
  | .planEntryExpire => Sys2Proof.Machine.execPlanEntryExpire s
  | .flitReceive c f => Sys2Proof.Machine.execFlitReceive c f s
  | .flitReplayTimeout c => Sys2Proof.Machine.execFlitReplayTimeout c s
  | .laneLockLoss c => Sys2Proof.Machine.execLaneLockLoss c s
  | .drainTimeout => Sys2Proof.Machine.execDrainTimeout s
  | .retrainEnd c bad => Sys2Proof.Machine.execRetrainEnd c bad s
  | .crossroadsSlot k => Sys2Proof.Machine.execCrossroadsSlot k s
  | .remoteChunkRequest k r => Sys2Proof.Machine.execRemoteChunkRequest k r s
  | .porterCommandStart k cmd => Sys2Proof.Machine.execPorterCommandStart k cmd s
  | .copyComplete k cmd => Sys2Proof.Machine.execCopyComplete k cmd s
  | .streamRefill sl kq => Sys2Proof.Machine.execStreamRefill sl kq s
  | .streamInboundWrite a => Sys2Proof.Machine.execStreamInboundWrite a s
  | .pctlWrite k v => Sys2Proof.Machine.execPctlWrite k v s
  | .porterWatchdog k => Sys2Proof.Machine.execPorterWatchdog k s
  | .porterFirmwareTrap k => Sys2Proof.Machine.execPorterFirmwareTrap k s
  | .icacheFill core f => Sys2Proof.Machine.execIcacheFill core f s
  | .pageWalkStart die w => Sys2Proof.Machine.execPageWalkStart die w s
  | .pageWalkEntryRead die n => Sys2Proof.Machine.execPageWalkEntryRead die n s
  | .bar0Access p r => Sys2Proof.Machine.execBar0Access p r s
  | .driverQueueEnable d => Sys2Proof.Machine.execDriverQueueEnable d s
  | .faultQueueHeadAdvance head => Sys2Proof.Machine.execFaultQueueHeadAdvance head s
  | .replayCommandRetry => Sys2Proof.Machine.execReplayCommandRetry s
  | .replayCommandAbort => Sys2Proof.Machine.execReplayCommandAbort s
  | .invalidationCommand => Sys2Proof.Machine.execInvalidationCommand s
  | .invalidationDone k => Sys2Proof.Machine.execInvalidationDone k s
  | .hostLinkRetrain p => Sys2Proof.Machine.execHostLinkRetrain p s
  | .hostLinkDown p => Sys2Proof.Machine.execHostLinkDown p s
  | .linkDownTimeout p => Sys2Proof.Machine.execLinkDownTimeout p s
  | .stewardServiceTimeout k => Sys2Proof.Machine.execStewardServiceTimeout k s
  | .unitFence u why => Sys2Proof.Machine.execUnitFence u why s
  | .hresetWarm => Sys2Proof.Machine.execHresetWarm s
  | .functionLevelReset => Sys2Proof.Machine.execFunctionLevelReset s
  | .warmResetComplete => Sys2Proof.Machine.execWarmResetComplete s
  | .coldReset boot => Sys2Proof.Machine.execColdReset boot s
  | .hretireWrite v => Sys2Proof.Machine.execHretireWrite v s
  | .healthLogEnable => Sys2Proof.Machine.execHealthLogEnable s
  | .thermalThrottle junction watts => Sys2Proof.Machine.execThermalThrottle junction watts s
  | .thermalShutdown => Sys2Proof.Machine.execThermalShutdown s
  | .spdmGetMeasurements => Sys2Proof.Machine.execSpdmGetMeasurements s
  | .registerWrite off v => Sys2Proof.Machine.execRegisterWrite off v s
  | .reservedEncoding w w2 => Sys2Proof.Machine.execReservedEncoding w w2 s
  | .hostLinkUp p rate width => Sys2Proof.Machine.execHostLinkUp p rate width s
  | .powerLoss => Sys2Proof.Machine.execPowerLoss s
  | .dispatcherOrHealthFault => Sys2Proof.Machine.execDispatcherOrHealthFault s
  | .porterDatapathPrimitive k cmd prim => Sys2Proof.Machine.execPorterDatapathPrimitive k cmd prim s
  | .thermalThrottleEnd junction watts => Sys2Proof.Machine.execThermalThrottleEnd junction watts s

end Sys2Proof.Machine
end

