-- ==== Sys2Proof/Machine/Turn.lean ====
section
/-! DEFINITION. A hart's turn: a stop fault, the initial tile records (R160), a flight-list entry (R353), or the fetch,
decode and execution of the instruction at the PC (R67 - R73, R224, R225). -/
namespace Sys2Proof.Machine

/-! ### Decode and run -/

/-- The instruction of a first word, and of a long form's second, run: its meaning, or that of a reserved encoding
(R94). -/
noncomputable def runWords (w v : Nat) (s : State) : Host.Outcome State Fault Refusal :=
  match decodeWords w v with
  | .ok i => exec i s
  | .error _ => execReservedEncoding (BitVec.ofNat 32 w) (BitVec.ofNat 32 v) s

/-- The meanings of the rows that `longForms` names. -/
def runForms (s : State) : LongForms (Host.Outcome State Fault Refusal) where
  tbar a b := execTbar a b s
  tlaunch a b := execTlaunch a b s
  tld a b c d e f := execTld a b c d e f s
  tldPb a b c d e := execTldPb a b c d e s
  tst a b c d e f := execTst a b c d e f s
  tstPb a b c d e := execTstPb a b c d e s
  tcpy a b c := execTcpy a b c s
  tcpyPb a b c d := execTcpyPb a b c d s
  tzero a b := execTzero a b s
  tcoll a b c d e f g := execTcoll a b c d e f g s
  tmma a b c d e f := execTmma a b c d e f s
  tmmas a b c d e f := execTmmas a b c d e f s
  tmmv a b c d e f := execTmmv a b c d e f s
  tmap a b c d e f g := execTmap a b c d e f g s
  tred a b c d e f g := execTred a b c d e f g s
  tsend a b c d := execTsend a b c d s
  trecv a b c := execTrecv a b c s
  tdiscard a b := execTdiscard a b s
  fbias a b c d := execFbias a b c d s
  fstat a b := execFstat a b s

/-- runWords, without building the instruction of a long form (log 19). -/
def runWordsDirect (w v : Nat) (s : State) : Host.Outcome State Fault Refusal :=
  match decodeWith (fun i => exec i s) (runForms s) w v with
  | .ok o => o
  | .error _ => execReservedEncoding (BitVec.ofNat 32 w) (BitVec.ofNat 32 v) s

/-- Compiled code runs the direct form. -/
@[csimp] theorem runWords_eq_direct : @runWords = @runWordsDirect := by
  funext w v s
  have h : runForms s = mapForms (fun i => exec i s) longForms := rfl
  unfold runWordsDirect runWords
  rw [h, decodeWith_eq]
  cases decodeWords w v <;> rfl

/-! ### Fetch -/

/-- The words of the lane instruction buffer that a slot's current instruction comes from: a function's in a call, a
region's in lane threads (R339, R345). -/
def State.heldWord (s : State) (sl : SlotId) (pc : Word) : Option (BitVec 32) :=
  let x := s.slot sl
  if x.call.isNone && x.threads.isNone then none
  else (s.core (slotCore sl)).lib.findSome? fun e =>
    if e.ctx == x.ctx && e.fn == x.call.isSome && (pc - e.addr).toNat % 4 == 0 then e.words[(pc - e.addr).toNat / 4]? else none

/-- The first word at an address: a block's comes from its held words or is fetched, a Steward's is fetched. -/
def firstWord (va : Word) : M Nat := do
  let s ← get
  match s.cur with
  | .block sl =>
    match s.heldWord sl va with
    | some w => return w.toNat
    | none => fetchWord va
  | .steward _ => fetchWord va

/-- The words of the instruction at an address: a long form's second word is fetched too (R69). -/
def fetchInstr (va : Word) : M (Nat × Nat) := do
  let w ← firstWord va
  if isLong w then
    let v ← firstWord (va + 4)
    return (w, v)
  else return (w, 0)

/-- Fetch, decode and run the instruction at the current hart's PC. A fetch fault is a trap of the instruction (R225). -/
def State.runNext (s : State) : Host.Outcome State Fault Refusal :=
  match (fetchInstr s.pc).run s with
  | .ok (w, v) s => runWords w v { s with ir := BitVec.ofNat 64 (w + 2 ^ 32 * v) }
  | .error (.trap t) s => .next (s.takeTrap t)
  | .error .stall s => .next s

/-! ### What comes before a block's first instruction, and what is in flight -/

/-- The 16 initial tile records (R160). -/
def readTiles (sl : SlotId) : M Unit := do
  let s ← get
  let ps ← locateEach (scalarUse .load) (cutGranules 16 ((s.slot sl).lrec.tiles &&& ~~~(31 : Word)) 512)
  let v := natOfBytes (← readParts .normal ps)
  modify fun s => s.modSlot sl fun x =>
    { x with needTiles := false, tiles := Vector.ofFn fun (i : Fin 16) => BitVec.ofNat 256 (v / 2 ^ (256 * i.val)) }

/-- Words that a resumed block's lane instruction buffer is to hold: its unfinished functions, and its region (R343, R345). -/
def Slot.codeWanted (x : Slot) : List (Word × Nat × Bool) :=
  x.functions.map (fun f => (f.1, f.2, true))
  ++ match x.threads with
    | some t => if x.call.isSome then [] else [(t.split + 4, (t.join - t.split).toNat / 4, false)]
    | none => []

def holdAll (sl : SlotId) : List (Word × Nat × Bool) → M Unit
  | [] => return ()
  | e :: rest => do
    holdCode sl e.1 e.2.1 e.2.2
    holdAll sl rest

/-- A resumed block's functions and region are fetched again (R343, R345). -/
def reloadLib (sl : SlotId) : M Unit := do
  holdAll sl ((← get).slot sl).codeWanted
  modify fun s => s.modSlot sl fun x => { x with needLib := false }

/-- An operation on the current hart that may trap. -/
def State.workM (s : State) (m : M Unit) : State :=
  match m.run s with
  | .ok _ s => s
  | .error (.trap t) s => s.takeTrap t
  | .error .stall s => s

/-- Words whose [25:21] register is scalar. -/
def scalarDest (w : Nat) : Bool :=
  let major := bits w 26 6
  (major == 0x20 && bits w 4 6 == 0x17) || (major == 0x21 && (bits w 4 6 == 8 || bits w 4 6 == 9))

/-- The hart as a flight-list entry's instruction sees it (R353, R397): past its trap point, so that no floating trap is
enabled (R230) and nothing goes to ctl.tvec. -/
def flightHart (h : Hart) (e : Flight) : Hart :=
  let w := e.word.toNat
  let b : Reg := BitVec.ofNat 5 (bits w 11 5)
  let a : Reg := BitVec.ofNat 5 (bits w 16 5)
  { h with
    pc := e.va, vstart := e.start, vl := e.vl.zeroExtend 64, vtype := e.vtype
    mvl := if bits w 26 6 = 0x26 then e.vl.truncate 8 else h.mvl
    tvec := 0
    fcsr := (h.fcsr &&& ~~~(0x1F6E0 : BitVec 17)) ||| (e.frm.zeroExtend 17 <<< 5) ||| (e.vxrm.zeroExtend 17 <<< 9)
    x := ((h.x.set b.toFin e.b).set a.toFin e.a).set 0 0 }

/-- The block's own registers after an entry has run: what it accrued and counted stays. -/
def landHart (h after : Hart) (w : Nat) : Hart :=
  let rd : Reg := BitVec.ofNat 5 (bits w 21 5)
  { h with
    x := if scalarDest w && rd != 0 then h.x.set rd.toFin after.x[rd.toFin] else h.x
    fcsr := h.fcsr ||| (after.fcsr &&& 0x81F)
    setthit := after.setthit, settmiss := after.settmiss, settkill := after.settkill }

/-- One attempt at the oldest entry of the flight list. It leaves the list when its instruction completes, or as a VSPLIT
starts its lane threads; where it parks, its start says how far it came. A stop leaves the PC at it. -/
def State.runFlight (s : State) (sl : SlotId) (e : Flight) : Host.Outcome State Fault Refusal :=
  let h := (s.slot sl).hart
  let s := s.modSlot sl fun x => { x with flying := true, hart := flightHart h e }
  match runWords e.word.toNat 0 { s with ir := e.word.zeroExtend 64 } with
  | .next t =>
    let x := t.slot sl
    let done := x.hart.pc != e.va || x.threads.isSome
    if x.run == .empty then .next t
    else .next (t.modSlot sl fun x =>
      { x with flying := false
               threads := x.threads.map fun th => { th with after := some h.pc }
               hart := if x.halted then x.hart else landHart h x.hart e.word.toNat
               flight := if done then x.flight.drop 1 else setAt x.flight 0 { e with start := x.hart.vstart } })
  | o => o

/-! ### What an eviction finds in flight (R349 - R351, R396, R400) -/

/-- How an instruction may stand in a flight list. -/
inductive FlightKind where
  /-- It completes, or has not passed its trap point. -/
  | no
  /-- It is not split (R350). -/
  | whole
  | split
  /-- VLSC, VSSC: it stops at any element, none of a younger one before it ends (R350). -/
  | ticket
  /-- A store: it has passed its trap point only where what it follows has completed. -/
  | store
  deriving DecidableEq, Repr

/-- R230, R350, R396; `fp`: no floating trap is enabled. VMVXS, VMPOP, VMFIRST, VWAIT, loads and VAMO retire on completion. -/
def flightKind (fp : Bool) : Instr → FlightKind
  | .vadd _ _ _ _ _ | .vsub _ _ _ _ _ | .vrsub _ _ _ _ _ | .vmul _ _ _ _ _ | .vmulh _ _ _ _ _ | .vmulhn _ _ _ _ _
  | .vdiv _ _ _ _ _ | .vdivn _ _ _ _ _ | .vrem _ _ _ _ _ | .vremn _ _ _ _ _ | .vmin _ _ _ _ _ | .vmax _ _ _ _ _
  | .vminn _ _ _ _ _ | .vmaxn _ _ _ _ _ | .vand _ _ _ _ _ | .vor _ _ _ _ _ | .vxor _ _ _ _ _ | .vsll _ _ _ _ _
  | .vsrl _ _ _ _ _ | .vsra _ _ _ _ _ | .vnsrl _ _ _ _ _ | .vnsra _ _ _ _ _ | .vwadd _ _ _ _ _ | .vwaddn _ _ _ _ _
  | .vwmul _ _ _ _ _ | .vwmuln _ _ _ _ _ | .vsadd _ _ _ _ _ | .vsaddn _ _ _ _ _ | .vssub _ _ _ _ _ | .vssubn _ _ _ _ _
  | .vmacc _ _ _ _ _ | .vnmsac _ _ _ _ _ | .vmerge _ _ _ _ | .vmv _ _ _ | .vcmp _ _ _ _ _ _ | .vmand _ _ _ | .vmor _ _ _
  | .vmxor _ _ _ | .vmandn _ _ _ | .vmnand _ _ _ | .vid _ _ | .vmvsx _ _ _ | .vxq _ _ _ | .vxqw _ _ _
  | .mhold _ _ _ _ | .mop _ _ _ _ _ | .mops _ _ _ _ _ | .mhmul _ _ _ _ | .mrd _ _ _ _ | .mwr _ _ _ _ => .split
  | .vscan op _ _ _ _ => if fp || op != .fadd then .split else .no
  | .vfadd _ _ _ _ _ _ | .vfsub _ _ _ _ _ _ | .vfrsub _ _ _ _ _ _ | .vfmul _ _ _ _ _ _ | .vfdiv _ _ _ _ _ _
  | .vfrdiv _ _ _ _ _ _ | .vfsqrt _ _ _ _ | .vfrece _ _ _ _ | .vfrsqe _ _ _ _ | .vfexp2 _ _ _ _ | .vflog2 _ _ _ _
  | .vfmacc _ _ _ _ _ _ | .vfnmacc _ _ _ _ _ _ | .vfmsac _ _ _ _ _ _ | .vfnmsac _ _ _ _ _ _ | .vfmin _ _ _ _ _ _
  | .vfmax _ _ _ _ _ _ | .vfsgnj _ _ _ _ _ _ | .vfclass _ _ _ _ | .vfcvt _ _ _ _ _ _ | .vfsgnjN _ _ _ _ _ _
  | .vfsgnjX _ _ _ _ _ _ | .vfcmp _ _ _ _ _ _ _ | .vlmul _ _ _ _ | .vlcvt _ _ _ _ _ | .vlscale _ _ _ _ _ =>
    if fp then .split else .no
  | .vredsum _ _ _ _ | .vredmin _ _ _ _ | .vredmax _ _ _ _ | .vredminn _ _ _ _ | .vredmaxn _ _ _ _ | .vredand _ _ _ _
  | .vredor _ _ _ _ | .vredxor _ _ _ _ | .vslideup _ _ _ _ _ | .vslidedn _ _ _ _ _ | .vslide1up _ _ _ _ _
  | .vslide1dn _ _ _ _ _ | .vgather _ _ _ _ _ | .vcompress _ _ _ | .vrotl _ _ _ _ _ | .viota _ _ _ => .whole
  | .vfredsum _ _ _ _ _ | .vfredosum _ _ _ _ _ | .vfredmin _ _ _ _ _ | .vfredmax _ _ _ _ _ | .vldot _ _ _ _ =>
    if fp then .whole else .no
  | .vse _ _ _ _ _ | .vsse _ _ _ _ _ _ | .vsxe _ _ _ _ _ _ | .vrrs _ _ _ _ _ _ _ => .store
  | .vlsc _ _ _ _ _ _ | .vssc _ _ _ _ _ _ => .ticket
  | _ => .no

/-- Whether an entry records ReadX of the word's [20:16], a scalar operand or a base, and of its [15:11], a stride (R351, R396). -/
def flightReads (w : Nat) : Bool × Bool :=
  let major := bits w 26 6
  if 0x1D ≤ major ∧ major ≤ 0x21 then (bits w 2 1 == 1, false)
  else if major = 0x22 ∨ major = 0x23 then (true, bits w 7 3 == 1 || bits w 7 3 == 4)
  else (major == 0x24 || (major == 0x26 && (bits w 4 6 == 5 || bits w 4 6 == 6)), false)

/-- The slide offset that a MOPS word uses under a matrix state (R384). -/
def MatState.slide (m : MatState) (w : Nat) : Nat :=
  if m.last.any fun l => l.1.toNat == bits w 11 5 && l.2.1.toNat == bits w 21 2 && l.2.2.code == bits w 0 4 then m.so else 0

/-- The matrix state after an entry that has not issued has run: a MOPS or an MHMUL (R384, R385, R400). -/
def MatState.after (m : MatState) (mvl : Nat) (e : Flight) : MatState :=
  let w := e.word.toNat
  let ac : Acc := BitVec.ofNat 2 (bits w 21 2)
  if bits w 26 6 ≠ 0x26 ∨ e.start ≠ 0 then m
  else if bits w 4 6 = 3 then
    { m with so := Nat.min (m.slide w + 1) 128
             last := (Ty.ofCode (bits w 0 4)).map fun t => (BitVec.ofNat 5 (bits w 11 5), ac, t) }
  else if bits w 4 6 = 4 then { m with sr := m.sr.set ac.toFin ((m.sr[ac.toFin] + 1) % mvl) }
  else m

/-- The flight-list entry of an instruction at the hart's place (R351, R397, R400): the slide offset or stream row is the one it
has used, or, behind older entries that have not issued, will use. -/
def flightOf (x : Slot) (w : Nat) (start : Nat) : Flight :=
  let h := x.hart
  let matrix := bits w 26 6 == 0x26
  let m := x.flight.foldl (fun m e => m.after h.mvl.toNat e) x.mat
  let reg (on : Bool) (r : Nat) : Word := if on && r != 0 then h.x[r]! else 0
  { va := h.pc, word := BitVec.ofNat 32 w, start := BitVec.ofNat 12 start
    vl := if matrix then h.mvl.zeroExtend 16 else h.vl.truncate 16
    a := reg (flightReads w).1 (bits w 16 5), b := reg (flightReads w).2 (bits w 11 5)
    vtype := h.vtype, frm := (h.fcsr >>> 5).truncate 3, vxrm := (h.fcsr >>> 9).truncate 2
    so := if matrix && bits w 4 6 == 3 then m.slide w else 0
    row := if matrix && bits w 4 6 == 4 then m.sr[bits w 21 2]! else 0 }

/-- An instruction whose elements, and those of all younger, stand apart (R350). -/
def Flight.apart (e : Flight) : Bool :=
  wordIs (fun i => flightKind true i == .whole || flightKind true i == .ticket) false e.word.toNat

/-- Elements, or rows or columns of a matrix word, that an instruction runs over: from, to, and how many make an element group
(R349, R396); a group of MHMUL.lg6 is its 32 activations. -/
def Slot.extent (x : Slot) (w : Nat) : Nat × Nat × Nat :=
  if bits w 26 6 = 0x26 then (0, x.hart.mvl.toNat, if bits w 4 6 = 4 ∧ bits w 0 4 = Ty.lg6.code then 32 else 16)
  else (x.hart.vstart.toNat, x.hart.vl.toNat, 256 / vtypeSew x.hart.vtype)

/-- Start indices at which an instruction may stop (R349): whole element groups, none ahead of an older instruction, none
behind one that stands apart (R350); its end once everything before it has completed. -/
def stopsAt (kind : FlightKind) (x : Slot) (w : Nat) : List Nat :=
  let (v, n, g) := x.extent w
  let lim := (x.flight.getLast?.map (·.start.toNat)).getD n
  let at_ := if x.flight.any Flight.apart then [] else match kind with
    | .split | .store => (List.range (n / g + 1)).map (g * ·)
    | .ticket => List.range n
    | .whole | .no => []
  (if v ≤ lim then [v] else []) ++ at_.filter (fun i => decide (v < i) && decide (i < n) && decide (i ≤ lim))
    ++ if x.flight.isEmpty then [n] else []

/-- The part of an instruction before index e, of a state at it, whose whole effect is `t`: a lookup that missed counts once
(R364, R372). -/
def State.flyPart (u t : State) (sl : SlotId) (w e : Nat) : State :=
  let h := (u.slot sl).hart
  let cut (s : State) : State := s.modSlot sl fun x =>
    { x with cut := some e, hart := if bits w 26 6 = 0x26 then x.hart else { x.hart with vl := BitVec.ofNat 64 e } }
  match runWords w 0 (cut u) with
  | .next p => p.modSlot sl fun x =>
      { x with cut := none, hart := { x.hart with vl := h.vl, settmiss := (t.slot sl).hart.settmiss } }
  | _ => u

/-- The next instruction after the PC, as an eviction finds it: completed, stopped at an element-group boundary, or not
started; or it has not passed its trap point, and the block stops before it (R187, R230, R349, R350). One that hits in the Sett
is not begun, or complete (R365). -/
def State.flyOne (s : State) (sl : SlotId) : State :=
  let x := s.slot sl
  let h := x.hart
  let stop : State := s.modSlot sl fun x => { x with inFlight := 0 }
  let past (t : State) : Bool := (t.slot sl).hart.pc == h.pc + 4 && (t.slot sl).stop.isNone && !(t.slot sl).halted
  if 8 ≤ x.flight.length || !x.streamsHere.isEmpty then stop
  else match (fetchInstr h.pc).run { s with cur := .block sl } with
    | .ok (w, _) u =>
      let kind := wordIs (flightKind (fcsrFte h.fcsr == 0)) .no w
      let (v, n, _) := x.extent w
      let u := { u with ir := BitVec.ofNat 64 w }
      let indexed := wordIs (fun i => match i with | .vsxe _ _ _ _ _ _ | .vrrs _ _ _ _ _ _ _ => true | _ => false) false w
      let alone := (kind == .store || kind == .ticket) && !x.flight.isEmpty && (bits w 10 1 == 0 || indexed)
      if kind = .no || alone then stop
      else match runWords w 0 u, pick s.free (stopsAt kind x w) with
        | .next t, some e =>
          let hit := (t.slot sl).hart.setthit != (u.slot sl).hart.setthit
          let e := if hit && e != v then (if x.flight.isEmpty then n else v) else e
          if !past t then stop
          else
            let t := if e = n then t
              else (if e = v then (u.retire (h.pc + 4)).endVector else u.flyPart t sl w e).modSlot sl fun y =>
                { y with flight := y.flight ++ [flightOf x w e] }
            { t with cur := s.cur, free := t.free + 1 }.modSlot sl fun y => { y with inFlight := y.inFlight - 1 }
        | _, _ => stop
    | _ => stop

/-! ### A turn -/

/-- A hart can take a turn. A block: it runs, or a stop fault waits to be taken, or its call must end before an eviction;
not on a core that is gone. A Steward that runs code: it has not stopped, and an EVWAIT has what it waits for. -/
def State.canRun (s : State) : HartId → Bool
  | .block sl =>
    let x := s.slot sl
    !x.halted && !s.coreGone (slotCore sl)
      && (x.run == .running || (x.stop.isSome && x.run != .empty)
          || (x.run == .evicting && (x.inFlight != 0 || (x.call.isSome && x.wait == .none && x.park.isNone))))
  | .steward k =>
    let c := s.cluster k.toNat
    c.steward.code && !c.steward.stopped && !c.fenced
      && (match c.steward.wait with
          | none => true
          | some (_, d) => c.count != 0 || d.any fun t => decide (t ≤ s.clock))

/-- What follows a block's instruction: borrowed strips end, its write-backs leave dens free (R359), a call that is over ends
(R346), and the next lane thread is in turn (R342). -/
def State.afterTurn (s : State) (sl : SlotId) : State :=
  let s := (s.endStrips sl).relieve (slotCore sl)
  let s := if (s.slot sl).callOver then s.endCall sl else s
  match (s.slot sl).threads with
  | some t => s.modSlot sl fun x => { x with threads := some t.rotate }
  | none => s

/-- A block's turn; where its word is one for the lane engine, only when that engine's pointer stands at its slot (R174). -/
def State.blockTurn (s : State) (sl : SlotId) : Host.Outcome State Fault Refusal :=
  let x := s.slot sl
  match x.stop with
  | some t =>
    if s.eventRoom (slotCluster sl) then
      .next (((s.stopSlot sl t).modSlot sl fun x =>
        { x with stop := none, park := none, run := if x.run == .parked then .running else x.run }).endStrips sl)
    else .next s
  | none =>
    if x.needTiles then .next (s.workM (readTiles sl))
    else if x.needLib then .next (s.workM (reloadLib sl))
    else if x.run == .evicting && x.inFlight != 0 then .next ((s.flyOne sl).relieve (slotCore sl))
    else
      match s.laneTurn sl with
      | none => .next s
      | some s =>
        let out := match x.flight, x.threads with
          | e :: _, none => s.runFlight sl e
          | _, _ => s.runNext
        match out with
        | .next t => .next (t.afterTurn sl)
        | o => o

/-- The current hart's turn. -/
def State.hartTurn (s : State) : Host.Outcome State Fault Refusal :=
  match s.cur with
  | .block sl => s.blockTurn sl
  | .steward _ => s.runNext

end Sys2Proof.Machine
end

