-- ==== Sys2Proof/Machine/Schedule.lean ====
section
/-! DEFINITION. What the agents of the part can do now beside its harts (log 3): each a step of the opcode table, with the
operands that the state gives. A time-out is among them once its time has come. -/
namespace Sys2Proof.Machine

/-- A step that an agent can take. -/
abbrev Move := State → Host.Outcome State Fault Refusal

/-- A move where a condition holds. -/
def moveIf (b : Bool) (m : Move) : List Move := if b then [m] else []

/-- A deadline has come. -/
def State.past (s : State) (t : Nat) : Bool := decide (t ≤ s.clock)

/-- The Dispatcher (R133, R134, R138 - R141, R43, R511). -/
def State.dispMoves (s : State) : List Move :=
  if s.health.busy || s.health.boot ≠ 1 || s.disp.queues.isEmpty then []
  else
    let qs := (s.disp.queues.filter fun e => e.2.live).map fun e => (BitVec.ofNat 6 e.1 : QId)
    (match s.nextQueue with | some q => [execLaunchRecordConsume q] | none => [])
    ++ qs.flatMap (fun q => moveIf ((s.queue q).reread || !(s.watches.any fun w => w.who == .queue q)) (execTailWordNotice q))
    ++ qs.flatMap (fun q => moveIf (s.completable q).isSome (execLaunchCompletion q))
    ++ (match s.nextSend with
        | some (l, _, k) => [execDispatchPlace l.queue l.number (BitVec.ofNat 5 k)]
        | none => [])
    ++ s.disp.launches.flatMap fun l =>
        moveIf (s.wantsPreempt l).isSome (execPreemptSend l.queue l.number)
        ++ moveIf (l.due.any s.past) (execAgingTick (.unsent l.queue l.number))

/-- The moves of a Porter's command (R167, R257, R269). -/
def State.cmdMoves (s : State) (k : ClusterId) (c : Cmd) : List Move :=
  let p := (s.cluster k.toNat).porter
  let prims : List Primitive :=
    if p.custom && p.runs && c.instr.isFw && c.started then
      [.slotWrite, .signal] ++ (List.range 8).map Primitive.arrivalAdd
        ++ [CollOp.sum, .min, .max, .bcast, .gather].map Primitive.combineRead
    else []
  (c.todo.flatMap fun n => moveIf (s.partReady c n) (execChunkComplete k c.id n))
  ++ moveIf (c.todo.isEmpty && s.partReady c 0) (execChunkComplete k c.id 0)
  ++ moveIf c.canEnd (execCopyComplete k c.id)
  ++ prims.map fun r => execPorterDatapathPrimitive k c.id r

/-- A cluster: its event queue, its Steward's firmware, its Porter, Crossroads (R142 - R154, R241, R267, R270, R273, R491,
R493). -/
def State.clusterMoves (s : State) (k : ClusterId) : List Move :=
  let c := s.cluster k.toNat
  let v := s.vendor k.toNat
  let head := if v then s.headEvent k.toNat else none
  let typ (n : BitVec 8) : Bool := head.any fun e => e.typ == n
  moveIf (!c.held.isEmpty && decide (c.count < 1024)) (execEventRecordPost k)
  ++ moveIf (head.any (fun e => serviced e.typ) || (v && s.canPlace k.toNat)) (execStewardPlacement k)
  ++ moveIf (typ 9) (execStewardPreempt k) ++ moveIf (typ 8 || (v && !c.again.isEmpty)) (execStewardTlaunch k)
  ++ moveIf (typ 5) (execStewardReplay k) ++ moveIf (typ 12) (execStewardFence k)
  ++ moveIf (match c.steward.wait with | some (_, some d) => s.past d | _ => false) (execEvwaitTimeout k)
  ++ moveIf (!c.fenced && (c.steward.stopped
      || (c.steward.code && c.count != 0 && s.past (c.service + 10 * Config.msClocks)))) (execStewardServiceTimeout k)
  ++ (s.startable k.toNat).map (fun m => execPorterCommandStart k m.id)
  ++ c.porter.cmds.flatMap (s.cmdMoves k)
  ++ moveIf (s.porterIdle k.toNat && s.past (c.porter.idleSince + Config.msClocks)) (execPorterWatchdog k)
  ++ moveIf (!c.fenced && (!c.xr.sends.isEmpty || !c.xr.remote.isEmpty)) (execCrossroadsSlot k)
  ++ c.pending.flatMap (fun p => moveIf ((ageDue p.level p.since).any s.past) (execAgingTick (.pending k p.queue p.number p.wid)))

/-- A slot: its streams, its time-outs, its eviction, and the naming of registers that were written (R187, R266, R330, R152,
R354, R355). -/
def State.slotMoves (s : State) (sl : SlotId) : List Move :=
  let x := s.slot sl
  ((List.finRange 8).flatMap fun (k : Fin 8) =>
      moveIf (s.refillCount sl x.streams[k] != 0) (execStreamRefill sl (BitVec.ofFin k)))
  ++ moveIf (x.run == .parked && s.vendor (slotCluster sl) && x.park.any fun p => s.past (p.since + parkClocks)) (execParkTimeout sl)
  ++ moveIf (x.evict.isSome && (x.halted || !s.draining sl)) (execEvictionComplete sl)
  ++ moveIf (x.run == .asleep && (match x.wait with | .vwait (some d) _ => s.past d | _ => false)) (execVwaitTimeout sl)
  ++ (List.range (if x.call.isSome then 8 else x.lrec.nvreg.toNat)).flatMap fun r =>
      moveIf (x.naming.getLsbD r) (execDenNaming sl (BitVec.ofNat 5 r))

/-- A core's engines (R174): a micro-operation of some slot is ready; a parity error in its Sett table (R373). -/
def State.coreMoves (s : State) (c : CoreId) : List Move :=
  let slots := (List.range 4).map (slotOf c.toNat)
  if s.coreGone c.toNat then []
  else
    moveIf (slots.any fun sl => (s.issueMap sl).isSome) (execMicroOpIssue c .lane)
    ++ moveIf (slots.any fun sl => (s.issueMatrix sl).isSome) (execMicroOpIssue c .matrix)
    ++ moveIf (slots.any fun sl => (s.issueCopy sl).isSome) (execMicroOpIssue c .copy)
    ++ moveIf (slots.any fun sl => (s.issueOf .exchange sl).isSome) (execMicroOpIssue c .exchange)
    ++ (s.core c.toNat).fills.map (fun f => execIcacheFill c f.1)
    ++ moveIf (!(s.core c.toNat).sett.isEmpty) (execSettParity c.toNat)

/-- Slices, sources and watchers (R403, R407, R414, R422, R494). -/
def State.fabricMoves (s : State) : List Move :=
  moveIf (!s.notices.isEmpty) execWatchNotice
  ++ (s.watches.filter (·.polls)).map (fun w => execWatchPoll w.who)
  ++ s.slices.flatMap (fun e =>
      let i : SliceId := BitVec.ofNat 8 e.1
      e.2.mshr.map (fun m => execColumnLineFill i m.1)
      ++ moveIf (e.2.replies.any fun p => p.tag.isSome) (execStoreAck i)
      ++ moveIf (e.2.replies.any fun p => p.tag.isNone) (execLoadReply i) ++ moveIf (!e.2.replies.isEmpty) (execReplyLoss e.1))
  ++ (s.unanswered.filter fun u => s.past u.deadline).map (fun u => execRequestResend u.slice u.req.src u.req.seq)
  ++ (s.unanswered.filter fun u => decide (4 ≤ u.resends) && !u.reported).flatMap (fun u =>
      (s.pathFindings u).map (execPathReport u.slice u.req.src u.req.seq))
  ++ (s.snoops.filter fun x => !x.answered && !x.failed && s.past x.deadline).map (fun x => execSnoopTimeout x.line)
  ++ [false, true].flatMap fun d =>
      (List.range (Tbl.get [] s.walks (dieNum d)).length).map fun n => execPageWalkEntryRead d n

/-- Base dies, settles, dumps (R450, R458, R461, R462, R492). -/
def State.baseMoves (s : State) : List Move :=
  s.bases.flatMap (fun e =>
    let b : BaseId := BitVec.ofNat 4 e.1
    moveIf (!e.2.sectors.isEmpty) (execSectorDecodeDone b) ++ moveIf (!e.2.done.isEmpty) (execBaseCompletion b)
    ++ moveIf e.2.ac.busy (execAcdumpComplete b))
  ++ [false, true].flatMap fun d =>
    moveIf ((s.settleReg (dieNum d)).range).isSome (execSettleComplete d)
    ++ moveIf (s.port (portNum d)).hac.busy (execHacdumpComplete d)

/-- The Ferry (R472, R473, R476, R477). -/
def State.ferryMoves (s : State) : List Move :=
  let f := s.ferry
  moveIf (f.turn.isNone && ((f.serve 20).2.isSome || (f.serve 20).1 != f)) execFerryTurnStart
  ++ (match f.turn with
      | some (c, _, _, t) =>
        moveIf (f.turnAt 0 && (f.xing c).retry.isEmpty) execFerryDrainEnd
        ++ moveIf (f.turnAt 0 && s.past (t + drainClocks)) execDrainTimeout
        ++ moveIf (f.turnAt 1) execFerryQuietEnd ++ moveIf (f.turnAt 2) (execFerryCheckEnd true)
      | none => [])
  ++ moveIf (f.plan.head?.any fun e => s.past (e.accepted + Config.msClocks)) execPlanEntryExpire
  ++ (List.finRange 48).flatMap fun (c : Fin 48) =>
      moveIf (!f.xings[c].retry.isEmpty && f.xings[c].state != .retraining && s.past (f.xings[c].acked + ackClocks))
        (execFlitReplayTimeout (BitVec.ofNat 6 c.val))
      ++ moveIf (f.xings[c].state == .retraining && f.xings[c].rotation) (execRetrainEnd (BitVec.ofNat 6 c.val) 0)

/-- A driver queue has words to write, or the host has published entries in it. -/
def State.drvWaits (s : State) (q : DrvQ) : Bool :=
  q.enabled && (q.setup || Memory.nat s.mem q.tailPA 8 != q.head.toNat)

/-- The driver queues and the health controller: its boot, its counts (R490, R491, R493, R501, R504). -/
def State.hostMoves (s : State) : List Move :=
  execCorrectableError :: execUncorrectableError :: s.badChannels.map execChannelJudge ++ moveIf (s.health.boot == 0) execBoot ++
  moveIf (s.drvWaits s.drv.replay) execReplayCommandRetry ++ moveIf (s.drvWaits s.drv.replay) execReplayCommandAbort
  ++ moveIf (s.drvWaits s.drv.inval || s.drv.pending.any fun r => r.1.isEmpty) execInvalidationCommand
  ++ (match s.drv.pending with | some r => r.1.map execInvalidationDone | none => [])
  ++ moveIf (!s.drv.rewrite.isEmpty || (s.drv.fault.enabled && (s.drv.fault.setup || !s.drv.fault.held.isEmpty))
      || (s.health.log.enabled && (s.health.log.setup || !s.health.log.held.isEmpty))) execDrvRetry
  ++ [0, 1].flatMap (fun p => moveIf (!(s.port p).waiting.isEmpty) (execHostAgain p))
  ++ [false, true].flatMap (fun p =>
      let x := s.port (portNum p)
      moveIf (!x.up && !x.fenced && s.past (x.downSince + 100 * Config.msClocks)) (execLinkDownTimeout p))
  ++ moveIf s.health.busy execWarmResetComplete

/-- Everything that an agent can do now. -/
def State.moves (s : State) : List Move :=
  s.dispMoves ++ s.clusters.flatMap (fun e => s.clusterMoves (BitVec.ofNat 5 e.1))
  ++ s.slots.flatMap (fun e => if e.2.run == .empty then [] else s.slotMoves (BitVec.ofNat 10 e.1))
  ++ s.cores.flatMap (fun e => s.coreMoves (BitVec.ofNat 8 e.1))
  ++ s.fabricMoves ++ s.baseMoves ++ s.ferryMoves ++ s.hostMoves

/-- Harts that can take a turn. -/
def State.ready (s : State) : List HartId :=
  ((s.slots.map fun e => HartId.block (BitVec.ofNat 10 e.1))
    ++ s.clusters.map fun e => HartId.steward (BitVec.ofNat 5 e.1)).filter s.canRun

/-! ### The launch journal (R499, R500) -/

/-- What the journal keeps: accepted launches with their counts of blocks sent, ended, faulted and not run, blocks pending per
cluster, blocks resident per slot (R500). -/
def State.journaled (s : State) :
    List (QId × BitVec 32 × Nat × Word × Word × Word × List Word) × List (Nat × List (QId × BitVec 32 × Word))
      × List (Nat × QId × BitVec 32 × Word) :=
  (s.disp.launches.map fun l => (l.queue, l.number, l.sent, l.ended, l.faulted, l.unrun, l.back),
    s.clusters.map (fun e => (e.1, e.2.pending.map fun p => (p.queue, p.number, p.wid))),
    (s.slots.filter fun e => e.2.run != .empty).map fun e => (e.1, e.2.queue, e.2.number, e.2.wid))

/-- One granule of a change, at the same offset and with the same bytes in both copies; a copy whose channel is gone is
lost there. Where it lies and what it holds the spec leaves private to the firmware: free values (R500, log 93). -/
def State.journalPut (s : State) : State :=
  let at_ := s.health.jBase.toNat * 2 ^ 23 + Config.choice s.free % 2 ^ 17 * 32
  let bs := (List.range 4).flatMap fun i => bytesOfNat 8 (Config.freeWord (s.free + 1 + i)).toNat
  [at_, at_ + 0x5000000000].foldl
    (fun s pa => if s.unreachable pa 0 || s.pathFenced pa then s else s.performWrite dispatcherSrc 0 pa .normal bs) { s with free := s.free + 5 }

/-- A step that changed what the journal keeps has written the change to both copies (R500). -/
def State.journal (s was : State) : State :=
  if s.health.jValid && s.journaled != was.journaled then
    (List.range (Config.choice s.free % 2 ^ 17 + 1)).foldl (fun s _ => s.journalPut) s.draw
  else s

/-- What follows every step: register writes made in it, the journal of what it changed, the clock, the next free values,
whether an agent is next, and the turn, which goes to a hart that can run at the new time (log 3). -/
def State.afterStep (s was : State) : State :=
  let s := s.landRegs.endStopped.journal was
  let t : State := { s with clock := s.clock + 1 + Config.elapsed s.free
                            free := s.free + 2
                            engineTurn := xor s.engineTurn (decide (Config.choice (s.free + 1) % 2 = 0)) }
  { t with cur := (pick s.free t.ready).getD s.cur }

/-- An agent's move in place of a hart's turn, where it is an agent's turn and one can move. -/
def State.move? (s : State) : Option Move := if s.engineTurn then pick s.free s.moves else none

/-- A step from `was` is followed by what follows every step. -/
def thenNext (was : State) (o : Host.Outcome State Fault Refusal) : Host.Outcome State Fault Refusal :=
  match o with
  | .next s => .next (s.afterStep was)
  | .fault f => .fault f
  | .refused r => .refused r

end Sys2Proof.Machine
end

