-- ==== Sys2Proof/Machine/Step.lean ====
section
/-! DEFINITION. One step of the part, and the placing of one instruction where the next step fetches it. -/
namespace Sys2Proof.Machine

/-- One step: what waits on the agenda; else a move of an agent; else a turn of the current hart, or time that passes. -/
def step (s : State) : Host.Outcome State Fault Refusal :=
  match s.agenda with
  | e :: rest => thenNext s (exec e { s with agenda := rest })
  | [] =>
    if s.power = .off then .fault .poweredOff
    else match s.move? with
      | some m => thenNext s (m s.draw)
      | none => if s.canRun s.cur then thenNext s s.hartTurn else thenNext s (.next s)

/-- Physical address at which `withFetchWord` stores an instruction. -/
def fetchPA : Nat := 0x100000

/-- The block that `withFetchWord` runs: that of slot 0, or a fresh one where the slot is empty. -/
def fetchSlot (x : Slot) : Slot :=
  let y : Slot := if x.run = .empty then { lrec := { nvreg := 32 } } else x
  { y with run := .running, hart := { y.hart with pc := 0x1000 }, stop := none, needTiles := false, needLib := false, flight := [], threads := none
           call := none, halted := false }

/-- The translation of the page that the block fetches from: an executable page of die E. -/
def fetchEntry (ctx : BitVec 16) : TlbEntry :=
  { ctx := ctx, base := 0x1000, size := 12, pa := fetchPA, pte := 0x0040000000000023, ptePA := 0, level := 1 }

/-- A load of one instruction from outside (log 20): its words, little-endian, at `fetchPA`; a block in slot 0 of core 0
with one lane group, its PC on a page whose translation the core holds; a part that has booted; the hart's turn. -/
def State.withFetchWord (s : State) (nbits w : Nat) : State :=
  let x := fetchSlot (s.slot 0)
  let s : State := { s with agenda := [], engineTurn := false, power := .on, cur := .block 0
                            health := { s.health with boot := 1 }
                            mem := Memory.putAll s.mem fetchPA (leBytes 8 (w % 2 ^ nbits)) }
  let s := (s.modGran (fetchPA / 32) fun _ => {}).setSlot 0 x
  let s := if s.grant 0 = 0 then s.takeGroups 0 1 16 else s
  s.modCore 0 fun c => { c with fused := false, fenced := false, icache := [], itlb := fetchEntry x.ctx :: c.itlb }

end Sys2Proof.Machine
end

