-- ==== Sys2Proof/Safety.lean ====
section
/-! DEFINITION. What claims about runs are stated in: one step, runs of steps, and the invariant of the state. -/
namespace Sys2Proof.Machine

/-- A step goes from one state to another. -/
def Steps (s t : State) : Prop := step s = .next t

/-- A run of some steps. -/
inductive Runs : State → State → Prop where
  | refl (s : State) : Runs s s
  | tail {s t u : State} : Runs s t → Steps t u → Runs s u

/-- A state from which every run goes on: no step of it faults or refuses. -/
def Safe (s : State) : Prop := ∀ t, Runs s t → ∃ u, Steps t u

/-- The keys of a table rise. -/
def Tbl.rising {α : Type} : Tbl α → Bool
  | [] => true
  | [_] => true
  | (i, _) :: (j, b) :: t => decide (i < j) && Tbl.rising ((j, b) :: t)

end Sys2Proof.Machine
end

