-- ==== Sys2Proof/Certificates/Slice0/Obligations.lean ====
section
/-! DEFINITION. The obligations of the model: what the spec says an instruction, a step or the machine does. -/
open Sys2Proof Sys2Proof.Machine

/-! ### Encodings, steps, refusals -/

/-- Every well-formed instruction, encoded and decoded, is itself, whatever bytes follow it (R67, R69: one word or two). -/
def Obligations.EncodeThenDecodeIsIdentity : Prop :=
  ∀ (i : Instr) (rest : List Byte), i.wf = true → decode (encode i ++ rest) = .ok (i, rest)

/-- Words written out from the field tables of spec/03_formats_opcode_map.md and from the worked words of the other
chapters decode to the instructions that the spec writes beside them. -/
def Obligations.SpecWordsDecode : Prop :=
  (decodeWords 0x04642801 0 = .ok (.sub 3 4 5) ∧ decodeWords 0x08000000 0 = .ok (.addi 0 0 0) ∧
   decodeWords 0x28A6397A 0 = .ok (.fma .f32 .dyn 5 6 7) ∧ decodeWords 0x30A25FF8 0 = .ok (.ld .i32 5 2 (-8)) ∧
   decodeWords 0x394C58EC 0 = .ok (.amo .add .ar .w64 .dev 10 12 11) ∧
   decodeWords 0x3C000900 0 = .ok (.fence .rel .clu) ∧ decodeWords 0x48010000 0 = .ok (.jalr 0 1 0) ∧
   decodeWords 0x514B1FF8 0 = .ok (.bstrip 10 11 (-8)) ∧ decodeWords 0x58A00010 0 = .ok (.ctlr 5 0x10) ∧
   decodeWords 0x5D4B0000 0 = .ok (.evpop 10 11) ∧ decodeWords 0x5C0A5805 0 = .ok (.tlbinv 10 11)) ∧
  (decodeWords 0x70AA0011 0 = .ok (.vsetvli 5 10 0x11) ∧ decodeWords 0x70AA5600 0 = .ok (.vsetvl 5 10 11) ∧
   decodeWords 0x70C78000 0 = .ok (.msetmvl 6 7) ∧ decodeWords 0x70CAC400 0 = .ok (.vstream 6 10 2) ∧
   decodeWords 0x7000D400 0 = .ok (.vunstream 2) ∧ decodeWords 0x75188000 0 = .ok (.vadd .vv false 8 24 16) ∧
   decodeWords 0x744B1404 0 = .ok (.vadd .vx true 2 11 2) ∧
   decodeWords 0x78861530 0 = .ok (.vfcvt 6 false false true 4 2) ∧ decodeWords 0x844004B0 0 = .ok (.vid true 2) ∧
   decodeWords 0x84631C20 0 = .ok (.vmxor 3 3 3) ∧ decodeWords 0x888A0420 0 = .ok (.vle .e32 .normal true 4 10) ∧
   decodeWords 0x890B60A1 0 = .ok (.vlse .e32 .noalloc false 8 11 12) ∧
   decodeWords 0x8CCA5E30 0 = .ok (.vssc .e64 .normal true 6 10 11) ∧
   decodeWords 0x910A8417 0 = .ok (.vamo .add .ar .w64 true 8 10 16) ∧
   decodeWords 0x90874105 0 = .ok (.vwait .eq .acq .w64 false 4 7 8) ∧
   decodeWords 0x908A3610 0 = .ok (.vrrs .fadd .none .w32 true 4 10 6)) ∧
  (decodeWords 0x9420C00C 0 = .ok (.vsplit 1 12) ∧ decodeWords 0x9400E000 0 = .ok .vjoin ∧
   decodeWords 0x94645FFE 0 = .ok (.lbr .lt 3 4 (-2)) ∧ decodeWords 0x98200400 0 = .ok (.mzero 1) ∧
   decodeWords 0x98088429 0 = .ok (.mop .f16 true 0 8 16) ∧ decodeWords 0x9822243B 0 = .ok (.mops .f32 true 1 2 4) ∧
   decodeWords 0x9804341F 0 = .ok (.mhold .lg6 true 4 6) ∧ decodeWords 0x984A044F 0 = .ok (.mhmul .lg6 true 2 10) ∧
   decodeWords 0x99851C5B 0 = .ok (.mrd true 3 12 5)) ∧
  (decodeWords 0xFC400000 0x50000000 = .ok (.tzero false 5) ∧
   decodeWords 0xFC229800 0x03090000 = .ok (.tst .normal false .f16 3 5 6) ∧
   decodeWords 0xFC800009 0x53400000 = .ok (.tmma false true 1 5 3 4) ∧
   decodeWords 0xFCA00006 0x07600000 = .ok (.tmmv true false 2 0 7 6) ∧
   decodeWords 0xFCC63513 0x31200000 = .ok (.tmap 19 true 3 1 2 12 13) ∧
   decodeWords 0xFD052C00 0x04000002 = .ok (.tsend 4 10 11 2) ∧
   decodeWords 0xFD160000 0x60000002 = .ok (.trecv 6 12 2) ∧ decodeWords 0xFD452C00 0 = .ok (.tdiscard 10 11))

/-- The word of 32 zeros and the word of 32 ones are no instruction (R68). -/
def AllZeroAndAllOneWordsAreReserved : Prop :=
  ∀ v : Nat, (∀ i, decodeWords 0 v ≠ .ok i) ∧ (∀ i, decodeWords 0xFFFFFFFF v ≠ .ok i) ∧
    (∀ w i, isLong w = true → decodeWords w 0xFFFFFFFF ≠ .ok i)

/-- A whole-machine rule: while the module is on, every instruction and every step of an agent answers a next state; no
encoding, mode, operand or agent's move ends in a refusal or a fault. -/
def EveryInstructionGoesOn : Prop :=
  ∀ (i : Instr) (s : State), s.power = .on → ∃ t, exec i s = .next t

/-- A module that is shut down does nothing until its cold reset (R503, R506): every instruction and every step but
COLD_RESET stops with the fault of that name, and COLD_RESET turns the module on. -/
def ShutDownUntilColdReset : Prop :=
  ∀ s : State, s.power = .off →
    (∀ i : Instr, (∀ b, i ≠ .coldReset b) → exec i s = .fault .poweredOff) ∧
    (∀ b : Bundle, ∃ t, exec (.coldReset b) s = .next t ∧ t.power = .on)

/-- The machine never refuses, and it faults only while it is shut down: a step of any state answers a next state or
finds the module off. -/
def StepNeverStuck : Prop :=
  ∀ s : State, s.power = .on → ∃ t, step s = .next t

/-- When no agent moves and nothing waits on the agenda, the step of a block that holds no flight-list entry, stop fault,
unread tile records or functions to fetch again, and that no eviction finds with instructions in flight, runs the instruction
that the words at its PC decode to; where that is one for the lane engine, once the engine's pointer gives the slot its turn
(R174). What follows the instruction and the step follows it. -/
def Obligations.StepRunsDecodedInstruction : Prop :=
  ∀ (s u t : State) (sl : SlotId) (w v : Nat) (i : Instr),
    s.power = .on → s.agenda = [] → s.engineTurn = false → s.cur = .block sl → s.canRun (.block sl) = true →
    (s.slot sl).stop = none → (s.slot sl).needTiles = false → (s.slot sl).needLib = false → (s.slot sl).inFlight = 0 →
    (s.slot sl).flight = [] → s.laneTurn sl = some u → (fetchInstr u.pc).run u = .ok (w, v) t → decodeWords w v = .ok i →
    step s = thenNext s (match exec i { t with ir := BitVec.ofNat 64 (w + 2 ^ 32 * v) } with
      | .next u => .next (u.afterTurn sl)
      | o => o)

/-- The current hart can run, or no hart can. -/
def CurrentHartCanRun (s : State) : Prop :=
  (∃ h, h ∈ s.ready) → s.canRun s.cur = true

/-- The invariant of the turns holds after reset, when no hart holds a block. -/
def ResetCurrentHartCanRun : Prop := CurrentHartCanRun State.reset

/-- Every step hands the turn to a hart that can run, as long as one can: the turn never rests at a slot that sleeps,
is parked or is empty while another slot has an instruction to run (the model's schedule, log 3; R42, R43). -/
def Obligations.StepKeepsTurnWithRunnableHart : Prop :=
  ∀ s t : State, CurrentHartCanRun s → step s = .next t → CurrentHartCanRun t

/-! ### Memory and registers -/

/-- Memory keeps its canonical form under every write; a byte reads as it was last written, and a write leaves every
other byte. -/
def MemoryReadsWhatWasWritten : Prop :=
  ∀ (m : Memory) (a : Nat) (bs : List Byte),
    (Memory.wf m = true → Memory.wf (m.putAll a bs) = true) ∧
    (m.putAll a bs).bytes a bs.length = bs ∧
    (∀ c, c < a ∨ a + bs.length ≤ c → (m.putAll a bs).get c = m.get c) ∧
    (∀ v n, Memory.nat (m.putAll a (bytesOfNat n v)) a n = v % 256 ^ n)

/-- A register that was written reads as it was written and every other register reads as before; x0 reads 0 and discards
what is written to it. In a lane thread the registers are element i of the vector registers. -/
def RegisterReadsWhatWasWritten : Prop :=
  ∀ (s : State) (r q : Reg) (v : Word), (∀ i, s.lane = some i → i < 64) →
    s.getX 0 = 0 ∧ s.setX 0 v = s ∧ (r ≠ 0 → (s.setX r v).getX r = v) ∧ (q ≠ r → (s.setX r v).getX q = s.getX q)

/-- What a register write and the retirement that follows it leave: everything but the hart that runs. Of that hart the PC is
the one that the instruction gives, ctl.instret is one more, and beside them only the scalar registers change: every other
control register stays (ctl.tshape, ctl.resync and the Sett counters too), and of the slot or the cluster that holds the hart
everything else; in a lane thread, whose registers are elements of vector registers and whose PC is its own, of the slot its
vector registers with their naming marks and its lane threads change in place of the scalar registers. -/
def Obligations.RetiringWriteFrame : Prop :=
  ∀ (s : State) (r : Reg) (v dest : Word),
    let t := (s.setX r v).retire dest
    ((s.lane = none ∨ ∃ l ∈ (s.threads.map (·.lanes)).getD [], s.lane = some l.1) → t.pc = dest) ∧
    t.hart.instret = s.hart.instret + 1 ∧
    { t with slots := s.slots, clusters := s.clusters } = s ∧
    { t.hart with x := s.hart.x, forced := s.hart.forced, pc := s.hart.pc, instret := s.hart.instret } = s.hart ∧
    (s.lane ≠ none → t.hart.x = s.hart.x ∧ t.hart.forced = s.hart.forced ∧ t.hart.pc = s.hart.pc) ∧
    (∀ sl, s.cur ≠ .block sl → t.slot sl = s.slot sl) ∧
    (∀ sl, s.cur = .block sl → t.clusters = s.clusters ∧ (s.lane = none → t.slot sl = { s.slot sl with hart := t.hart }) ∧
      ∃ vregs naming named threads, t.slot sl =
        { s.slot sl with hart := t.hart, vregs := vregs, naming := naming, named := named, threads := threads }) ∧
    (∀ k : ClusterId, s.cur ≠ .steward k → t.cluster k.toNat = s.cluster k.toNat) ∧
    (∀ k : ClusterId, s.cur = .steward k → t.slots = s.slots ∧ t.cluster k.toNat =
      { s.cluster k.toNat with steward := { (s.cluster k.toNat).steward with hart := t.hart } })
/-! ### Scalar registers -/

/-- What an integer operation answers: rd written, the PC at the next word, the instruction counted, nothing else. -/
def Gives (i : Instr) (s : State) (rd : Reg) (v : Word) : Prop :=
  exec i s = .next ((s.setX rd v).retire (s.pc + 4))

/-- The two-operand operations of major 0x01 (R192): their results on every pair of operands, in a block, on a Steward and
in a lane thread whose registers exist. -/
def IntegerRegisterResults : Prop :=
  ∀ (s : State) (rd ra rb : Reg), s.power = .on → scalarRegsOk s [rd, ra, rb] rd = true →
    let a := s.getX ra
    let b := s.getX rb
    let sh := b.toNat % 64
    Gives (.add rd ra rb) s rd (a + b) ∧ Gives (.sub rd ra rb) s rd (a - b) ∧ Gives (.and rd ra rb) s rd (a &&& b) ∧
    Gives (.or rd ra rb) s rd (a ||| b) ∧ Gives (.xor rd ra rb) s rd (a ^^^ b) ∧ Gives (.andn rd ra rb) s rd (a &&& ~~~b) ∧
    Gives (.orn rd ra rb) s rd (a ||| ~~~b) ∧ Gives (.sll rd ra rb) s rd (a <<< sh) ∧ Gives (.srl rd ra rb) s rd (a >>> sh) ∧
    Gives (.sra rd ra rb) s rd (a.sshiftRight sh) ∧
    Gives (.rol rd ra rb) s rd (a <<< sh ||| a >>> (64 - sh)) ∧ Gives (.ror rd ra rb) s rd (a >>> sh ||| a <<< (64 - sh)) ∧
    Gives (.slt rd ra rb) s rd (if a.toInt < b.toInt then 1 else 0) ∧ Gives (.sltn rd ra rb) s rd (if a.toNat < b.toNat then 1 else 0) ∧
    Gives (.min rd ra rb) s rd (BitVec.ofInt 64 (Min.min a.toInt b.toInt)) ∧ Gives (.max rd ra rb) s rd (BitVec.ofInt 64 (Max.max a.toInt b.toInt)) ∧
    Gives (.minn rd ra rb) s rd (BitVec.ofNat 64 (Min.min a.toNat b.toNat)) ∧ Gives (.maxn rd ra rb) s rd (BitVec.ofNat 64 (Max.max a.toNat b.toNat)) ∧
    Gives (.czeq rd ra rb) s rd (if b = 0 then 0 else a) ∧ Gives (.czne rd ra rb) s rd (if b ≠ 0 then 0 else a) ∧
    Gives (.addw rd ra rb) s rd ((a + b).truncate 32 |>.signExtend 64) ∧ Gives (.subw rd ra rb) s rd ((a - b).truncate 32 |>.signExtend 64) ∧
    Gives (.sllw rd ra rb) s rd ((a.truncate 32 <<< (b.toNat % 32)).signExtend 64) ∧
    Gives (.srlw rd ra rb) s rd ((a.truncate 32 >>> (b.toNat % 32)).signExtend 64) ∧
    Gives (.sraw rd ra rb) s rd (((a.truncate 32).sshiftRight (b.toNat % 32)).signExtend 64)

/-- The one-operand operations of major 0x01 (R192), each by what its result is: CLZ and CTZ count the zeros before the
first one from the top and from the bottom, 64 for 0; POPC counts ones; BSWAP reverses the bytes. -/
def IntegerUnaryResults : Prop :=
  ∀ (s : State) (rd ra : Reg), s.power = .on → scalarRegsOk s [rd, ra] rd = true →
    let a := s.getX ra
    (∃ n ≤ 64, Gives (.clz rd ra) s rd (BitVec.ofNat 64 n) ∧ (∀ i < n, a.getMsbD i = false) ∧ (n < 64 → a.getMsbD n = true)) ∧
    (∃ n ≤ 64, Gives (.ctz rd ra) s rd (BitVec.ofNat 64 n) ∧ (∀ i < n, a.getLsbD i = false) ∧ (n < 64 → a.getLsbD n = true)) ∧
    Gives (.popc rd ra) s rd (BitVec.ofNat 64 ((List.range 64).countP fun i => a.getLsbD i)) ∧
    (∃ v : Word, Gives (.bswap rd ra) s rd v ∧ ∀ i < 64, v.getLsbD i = a.getLsbD (8 * (7 - i / 8) + i % 8)) ∧
    Gives (.sextb rd ra) s rd ((a.truncate 8).signExtend 64) ∧ Gives (.sexth rd ra) s rd ((a.truncate 16).signExtend 64) ∧
    Gives (.sextw rd ra) s rd ((a.truncate 32).signExtend 64) ∧ Gives (.zextw rd ra) s rd ((a.truncate 32).zeroExtend 64)

/-- The immediate forms of majors 0x02 - 0x09 (R193 - R195). -/
def ImmediateResults : Prop :=
  ∀ (s : State) (rd ra : Reg) (i16 : BitVec 16) (i15 : BitVec 15) (i12 : BitVec 12) (i21 : BitVec 21) (sh : BitVec 6),
    s.power = .on → scalarRegsOk s [rd, ra] rd = true →
    let a := s.getX ra
    Gives (.addi rd ra i16) s rd (a + i16.signExtend 64) ∧ Gives (.andi rd ra i16) s rd (a &&& i16.zeroExtend 64) ∧
    Gives (.ori rd ra i16) s rd (a ||| i16.zeroExtend 64) ∧ Gives (.xori rd ra i16) s rd (a ^^^ i16.zeroExtend 64) ∧
    Gives (.slti rd ra i15) s rd (if a.toInt < i15.toInt then 1 else 0) ∧
    Gives (.sltni rd ra i15) s rd (if a.toNat < i15.toNat then 1 else 0) ∧
    Gives (.slli rd ra sh) s rd (a <<< sh.toNat) ∧ Gives (.srli rd ra sh) s rd (a >>> sh.toNat) ∧
    Gives (.srai rd ra sh) s rd (a.sshiftRight sh.toNat) ∧
    Gives (.addwi rd ra i12) s rd ((a + i12.signExtend 64).truncate 32 |>.signExtend 64) ∧
    Gives (.lui rd i21) s rd (i21.signExtend 64 <<< 16) ∧
    Gives (.auipc rd i21) s rd ((s.pc &&& ~~~(0xFFFF : Word)) + (i21.signExtend 64 <<< 16))

/-- The multiplications of major 0x0B (R196): the low half is the product modulo 2^64, the high halves are those of the
exact product. -/
def Obligations.MultiplyResults : Prop :=
  ∀ (s : State) (rd ra rb : Reg), s.power = .on → scalarRegsOk s [rd, ra, rb] rd = true →
    let a := s.getX ra
    let b := s.getX rb
    Gives (.mul rd ra rb) s rd (a * b) ∧
    Gives (.mulh rd ra rb) s rd ((BitVec.ofInt 128 (a.toInt * b.toInt)).extractLsb' 64 64) ∧
    Gives (.mulhn rd ra rb) s rd ((BitVec.ofNat 128 (a.toNat * b.toNat)).extractLsb' 64 64) ∧
    Gives (.mulhsn rd ra rb) s rd ((BitVec.ofInt 128 (a.toInt * b.toNat)).extractLsb' 64 64) ∧
    Gives (.mulw rd ra rb) s rd ((a * b).truncate 32 |>.signExtend 64)

/-- Division (R108, R196): the quotient is truncated towards zero and the remainder takes the sign of the dividend; by 0 the
quotient is -1, or all ones unsigned, and the remainder is the dividend; the most negative value divided by -1 gives itself
and 0. None of them traps. -/
def ScalarDivisionResults : Prop :=
  ∀ (s : State) (rd ra rb : Reg), s.power = .on → scalarRegsOk s [rd, ra, rb] rd = true →
    let a := s.getX ra
    let b := s.getX rb
    let a32 : BitVec 32 := a.truncate 32
    let b32 : BitVec 32 := b.truncate 32
    Gives (.div rd ra rb) s rd (if b = 0 then -1 else if a.toInt = -2 ^ 63 ∧ b.toInt = -1 then a else BitVec.ofInt 64 (a.toInt.tdiv b.toInt)) ∧
    Gives (.rem rd ra rb) s rd (if b = 0 then a else if a.toInt = -2 ^ 63 ∧ b.toInt = -1 then 0 else BitVec.ofInt 64 (a.toInt.tmod b.toInt)) ∧
    Gives (.divn rd ra rb) s rd (if b = 0 then BitVec.ofNat 64 (2 ^ 64 - 1) else BitVec.ofNat 64 (a.toNat / b.toNat)) ∧
    Gives (.remn rd ra rb) s rd (if b = 0 then a else BitVec.ofNat 64 (a.toNat % b.toNat)) ∧
    Gives (.divw rd ra rb) s rd (if b32 = 0 then -1 else if a32.toInt = -2 ^ 31 ∧ b32.toInt = -1 then a32.signExtend 64
      else (BitVec.ofInt 32 (a32.toInt.tdiv b32.toInt)).signExtend 64)

/-- A register that a lane thread does not have, at or above its NVREG, raises ILLREG before anything is written (R340), and so
does a destination whose vector register is bound to a stream (R334): the block stops. -/
def MissingLaneRegisterRaisesIllreg : Prop :=
  ∀ (s : State) (rd ra rb : Reg), s.power = .on → scalarRegsOk s [rd, ra, rb] rd = false →
    exec (.add rd ra rb) s = .next (s.takeTrap { cause := .illreg }) ∧
    exec (.mul rd ra rb) s = .next (s.takeTrap { cause := .illreg })

/-! ### Scalar floating point -/

/-- What a floating operation answers when no flag it raises is enabled to trap: the flags are ORed into ctl.fcsr and rd is
written. -/
def GivesF (i : Instr) (s : State) (rd : Reg) (r : Word × Nat) : Prop :=
  s.trapping r.2 = false → exec i s = .next (((s.accrue r.2).setX rd r.1).retire (s.pc + 4))

/-- The arithmetic forms (R199): operands unboxed in the format, one rounding by the mode, the result boxed; the fused
forms take their addend from the old rd. -/
def Obligations.FloatArithmeticResults : Prop :=
  ∀ (s : State) (fmt : FFmt) (rm : Rm) (r : Rnd) (rd ra rb : Reg),
    s.power = .on → scalarRegsOk s [rd, ra, rb] rd = true → rndField s rm = some r →
    let f := flOf fmt
    let x := unbox f (s.getX ra)
    let y := unbox f (s.getX rb)
    let z := unbox f (s.getX rd)
    let out (v : Nat × Nat) : Word × Nat := (box f v.1, v.2)
    GivesF (.fadd fmt rm rd ra rb) s rd (out (f.add r x y)) ∧ GivesF (.fsub fmt rm rd ra rb) s rd (out (f.sub r x y)) ∧
    GivesF (.fmul fmt rm rd ra rb) s rd (out (f.mul r x y)) ∧ GivesF (.fdiv fmt rm rd ra rb) s rd (out (f.div r x y)) ∧
    GivesF (.fsqrt fmt rm rd ra) s rd (out (f.sqrt r x)) ∧
    GivesF (.fma fmt rm rd ra rb) s rd (out (f.fma r false false x y z)) ∧
    GivesF (.fms fmt rm rd ra rb) s rd (out (f.fma r false true x y z)) ∧
    GivesF (.fnma fmt rm rd ra rb) s rd (out (f.fma r true true x y z)) ∧
    GivesF (.fnms fmt rm rd ra rb) s rd (out (f.fma r true false x y z))

/-- The forms that do not round (R200): minimum and maximum, comparisons, sign copies and FCLASS, whose result has exactly
one of its low ten bits set. -/
def FloatCompareAndSignResults : Prop :=
  ∀ (s : State) (fmt : FFmt) (rd ra rb : Reg), s.power = .on → scalarRegsOk s [rd, ra, rb] rd = true →
    let f := flOf fmt
    let x := unbox f (s.getX ra)
    let y := unbox f (s.getX rb)
    let bool (v : Bool × Nat) : Word × Nat := (if v.1 then 1 else 0, v.2)
    GivesF (.fmin fmt rd ra rb) s rd (box f (f.minmax false x y).1, (f.minmax false x y).2) ∧
    GivesF (.fmax fmt rd ra rb) s rd (box f (f.minmax true x y).1, (f.minmax true x y).2) ∧
    GivesF (.feq fmt rd ra rb) s rd (bool (f.cmp .eq x y)) ∧ GivesF (.flt fmt rd ra rb) s rd (bool (f.cmp .lt x y)) ∧
    GivesF (.fle fmt rd ra rb) s rd (bool (f.cmp .le x y)) ∧
    GivesF (.fsgnj fmt rd ra rb) s rd (box f (f.sgnj 0 x y), 0) ∧ GivesF (.fsgnjn fmt rd ra rb) s rd (box f (f.sgnj 1 x y), 0) ∧
    GivesF (.fsgnjx fmt rd ra rb) s rd (box f (f.sgnj 2 x y), 0) ∧
    (∃ c < 10, GivesF (.fclass fmt rd ra) s rd (BitVec.ofNat 64 (2 ^ c), 0))

/-- Conversions (R201): an integer source is exact and rounded once to the format; a floating source is unboxed and rounded
once; a result of 32 bits is extended as its type says. -/
def FloatConversionResults : Prop :=
  ∀ (s : State) (fmt : FFmt) (rm : Rm) (r : Rnd) (rd ra : Reg),
    s.power = .on → scalarRegsOk s [rd, ra] rd = true → rndField s rm = some r →
    let f := flOf fmt
    let a := s.getX ra
    let out (v : Nat × Nat) : Word × Nat := (box f v.1, v.2)
    let x := f.decode (unbox f a)
    GivesF (.fcvtToFloat fmt rm .i64 rd ra) s rd (out (f.ofInt r a.toInt)) ∧
    GivesF (.fcvtToFloat fmt rm .n64 rd ra) s rd (out (f.ofInt r a.toNat)) ∧
    GivesF (.fcvtToFloat fmt rm .i32 rd ra) s rd (out (f.ofInt r (a.truncate 32).toInt)) ∧
    GivesF (.fcvtToFloat fmt rm .n32 rd ra) s rd (out (f.ofInt r (a.truncate 32).toNat)) ∧
    (∀ g : FFmt, g ≠ fmt → let y := (flOf g).decode (unbox (flOf g) a);
      GivesF (.fcvtToFloat fmt rm g.ty rd ra) s rd (out ((f.deliver r y).1, orFlags (nvIf [y]) (f.deliver r y).2))) ∧
    (let y := Fl.decode .f8e4 (unbox .f8e4 a);
      GivesF (.fcvtToFloat fmt rm .f8e4 rd ra) s rd (out ((f.deliver r y).1, orFlags (nvIf [y]) (f.deliver r y).2))) ∧
    (let y := Fl.decode .f8e5 (unbox .f8e5 a);
      GivesF (.fcvtToFloat fmt rm .f8e5 rd ra) s rd (out ((f.deliver r y).1, orFlags (nvIf [y]) (f.deliver r y).2))) ∧
    (let y := if a.toNat / 64 = 2 ^ 58 - 1 then lgDecode (a.toNat % 64) else .nan false;
      GivesF (.fcvtToFloat fmt rm .lg6 rd ra) s rd (out ((f.deliver r y).1, orFlags (nvIf [y]) (f.deliver r y).2))) ∧
    GivesF (.fcvtToInt fmt rm .i64 rd ra) s rd (BitVec.ofNat 64 (toIntV x r true 64).1, (toIntV x r true 64).2) ∧
    GivesF (.fcvtToInt fmt rm .n64 rd ra) s rd (BitVec.ofNat 64 (toIntV x r false 64).1, (toIntV x r false 64).2) ∧
    GivesF (.fcvtToInt fmt rm .i32 rd ra) s rd ((BitVec.ofNat 32 (toIntV x r true 32).1).signExtend 64, (toIntV x r true 32).2) ∧
    GivesF (.fcvtToInt fmt rm .n32 rd ra) s rd (BitVec.ofNat 64 (toIntV x r false 32).1, (toIntV x r false 32).2)

/-- A floating instruction under a reserved rounding mode raises ILLEGAL before any flag is computed, and one that raises an
enabled flag accrues its flags and raises FPTRAP with no register written (R119, R202). -/
def Obligations.FloatTraps : Prop :=
  ∀ (s : State) (fmt : FFmt) (rm : Rm) (rd ra rb : Reg), s.power = .on → scalarRegsOk s [rd, ra, rb] rd = true →
    (rm = .dyn → 5 ≤ fcsrFrm s.hart.fcsr →
      exec (.fadd fmt rm rd ra rb) s = .next (s.takeTrap (illegalTrap s.ir)) ∧
      exec (.fma fmt rm rd ra rb) s = .next (s.takeTrap (illegalTrap s.ir)) ∧
      exec (.fsqrt fmt rm rd ra) s = .next (s.takeTrap (illegalTrap s.ir))) ∧
    (∀ r, rndField s rm = some r →
      let v := (flOf fmt).div r (unbox (flOf fmt) (s.getX ra)) (unbox (flOf fmt) (s.getX rb))
      s.trapping v.2 = true →
      exec (.fdiv fmt rm rd ra rb) s =
        .next ((s.accrue v.2).takeTrap { cause := .fptrap, tval := BitVec.ofNat 64 v.2 }))
/-! ### Branches, jumps, loops -/

/-- Conditional branches (R217): when the test holds the PC moves by the offset in words, else to the next word; no register
changes, and a branch on the result of a forcing instruction counts one resynchronisation (R40). -/
def BranchesGoWhereTheTestSays : Prop :=
  ∀ (s : State) (ra rb : Reg) (off : BitVec 13), s.power = .on → s.lane = none →
    let a := s.getX ra
    let b := s.getX rb
    let goes (i : Instr) (c : Bool) : Prop :=
      exec i s = .next ((s.branchResync [ra, rb]).retire (if c then s.pc + off.signExtend 64 * 4 else s.pc + 4))
    goes (.beq ra rb off) (decide (a = b)) ∧ goes (.bne ra rb off) (decide (a ≠ b)) ∧
    goes (.blt ra rb off) (decide (a.toInt < b.toInt)) ∧ goes (.bge ra rb off) (decide (b.toInt ≤ a.toInt)) ∧
    goes (.bltn ra rb off) (decide (a.toNat < b.toNat)) ∧ goes (.bgen ra rb off) (decide (b.toNat ≤ a.toNat)) ∧
    ((∀ r ∈ [ra, rb], r ∉ s.hart.forced) → s.branchResync [ra, rb] = s)

/-- JAL and JALR (R218): the address of the next word goes to rd; JALR reads its base before rd is written and clears bits 1
and 0 of its target. -/
def JumpsLinkAndGo : Prop :=
  ∀ (s : State) (rd ra : Reg) (i21 : BitVec 21) (i16 : BitVec 16), s.power = .on → s.lane = none →
    exec (.jal rd i21) s = .next ((s.setX rd (s.pc + 4)).retire (s.pc + i21.signExtend 64 * 4)) ∧
    exec (.jalr rd ra i16) s = .next ((s.setX rd (s.pc + 4)).retire ((s.getX ra + i16.signExtend 64) &&& ~~~3))

/-- JT (R219): an index at or above the bound or the table goes past the table and reads nothing; an index below both goes
where the entry of the table says, read through the instruction path: a byte offset from the JT, or an address. -/
def TableJumps : Prop :=
  ∀ (s : State) (xi xn : Reg) (size : BitVec 13), s.power = .on → s.lane = none →
    let i := (s.getX xi).toNat
    let n := (s.getX xn).toNat
    let past := s.pc + 4 + BitVec.ofNat 64 (4 * size.toNat)
    (Min.min n size.toNat ≤ i → exec (.jtW xi xn size) s = .next (s.retire past)) ∧
    (Min.min n (size.toNat / 2) ≤ i → exec (.jtD xi xn size) s = .next (s.retire past)) ∧
    (∀ w t, i < Min.min n size.toNat → fetchWord (s.pc + 4 + BitVec.ofNat 64 (4 * i)) s = .ok w t →
      exec (.jtW xi xn size) s = .next (t.retire ((s.pc + (BitVec.ofNat 32 w).signExtend 64) &&& ~~~3))) ∧
    (∀ w t, i < Min.min n (size.toNat / 2) → fetchDouble (s.pc + 4 + BitVec.ofNat 64 (8 * i)) s = .ok w t →
      exec (.jtD xi xn size) s = .next (t.retire (BitVec.ofNat 64 w &&& ~~~3)))

/-- BSTRIP (R220): the count register loses the step, at most all of it; the loop is left when nothing remains and its
tracker entry goes, else the branch is taken and the entry holds the remainder. A second pass in a row that does not lower
the remainder raises NOPROGRESS and leaves the count register. -/
def StripLoops : Prop :=
  ∀ (s : State) (xc xs : Reg) (off : BitVec 13), s.power = .on → s.lane = none →
    let n := s.getX xc
    let st := s.getX xs
    let left := BitVec.ofNat 64 (n.toNat - st.toNat)
    let others := s.hart.tracker.filter fun e => e.addr != s.pc
    let e := s.hart.tracker.find? fun e => e.addr == s.pc
    let stuck := e.any fun e => decide (e.last.toNat ≤ left.toNat)
    (stuck = false ∨ e.any (·.strike) = false → left = 0 →
      exec (.bstrip xc xs off) s = .next (((s.setX xc 0).modHart fun h => { h with tracker := others }).retire (s.pc + 4))) ∧
    (stuck = false ∨ e.any (·.strike) = false → left ≠ 0 →
      exec (.bstrip xc xs off) s = .next (((s.setX xc left).modHart fun h =>
        { h with tracker := (⟨s.pc, left, stuck⟩ :: others).take 8 }).retire (s.pc + off.signExtend 64 * 4))) ∧
    (stuck = true → e.any (·.strike) = true →
      ∃ x : Trap, x.cause = .noprogress ∧ x.tval = s.pc ∧
        exec (.bstrip xc xs off) s = .next ((s.modHart fun h => { h with tracker := others }).takeTrap x))

/-! ### Loads, stores, atomics -/

/-- What the translation of an access may leave changed is in the translation caches alone: no A or D bit is set. -/
def Same (s t : State) : Prop :=
  t.mem = s.mem ∧ t.slots = s.slots ∧ t.cur = s.cur ∧ t.hart = s.hart ∧ t.disp = s.disp ∧ t.ticket = s.ticket

/-- Where an access to one part acts on memory as its bytes stand: no uncorrectable data, no stream inbound queue; for a
Steward, no register. -/
def Settled (s : State) (p : Part) : Prop :=
  s.corrupt p.loc.pa = false ∧ (∀ c o, regionOf p.loc.pa = .core c o → ∀ a k b, winPart o ≠ .stream a k b) ∧
    ((∃ sl, s.cur = .block sl) ∨ isIo p.loc.pa = false)

/-- The parts of an access are translated and pass their checks, none waits for an older access (R172, R417) or for the host
(R412), and they act on memory as its bytes stand. -/
def LocatedAt (s : State) (u : Use) (va : Word) (n : Nat) (store : Bool) (ps : List Part) (s1 : State) : Prop :=
  locate u (cutGranules 3 va n) s = .ok ps s1 ∧ Same s s1 ∧ (∀ p ∈ ps, Settled s1 p ∧ (store = false → pteCmp p.loc.pte = false))

/-- Memory after bytes are stored to the parts of an access, in order. -/
def storedTo (m : Memory) : List Part → List Byte → Memory
  | [], _ => m
  | p :: rest, bs => storedTo (m.putAll p.loc.pa (bs.take p.len)) rest (bs.drop p.len)

/-- The bytes that the parts of an access hold. -/
def partBytes (m : Memory) (ps : List Part) : List Byte := ps.flatMap fun p => Memory.bytes m p.loc.pa p.len

/-- LD (R203, R204): the bytes at the address, least significant first, extended as the size says, go to rd; no byte of
memory and no other register changes. A load to x0 reads and discards. -/
def LoadsReadMemory : Prop :=
  ∀ (s s1 : State) (size : LdSize) (rd ra : Reg) (imm : BitVec 13) (ps : List Part),
    s.power = .on → scalarRegsOk s [rd, ra] rd = true →
    let n := match size with | .i8 | .n8 => 1 | .i16 | .n16 => 2 | .i32 | .n32 => 4 | .i64 => 8
    let v := natOfBytes (partBytes s.mem ps)
    LocatedAt s (scalarUse .load) (s.getX ra + imm.signExtend 64) n false ps s1 →
    ∃ u : State, exec (.ld size rd ra imm) s = .next ((u.setX rd (match size with
        | .n8 | .n16 | .n32 => BitVec.ofNat 64 v
        | _ => BitVec.ofInt 64 (sint v (8 * n)))).retire (s.pc + 4)) ∧ Same s u

/-- ST (R203, R204): the low bytes of the data register, least significant first, stand at the address; every other byte of
memory, every register and the control registers but ctl.instret stay (ctl.settkill counts the Sett entries that the store
kills, R372). -/
def StoresWriteMemory : Prop :=
  ∀ (s s1 : State) (size : StSize) (rb ra : Reg) (imm : BitVec 13) (ps : List Part),
    s.power = .on → scalarRegsOk s [ra, rb] 0 = true →
    let n := match size with | .b8 => 1 | .b16 => 2 | .b32 => 4 | .b64 => 8
    LocatedAt s (scalarUse .store) (s.getX ra + imm.signExtend 64) n true ps s1 →
    ∃ t : State, exec (.st size rb ra imm) s = .next t ∧ t.mem = storedTo s.mem ps (bytesOfNat n (s.getX rb).toNat) ∧
      (∀ a, (∀ p ∈ ps, a < p.loc.pa ∨ p.loc.pa + p.len ≤ a) → Memory.get t.mem a = Memory.get s.mem a) ∧
      (∀ r, t.getX r = s.getX r) ∧ (s.lane = none → t.pc = s.pc + 4) ∧ t.hart.fcsr = s.hart.fcsr ∧ t.hart.vl = s.hart.vl ∧
      t.hart.vtype = s.hart.vtype ∧ t.hart.vstart = s.hart.vstart ∧ t.hart.instret = s.hart.instret + 1

/-- An atomic's address in one granule, translated and checked as an atomic, with nothing to wait for. -/
def AtomicAt (s : State) (acc : Access) (order : Order) (a : Word) (n : Nat) (l : Loc) : Prop :=
  a.toNat % 32 + n ≤ 32 ∧
    ∃ s1 s2 : State, hartLoc a (atomicUse acc) s = .ok l s1 ∧ settlePart (atomicUse acc) ⟨a, l, n⟩ s1 = .ok () s2 ∧ Same s s2 ∧
      (order = .rel ∨ order = .ar → s2.releaseReady = true) ∧ Settled s2 ⟨a, l, n⟩

/-- Atomics (R209, R210): the old value, sign-extended, goes to rd, and the new value takes its place in memory; every byte
outside the access and every other register stay. CAS writes rs2 when the old value is rd's, CAS2 exchanges 16 bytes when
both halves match the pair of rd, STRL writes rs2 and no register, LDAQ writes no memory. -/
def AtomicsExchangeMemory : Prop :=
  ∀ (s : State) (op : AmoOp) (order : Order) (width : AWidth) (scope : Scope) (rd ra rb : Reg) (l : Loc),
    s.power = .on → scalarRegsOk s [rd, ra, rb] rd = true →
    let n := match width with | .w32 => 4 | .w64 => 8
    let w := 8 * n
    let old := Memory.nat s.mem l.pa n
    let b := (s.getX rb).toNat
    let b' := b % 2 ^ w
    let e := (s.getX rd).toNat
    let sx := BitVec.ofInt 64 (sint old w)
    let writes (x : Instr) (n new : Nat) (fin : State → State) : Prop :=
      ∃ u : State, exec x s = .next ((fin u).retire (s.pc + 4)) ∧
        u.mem = Memory.putAll s.mem l.pa (bytesOfNat n new) ∧ (∀ r, u.getX r = s.getX r) ∧ u.hart.fcsr = s.hart.fcsr
    (AtomicAt s .store order (s.getX ra) n l →
      (∃ new, writes (.amo op order width scope rd ra rb) n new (fun u => u.setX rd sx) ∧
        match op with
        | .swap => new = b'
        | .add => new = (old + b) % 2 ^ w
        | .and => new = old &&& b'
        | .or => new = old ||| b'
        | .xor => new = old ^^^ b'
        | .min => new < 2 ^ w ∧ sint new w = Min.min (sint old w) (sint b w)
        | .max => new < 2 ^ w ∧ sint new w = Max.max (sint old w) (sint b w)
        | .minn => new = Min.min old b'
        | .maxn => new = Max.max old b') ∧
      writes (.cas order width scope rd ra rb) n (if old = e % 2 ^ w then b else old) (fun u => u.setX rd sx)) ∧
    (AtomicAt s .store .rel (s.getX ra) n l → writes (.strl width scope ra rb) n b id) ∧
    (AtomicAt s .load .acq (s.getX ra) n l →
      ∃ u : State, exec (.ldaq width scope rd ra) s = .next ((u.setX rd sx).retire (s.pc + 4)) ∧ Same s u) ∧
    (AtomicAt s .store order (s.getX ra) 16 l → s.lane = none → rd.toNat % 2 = 0 → rb.toNat % 2 = 0 → (s.getX ra).toNat % 16 = 0 →
      let old := Memory.nat s.mem l.pa 16
      let pair (r : Reg) : Nat := (s.getX (r + 1)).toNat * 2 ^ 64 + (s.getX r).toNat
      writes (.cas2 order scope rd ra rb) 16 (if old = pair rd then pair rb else old)
        (fun u => (u.setX rd (BitVec.ofNat 64 old)).setX (rd + 1) (BitVec.ofNat 64 (old / 2 ^ 64))))

/-- An atomic that crosses a granule, and a CAS2 whose address is no multiple of 16, raise ALIGN with the address, before
anything is read (R209, R210). -/
def MisalignedAtomicsTrap : Prop :=
  ∀ (s : State) (op : AmoOp) (order : Order) (width : AWidth) (scope : Scope) (rd ra rb : Reg),
    s.power = .on → scalarRegsOk s [rd, ra, rb] rd = true →
    let n := match width with | .w32 => 4 | .w64 => 8
    let a := s.getX ra
    let align : Trap := { cause := .align, va := a, vaValid := true, tval := a }
    (32 < a.toNat % 32 + n → exec (.amo op order width scope rd ra rb) s = .next (s.takeTrap align) ∧
      exec (.cas order width scope rd ra rb) s = .next (s.takeTrap align)) ∧
    (s.lane = none → rd.toNat % 2 = 0 → rb.toNat % 2 = 0 → a.toNat % 16 ≠ 0 →
      exec (.cas2 order scope rd ra rb) s = .next (s.takeTrap align)) ∧
    (s.lane = none → rd.toNat % 2 = 1 ∨ rb.toNat % 2 = 1 →
      exec (.cas2 order scope rd ra rb) s = .next (s.takeTrap { cause := .illreg }))

/-- A hint's translation waits for nothing: no walk of its page is under way and no read of it waits for the host (R227, R412). -/
def HintGoesOn (s : State) (itlb : Bool) (acc : Access) (va : Word) : Prop :=
  ∃ r t, translateHint s.walkSrc itlb s.ctx va acc s = .ok r t

/-- Fences and prefetches (R213 - R216): with none of the older accesses outstanding that its kind names, a FENCE only advances
the PC, else it waits: acq names loads, rel and ar every access, and ar at scope sys alone those to UN pages; the refill reads that a
stream can make now are among them (the model's choice, log 82). Accesses of
scalar and vector instructions are performed at their own steps (log 8), but for writes that a stream queue holds: FENCE.SV
keeps the later vector and tile work of the block behind the scalar ones, FENCE.VS waits for the vector ones. FENCE.I, once
every older store is performed, empties the instruction cache of the core; a hint that waits for nothing leaves every register
and byte. -/
def Obligations.FencesAndHints : Prop :=
  ∀ (s : State) (sl : SlotId) (kind : FenceKind) (scope : Scope) (ra : Reg) (imm : BitVec 12),
    s.power = .on → s.cur = .block sl →
    (s.fenceReady kind scope = true → exec (.fence kind scope) s = .next (s.retire (s.pc + 4))) ∧
    (s.fenceReady kind scope = false → exec (.fence kind scope) s = .next s) ∧
    (s.fenceReady .acq scope =
      (((s.slot sl).olderWork.all fun t => !t.loads || s.allUn (s.slot sl).ctx t) && !s.refillsDue sl false)) ∧
    s.fenceReady .rel scope = s.releaseReady ∧ (scope ≠ .sys → s.fenceReady .ar scope = s.releaseReady) ∧
    (s.fenceReady .ar .sys = (((s.slot sl).olderWork.all fun t => !t.isCommand) && (!s.anyHeld sl fun _ => true) && !s.refillsDue sl true)) ∧
    (s.lane = none → exec .fenceSv s = .next ((s.svMark sl).retire (s.pc + 4)) ∧
      (s.anyHeld sl HeldWrite.scalar = false → s.svMark sl = s) ∧
      (s.anyHeld sl (fun h => h.fail.elem.isSome && !h.un) = false → exec .fenceVs s = .next (s.retire (s.pc + 4))) ∧
      (s.anyHeld sl (fun h => h.fail.elem.isSome && !h.un) = true → exec .fenceVs s = .next s) ∧
      (((s.slot sl).olderWork.all fun t => !t.isCommand) = true → (s.anyHeld sl fun _ => true) = false →
        s.refillsDue sl true = false → exec .fenceI s =
          .next ((s.modCore (slotCore sl) fun c => { c with icache := [] }).retire (s.pc + 4))) ∧
      (HintGoesOn s true .ipref (s.getX ra + imm.signExtend 64) →
        ∃ t : State, exec (.ipref ra imm) s = .next t ∧ t.mem = s.mem ∧ t.pc = s.pc + 4 ∧ (t.slot sl).vregs = (s.slot sl).vregs ∧
          ∀ r, t.getX r = s.getX r)) ∧
    (scalarRegsOk s [ra] 0 = true → HintGoesOn s false .dpref (s.getX ra + imm.signExtend 64) →
      ∃ t : State, exec (.dpref ra imm) s = .next t ∧ t.mem = s.mem ∧ (s.lane = none → t.pc = s.pc + 4) ∧ ∀ r, t.getX r = s.getX r)

/-! ### Traps, the system instructions, control registers -/

/-- A trap delivered to the block's handler (R105, R232, R233): ctl.xpc holds the address of the instruction, ctl.tcause the
cause, ctl.tval and ctl.tcoord what the cause gives; the PC is ctl.tvec with bits 1 and 0 clear, and nothing else of the hart
changes. -/
def TrapEntersHandler : Prop :=
  ∀ (s : State) (sl : SlotId) (x : Trap), s.cur = .block sl → (s.slot sl).threads = none → (s.slot sl).call = none →
    s.hart.tvec ≠ 0 → x.cause.delivery = .tvec →
    let t := s.takeTrap x
    t.hart = { s.hart with xpc := s.pc, tcause := x.cause.code, tval := x.tval, tcoord := x.tcoord, pc := s.hart.tvec &&& ~~~3 } ∧
    t.mem = s.mem ∧ (t.slot sl).vregs = (s.slot sl).vregs ∧ (t.slot sl).run = (s.slot sl).run ∧ t.cur = s.cur ∧
    (∀ o, o ≠ sl → t.slot o = s.slot o)

/-- A trap that goes to the Steward stops the block: its registers and PC stay, the fault record stands at its place in the
cluster window, a TRAP record is posted. One that goes to the host parks the block with its registers, a replay token and
the access it waits on, and a PAGEFAULT record is posted. While the event queue is full a page fault is met again, and a stop
waits with what it is about (R105, R143 - R146, R153, R234). -/
def TrapStopsOrParksBlock : Prop :=
  ∀ (s : State) (sl : SlotId) (x : Trap), s.cur = .block sl → (s.slot sl).call = none →
    let t := s.takeTrap x
    let k := slotCluster sl
    let at_ := eventPA k (s.cluster k).tail
    (s.eventRoom k = false → x.cause.delivery = .park → t = s) ∧
    (s.eventRoom k = false → x.cause.delivery ≠ .park →
      x.cause.delivery ≠ .tvec ∨ s.hart.tvec = 0 ∨ (s.slot sl).threads ≠ none →
      t = s.modSlot sl fun y => { y with stop := y.stop.or (some (s.pinTrap x)) }) ∧
    (s.eventRoom k = true → x.cause.delivery = .park →
      ((s.slot sl).run ≠ .evicting → (t.slot sl).run = .parked) ∧ (t.slot sl).hart = (s.slot sl).hart ∧ (t.slot sl).cause = x.cause.code ∧
      (t.slot sl).park = some { token := s.tokenNext, acc := x.acc, va := x.va, since := s.clock } ∧
      Memory.bytes t.mem at_ 32 = (s.slotEvent sl 4 s.tokenNext x.va).bytes ∧ (t.cluster k).tail = (s.cluster k).tail + 1) ∧
    (s.eventRoom k = true → x.cause.delivery ≠ .park →
      x.cause.delivery ≠ .tvec ∨ s.hart.tvec = 0 ∨ (s.slot sl).threads ≠ none →
      (t.slot sl).halted = true ∧ (t.slot sl).hart = (s.slot sl).hart ∧ (t.slot sl).cause = x.cause.code ∧
      Memory.bytes t.mem (faultPA sl) 64 = (s.faultRecord sl x 0).bytes x.reason ∧
      Memory.bytes t.mem at_ 32 = (s.slotEvent sl 3 (x.cause.code.zeroExtend 64) (BitVec.ofNat 64 (faultPA sl))).bytes ∧
      (t.cluster k).tail = (s.cluster k).tail + 1)

/-- ECALL and EBREAK are their traps: ECALL stops the block with a0 in the record's address field, EBREAK enters the handler
with its own address in ctl.xpc (R221). TRAPRET goes to ctl.xpc with bits 1 and 0 clear, also outside a handler, and restores
no other register (R221, R235). -/
def SystemCallsAndReturns : Prop :=
  ∀ (s : State), s.power = .on → s.lane = none →
    exec .ecall s = .next (s.takeTrap { cause := .ecall, va := s.getX 10 }) ∧
    exec .ebreak s = .next (s.takeTrap { cause := .ebreak }) ∧
    exec .trapret s = .next ((s.setPc (s.hart.xpc &&& ~~~3)).count) ∧
    (∀ sl, s.cur = .block sl → (s.slot sl).call = none → s.hart.tvec ≠ 0 →
      ∃ t : State, exec .ebreak s = .next t ∧ t.hart.xpc = s.pc ∧ t.pc = s.hart.tvec &&& ~~~3 ∧ t.hart.tcause = Cause.ebreak.code)

/-- YIELD has no architectural effect: the slot forfeits its next turn at each engine (R221). WIDF extracts field L of an
identifier under the widths of ctl.widw; a level above 5 raises ILLEGAL. -/
def YieldAndWorkFields : Prop :=
  ∀ (s : State) (sl : SlotId) (rd ra : Reg) (level : BitVec 5), s.power = .on → s.cur = .block sl → s.lane = none →
    (∃ t : State, exec .yield s = .next (t.retire (s.pc + 4)) ∧ t.slots = s.slots ∧ t.mem = s.mem ∧
      ∀ e : Engine, (e, BitVec.ofNat 2 (slotNum sl)) ∈ (t.core (slotCore sl)).forfeit) ∧
    (level.toNat ≤ 5 →
      let w (i : Nat) : Nat := ((s.slot sl).widw.toNat / 256 ^ i) % 256
      Gives (.widf rd ra level) s rd
        (BitVec.ofNat 64 ((s.getX ra).toNat / 2 ^ ((List.range level.toNat).map w).sum % 2 ^ w level.toNat))) ∧
    (5 < level.toNat → exec (.widf rd ra level) s = .next (s.takeTrap (illegalTrap s.ir)))

/-- The control-register instructions (R222): rd gets the old value; CTLR, and CTLS or CTLC with rs1 = x0, write nothing;
CTLW, CTLS and CTLC write the new value by the rule of the register. Shown for registers of each kind: a plain one, a status
word whose reserved bit 8 reads 0, one with a limit, and a read-only one. An address that is not listed raises ILLEGAL. -/
def Obligations.ControlRegisterAccess : Prop :=
  ∀ (s : State) (rd ra : Reg), s.power = .on → s.lane = none →
    let v := s.getX ra
    (∀ (addr : BitVec 12) (old : Word), s.ctlRead addr.toNat = some old →
      (addr ≠ 0x10 ∨ s.hart.vlForced = false → Gives (.ctlr rd addr) s rd old) ∧
      Gives (.ctls rd 0 addr) s rd old ∧ Gives (.ctlc rd 0 addr) s rd old) ∧
    (exec (.ctlw rd ra 0x30) s = .next (((s.modHart fun h => { h with tvec := v &&& ~~~3 }).setX rd s.hart.tvec).retire (s.pc + 4))) ∧
    (exec (.ctlw rd ra 0x31) s = .next (((s.modHart fun h => { h with xpc := v }).setX rd s.hart.xpc).retire (s.pc + 4))) ∧
    (exec (.ctlw rd ra 0x20) s =
      .next (((s.modHart fun h => { h with fcsr := v.truncate 17 &&& 0x1FEFF }).setX rd (s.hart.fcsr.zeroExtend 64)).retire (s.pc + 4))) ∧
    (exec (.ctlw rd ra 0x10) s = .next (((s.modHart fun h =>
      { h with vl := BitVec.ofNat 64 (Min.min v.toNat s.vlmax), vlForced := false }).setX rd s.hart.vl).retire (s.pc + 4))) ∧
    Gives (.ctlw rd ra 0x00) s rd 0x3F0200 ∧
    (ra ≠ 0 → exec (.ctls rd ra 0x20) s =
      .next (((s.modHart fun h => { h with fcsr := (s.hart.fcsr ||| v.truncate 17) &&& 0x1FEFF }).setX rd (s.hart.fcsr.zeroExtend 64)).retire
        (s.pc + 4))) ∧
    (ra ≠ 0 → exec (.ctlc rd ra 0x20) s =
      .next (((s.modHart fun h => { h with fcsr := (s.hart.fcsr &&& ~~~(v.truncate 17)) &&& 0x1FEFF }).setX rd (s.hart.fcsr.zeroExtend 64)).retire
        (s.pc + 4))) ∧
    (∀ addr : BitVec 12, s.ctlRead addr.toNat = none →
      exec (.ctlr rd addr) s = .next (s.takeTrap (illegalTrap s.ir)) ∧ exec (.ctlw rd ra addr) s = .next (s.takeTrap (illegalTrap s.ir)))

/-- Who may run what (R98): a block that meets a Steward-only instruction takes PRIV, whatever its operands; a Steward that
meets a vector, matrix or tile instruction takes ILLEGAL, whether or not an element is active. -/
def PrivilegeAndEngineRules : Prop :=
  ∀ (s : State) (ra rb rc : Reg) (sl : SlotId) (k : ClusterId), s.power = .on →
    (s.cur = .block sl → ∀ i ∈ [Instr.evpop ra rb, .evwait ra rb, .slotassign ra rb, .slotevict ra rb rc, .cqpush ra rb, .tlbinv ra rb],
      exec i s = .next (s.takeTrap { cause := .priv })) ∧
    (s.cur = .steward k → ∀ i ∈ [Instr.vadd .vv true ra rb rc, .vfadd .vv false true ra rb rc, .vredsum true ra rb rc,
        .vmand ra rb rc, .vle .e32 .normal true ra rb, .vse .e32 .normal true ra rb, .vsetvl ra rb rc, .msetmvl ra rb,
        .vstream ra rb 0, .vsplit ra 4, .vjoin, .mzero 0, .mop .f16 true 0 ra rb, .tend, .tdef 0 ra, .tfree 0, .tzero false 0,
        .tmma false false 0 1 2 3],
      exec i s = .next (s.takeTrap (illegalTrap s.ir)))
/-! ### Vector arithmetic -/

/-- A vector word of a running block executes its elements: no lane threads, some element active, groups that R96 accepts, no
bound stream register in its frame, no lane group of the slot lent (R293), and no lookup in the Sett (ctl.sett[0] = 0). -/
def LaneReady (s : State) (sl : SlotId) (c : VCtx) (act : List Nat) (dst : Option VOpnd) (srcs : List VOpnd) : Prop :=
  s.power = .on ∧ s.cur = .block sl ∧ (s.slot sl).threads = none ∧ act ≠ [] ∧ groupsOk s.nvreg c.vm dst srcs = true ∧
    (s.slot sl).streamsHere = [] ∧ s.ownLent sl = false ∧ s.hart.sett.getLsbD 0 = false

/-- What a vector instruction answers from its elements (index, value, flags) when none raises an enabled flag: they are
written, the others stay (R299), the flags accrue, ctl.vstart is 0. -/
def GivesV (i : Instr) (s : State) (c : VCtx) (d : VOpnd) (es : List VElem) : Prop :=
  (∀ e ∈ es, e.2.2 &&& fcsrFte s.hart.fcsr = 0) →
  exec i s = .next ((((s.putElems c d es).accrueV (es.foldr (fun e f => e.2.2 ||| f) 0)).endVector).retire (s.pc + 4))

/-- The scalar register that a kind reads. -/
def kindReg (k : VKind) (r : Reg) : Reg := if k == .vx || k == .vf then r else 0

/-- What writing elements to a destination does (R287, R288, R299): a written element reads as its value, every other element
of the group as before, every other register as before. -/
def Obligations.VectorWritesOnlyItsElements : Prop :=
  ∀ (s : State) (sl : SlotId) (vm : Bool) (r : Reg) (d : VOpnd) (es : List VElem),
    let c := s.vctx sl vm r
    let w := if d.eew = 0 then 1 else d.eew
    let after : VCtx := { c with rf := ((s.putElems c d es).slot sl).vregs }
    0 < c.grant → c.grant ≤ 16 → w ∈ [1, 8, 16, 32, 64] → 0 < d.size → d.reg.toNat + d.size ≤ 32 →
    (es.map (·.1)).Nodup → (∀ e ∈ es, (e.1 + 1) * w ≤ d.size * c.vlen) →
    (∀ e ∈ es, after.elem d.reg w e.1 = e.2.1 % 2 ^ w) ∧
    (∀ i, (i + 1) * w ≤ d.size * c.vlen → (∀ e ∈ es, e.1 ≠ i) → after.elem d.reg w i = c.elem d.reg w i) ∧
    (∀ q : Reg, d.covers q.toNat = false → after.reg q.toNat = c.reg q.toNat)

/-- Integer division in the lane engine (R108, R300). -/
def VectorDivisionResults : Prop :=
  ∀ (s : State) (sl : SlotId) (k : VKind) (vm : Bool) (vd s1 vs2 : Reg),
    let c := s.vctx sl vm (kindReg k s1)
    let w := c.sew
    let d := c.grp vd w
    LaneReady s sl c c.active (some d) (vvSrcs k s1 vs2 VCtx.sew VCtx.sew c) →
    let a (i : Nat) : Nat := c.elem vs2 w i
    let b (i : Nat) : Nat := c.s1 k s1 w false .f64 i
    let sa (i : Nat) : Int := sint (a i) w
    let sb (i : Nat) : Int := sint (b i) w
    let goes (x : Instr) (f : Nat → Nat) : Prop := GivesV x s c d (c.active.map fun i => (i, f i, 0))
    goes (.vdiv k vm vd s1 vs2) (fun i => if sb i = 0 then 2 ^ w - 1 else wrap ((sa i).tdiv (sb i)) w) ∧
    goes (.vdivn k vm vd s1 vs2) (fun i => if b i = 0 then 2 ^ w - 1 else a i / b i % 2 ^ w) ∧
    goes (.vrem k vm vd s1 vs2) (fun i => if sb i = 0 then wrap (sa i) w else wrap ((sa i).tmod (sb i)) w) ∧
    goes (.vremn k vm vd s1 vs2) (fun i => if b i = 0 then a i % 2 ^ w else a i % b i % 2 ^ w)

/-- Plain integer operations (R301) in every kind: each active element of the destination gets the result modulo 2^SEW. -/
def VectorPlainIntegerResults : Prop :=
  ∀ (s : State) (sl : SlotId) (k : VKind) (vm : Bool) (vd s1 vs2 : Reg),
    let c := s.vctx sl vm (kindReg k s1)
    let w := c.sew
    let d := c.grp vd w
    LaneReady s sl c c.active (some d) (vvSrcs k s1 vs2 VCtx.sew VCtx.sew c) →
    let a (i : Nat) : Nat := c.elem vs2 w i
    let b (i : Nat) : Nat := c.s1 k s1 w false .f64 i
    let sa (i : Nat) : Int := sint (a i) w
    let sb (i : Nat) : Int := sint (b i) w
    let sh (i : Nat) : Nat := c.s1 k s1 w true .f64 i % w
    let goes (x : Instr) (f : Nat → Nat) : Prop := GivesV x s c d (c.active.map fun i => (i, f i, 0))
    goes (.vadd k vm vd s1 vs2) (fun i => (a i + b i) % 2 ^ w) ∧
    goes (.vsub k vm vd s1 vs2) (fun i => wrap ((a i : Int) - b i) w) ∧
    goes (.vrsub k vm vd s1 vs2) (fun i => wrap ((b i : Int) - a i) w) ∧
    goes (.vmul k vm vd s1 vs2) (fun i => a i * b i % 2 ^ w) ∧
    goes (.vmulh k vm vd s1 vs2) (fun i => wrap (sa i * sb i / 2 ^ w) w) ∧
    goes (.vmulhn k vm vd s1 vs2) (fun i => a i * b i / 2 ^ w % 2 ^ w) ∧
    goes (.vmin k vm vd s1 vs2) (fun i => wrap (Min.min (sa i) (sb i)) w) ∧
    goes (.vmax k vm vd s1 vs2) (fun i => wrap (Max.max (sa i) (sb i)) w) ∧
    goes (.vminn k vm vd s1 vs2) (fun i => Min.min (a i) (b i) % 2 ^ w) ∧
    goes (.vmaxn k vm vd s1 vs2) (fun i => Max.max (a i) (b i) % 2 ^ w) ∧
    goes (.vand k vm vd s1 vs2) (fun i => (a i &&& b i) % 2 ^ w) ∧
    goes (.vor k vm vd s1 vs2) (fun i => (a i ||| b i) % 2 ^ w) ∧
    goes (.vxor k vm vd s1 vs2) (fun i => (a i ^^^ b i) % 2 ^ w) ∧
    goes (.vsll k vm vd s1 vs2) (fun i => a i * 2 ^ sh i % 2 ^ w) ∧
    goes (.vsrl k vm vd s1 vs2) (fun i => a i / 2 ^ sh i % 2 ^ w) ∧
    goes (.vsra k vm vd s1 vs2) (fun i => wrap (sa i / 2 ^ sh i) w)

/-- Operations whose destination or source has another width, that saturate, or that read the old destination (R301 - R303):
widening, narrowing with rounding and saturation, saturating addition and subtraction, multiply-accumulate. -/
def VectorWideSaturatingResults : Prop :=
  ∀ (s : State) (sl : SlotId) (k : VKind) (vm : Bool) (vd s1 vs2 : Reg),
    let c := s.vctx sl vm (kindReg k s1)
    let w := c.sew
    let a (i : Nat) : Nat := c.elem vs2 w i
    let b (i : Nat) : Nat := c.s1 k s1 w false .f64 i
    let sa (i : Nat) : Int := sint (a i) w
    let sb (i : Nat) : Int := sint (b i) w
    let sat (signed : Bool) (v : Int) : Nat × Nat := (wrap (saturate signed w v).1 w, if (saturate signed w v).2 then 32 else 0)
    let goes (d : VOpnd) (x : Instr) (f : Nat → Nat × Nat) : Prop := GivesV x s c d (c.active.map fun i => (i, f i))
    (LaneReady s sl c c.active (some (c.grp vd w)) (vvSrcs k s1 vs2 VCtx.sew VCtx.sew c) →
      goes (c.grp vd w) (.vsadd k vm vd s1 vs2) (fun i => sat true (sa i + sb i)) ∧
      goes (c.grp vd w) (.vsaddn k vm vd s1 vs2) (fun i => sat false (a i + b i)) ∧
      goes (c.grp vd w) (.vssub k vm vd s1 vs2) (fun i => sat true (sa i - sb i)) ∧
      goes (c.grp vd w) (.vssubn k vm vd s1 vs2) (fun i => sat false ((a i : Int) - b i))) ∧
    (w ≠ 64 → LaneReady s sl c c.active (some (c.grp vd (2 * w))) (vvSrcs k s1 vs2 VCtx.sew VCtx.sew c) →
      goes (c.grp vd (2 * w)) (.vwadd k vm vd s1 vs2) (fun i => (wrap (sa i + sb i) (2 * w) % 2 ^ (2 * w), 0)) ∧
      goes (c.grp vd (2 * w)) (.vwaddn k vm vd s1 vs2) (fun i => ((a i + b i) % 2 ^ (2 * w), 0)) ∧
      goes (c.grp vd (2 * w)) (.vwmul k vm vd s1 vs2) (fun i => (wrap (sa i * sb i) (2 * w) % 2 ^ (2 * w), 0)) ∧
      goes (c.grp vd (2 * w)) (.vwmuln k vm vd s1 vs2) (fun i => (a i * b i % 2 ^ (2 * w), 0))) ∧
    (w ≠ 64 → LaneReady s sl c c.active (some (c.grp vd w)) (vvSrcs k s1 vs2 (fun c => 2 * c.sew) VCtx.sew c) →
      let wide (i : Nat) : Nat := c.elem vs2 (2 * w) i
      let sh (i : Nat) : Nat := c.s1 k s1 w true .f64 i % (2 * w)
      goes (c.grp vd w) (.vnsrl k vm vd s1 vs2) (fun i => sat false (roundOff c.vxrm (wide i) (sh i))) ∧
      goes (c.grp vd w) (.vnsra k vm vd s1 vs2) (fun i => sat true (roundOff c.vxrm (sint (wide i) (2 * w)) (sh i)))) ∧
    (LaneReady s sl c c.active (some (c.grp vd w)) (vvSrcs k s1 vs2 VCtx.sew VCtx.sew c ++ [c.grp vd w]) →
      goes (c.grp vd w) (.vmacc k vm vd s1 vs2) (fun i => ((c.elem vd w i + a i * b i) % 2 ^ w, 0)) ∧
      goes (c.grp vd w) (.vnmsac k vm vd s1 vs2) (fun i => (wrap ((c.elem vd w i : Int) - a i * b i) w, 0)))

/-- VCMP (R304): each active bit of the destination mask is 1 exactly where the condition holds, signed for the first six,
unsigned for the others. VMERGE takes s1 where the bit of v0 is 1 and s2 elsewhere, over the whole range; VMV copies s1
(R305). -/
def Obligations.VectorCompareMergeMove : Prop :=
  ∀ (s : State) (sl : SlotId) (k : VKind) (vm : Bool) (vd s1 vs2 : Reg),
    (let c := s.vctx sl vm (kindReg k s1)
     let w := c.sew
     LaneReady s sl c c.active (some (maskOp vd)) (vvSrcs k s1 vs2 VCtx.sew VCtx.sew c) →
     let a (i : Nat) : Nat := c.elem vs2 w i
     let b (i : Nat) : Nat := c.s1 k s1 w false .f64 i
     let goes (q : VCond) (p : Nat → Bool) : Prop :=
       GivesV (.vcmp q k vm vd s1 vs2) s c (maskOp vd) (c.active.map fun i => (i, if p i then 1 else 0, 0))
     goes .eq (fun i => decide (a i = b i)) ∧ goes .ne (fun i => decide (a i ≠ b i)) ∧
     goes .lt (fun i => decide (sint (a i) w < sint (b i) w)) ∧ goes .le (fun i => decide (sint (a i) w ≤ sint (b i) w)) ∧
     goes .gt (fun i => decide (sint (b i) w < sint (a i) w)) ∧ goes .ge (fun i => decide (sint (b i) w ≤ sint (a i) w)) ∧
     goes .ltn (fun i => decide (a i < b i)) ∧ goes .len (fun i => decide (a i ≤ b i)) ∧
     goes .gtn (fun i => decide (b i < a i)) ∧ goes .gen (fun i => decide (b i ≤ a i))) ∧
    (let c := s.vctx sl false (kindReg k s1)
     let w := c.sew
     LaneReady s sl c c.active (some (c.grp vd w)) (vvSrcs k s1 vs2 VCtx.sew VCtx.sew c) →
     GivesV (.vmerge k vd s1 vs2) s c (c.grp vd w)
       (c.range.map fun i => (i, if c.bit 0 i then c.s1 k s1 w false .f64 i else c.elem vs2 w i, 0))) ∧
    (let c := s.vctx sl true (kindReg k s1)
     let w := c.sew
     LaneReady s sl c c.active (some (c.grp vd w)) (if k == .vv then [c.grp s1 w] else []) →
     GivesV (.vmv k vd s1) s c (c.grp vd w) (c.active.map fun i => (i, c.s1 k s1 w false .f64 i, 0)))

/-- Floating arithmetic of major 0x1E (R306, R307) in the SEW format, under a legal rounding mode: each active element gets
the rounded result, and the flags of the active elements accrue. -/
def VectorFloatArithmeticResults : Prop :=
  ∀ (s : State) (sl : SlotId) (k : VKind) (alt vm : Bool) (vd s1 vs2 : Reg),
    let c := s.vctx sl vm (kindReg k s1)
    let c1 := s.vctx sl vm 0
    let w := c.sew
    let d := c.grp vd w
    let f := vfmt w alt
    let a (i : Nat) : Nat := c.elem vs2 w i
    let b (i : Nat) : Nat := c.s1 k s1 w false f i
    let o (i : Nat) : Nat := c.elem vd w i
    let goes (x : Instr) (g : Nat → Nat × Nat) : Prop := GivesV x s c d (c.active.map fun i => (i, g i))
    let goes1 (x : Instr) (g : Nat → Nat × Nat) : Prop := GivesV x s c1 (c1.grp vd w) (c1.active.map fun i => (i, g i))
    w ≠ 8 → (alt = true → w = 16) → c.frm ≤ 4 →
    (LaneReady s sl c c.active (some d) (vvSrcs k s1 vs2 VCtx.sew VCtx.sew c) →
      goes (.vfadd k alt vm vd s1 vs2) (fun i => f.add c.rnd (a i) (b i)) ∧
      goes (.vfsub k alt vm vd s1 vs2) (fun i => f.sub c.rnd (a i) (b i)) ∧
      goes (.vfrsub k alt vm vd s1 vs2) (fun i => f.sub c.rnd (b i) (a i)) ∧
      goes (.vfmul k alt vm vd s1 vs2) (fun i => f.mul c.rnd (a i) (b i)) ∧
      goes (.vfdiv k alt vm vd s1 vs2) (fun i => f.div c.rnd (a i) (b i)) ∧
      goes (.vfrdiv k alt vm vd s1 vs2) (fun i => f.div c.rnd (b i) (a i)) ∧
      goes (.vfmin k alt vm vd s1 vs2) (fun i => f.minmax false (a i) (b i)) ∧
      goes (.vfmax k alt vm vd s1 vs2) (fun i => f.minmax true (a i) (b i)) ∧
      goes (.vfsgnj k alt vm vd s1 vs2) (fun i => (f.sgnj 0 (a i) (b i), 0)) ∧
      goes (.vfsgnjN k alt vm vd s1 vs2) (fun i => (f.sgnj 1 (a i) (b i), 0)) ∧
      goes (.vfsgnjX k alt vm vd s1 vs2) (fun i => (f.sgnj 2 (a i) (b i), 0))) ∧
    (LaneReady s sl c c.active (some d) (vvSrcs k s1 vs2 VCtx.sew VCtx.sew c ++ [d]) →
      goes (.vfmacc k alt vm vd s1 vs2) (fun i => f.fma c.rnd false false (b i) (a i) (o i)) ∧
      goes (.vfnmacc k alt vm vd s1 vs2) (fun i => f.fma c.rnd true true (b i) (a i) (o i)) ∧
      goes (.vfmsac k alt vm vd s1 vs2) (fun i => f.fma c.rnd false true (b i) (a i) (o i)) ∧
      goes (.vfnmsac k alt vm vd s1 vs2) (fun i => f.fma c.rnd true false (b i) (a i) (o i))) ∧
    (LaneReady s sl c1 c1.active (some d) [c1.grp vs2 w] →
      goes1 (.vfsqrt alt vm vd vs2) (fun i => f.sqrt c.rnd (a i)) ∧ goes1 (.vfrece alt vm vd vs2) (fun i => f.recip (a i)) ∧
      goes1 (.vfrsqe alt vm vd vs2) (fun i => f.rsqrt (a i)) ∧ goes1 (.vfexp2 alt vm vd vs2) (fun i => f.exp2 c.rnd (a i)) ∧
      goes1 (.vflog2 alt vm vd vs2) (fun i => f.log2 c.rnd (a i)) ∧
      goes1 (.vfclass alt vm vd vs2) (fun i => (f.classify (a i), 0)))

/-- VFCMP writes a mask bit per active element (R121, R306); VFCVT converts between the formats and widths of its code (R308). -/
def VectorFloatCompareConvert : Prop :=
  ∀ (s : State) (sl : SlotId) (q : FCond) (k : VKind) (alt vm : Bool) (vd s1 vs2 : Reg) (code : BitVec 3) (salt dalt : Bool),
    (let c := s.vctx sl vm (kindReg k s1)
     let f := vfmt c.sew alt
     c.sew ≠ 8 → (alt = true → c.sew = 16) →
     LaneReady s sl c c.active (some (maskOp vd)) (vvSrcs k s1 vs2 VCtx.sew VCtx.sew c) →
     GivesV (.vfcmp q k alt vm vd s1 vs2) s c (maskOp vd) (c.active.map fun i =>
       (i, if (f.cmp q (c.elem vs2 c.sew i) (c.s1 k s1 c.sew false f i)).1 then 1 else 0,
         (f.cmp q (c.elem vs2 c.sew i) (c.s1 k s1 c.sew false f i)).2))) ∧
    (let c := s.vctx sl vm 0
     let n := code.toNat
     let d := c.grp vd (if n = 6 then 2 * c.sew else if n = 7 then (if c.sew = 8 then 8 else c.sew / 2) else c.sew)
     let a (i : Nat) : Nat := c.elem vs2 c.sew i
     vfcvtBad n salt dalt c = false → LaneReady s sl c c.active (some d) [c.grp vs2 c.sew] →
     GivesV (.vfcvt code salt dalt vm vd vs2) s c d (c.active.map fun i => (i,
       match n with
       | 0 => (vfmt c.sew dalt).ofInt c.rnd (sint (a i) c.sew)
       | 1 => (vfmt c.sew dalt).ofInt c.rnd (a i)
       | 2 => toIntV ((vfmt c.sew salt).decode (a i)) c.rnd true c.sew
       | 3 => toIntV ((vfmt c.sew salt).decode (a i)) c.rnd false c.sew
       | 4 => toIntV ((vfmt c.sew salt).decode (a i)) .rtz true c.sew
       | 5 => toIntV ((vfmt c.sew salt).decode (a i)) .rtz false c.sew
       | _ => Fl.convert (vfmt c.sew salt) (vfmt d.eew dalt) c.rnd (a i))))

/-- The log format of major 0x1F (R309 - R312), at SEW 8 but for conversions. -/
def VectorLogFormatResults : Prop :=
  ∀ (s : State) (sl : SlotId) (k : VKind) (fromLg alt vm : Bool) (vd s1 vs2 : Reg),
    (let c := s.vctx sl vm 0
     c.sew = 8 → LaneReady s sl c c.active (some (c.grp vd 8)) (vvSrcs .vv s1 vs2 VCtx.sew VCtx.sew c) →
     GivesV (.vlmul vm vd s1 vs2) s c (c.grp vd 8)
       (c.active.map fun i => (i, lgMul (c.elem vs2 8 i) (c.elem s1 8 i)))) ∧
    (let c := s.vctx sl vm (kindReg k s1)
     c.sew = 8 → LaneReady s sl c c.active (some (c.grp vd 8)) (vvSrcs k s1 vs2 VCtx.sew VCtx.sew c) →
     GivesV (.vlscale k vm vd s1 vs2) s c (c.grp vd 8)
       (c.active.map fun i => (i, lgScale (c.elem vs2 8 i) (sint (c.s1 k s1 8 false .f64 i) 8)))) ∧
    (let c := s.vctx sl vm 0
     c.sew ≠ 8 → (alt = true → c.sew = 16) →
     LaneReady s sl c c.active (some (c.grp vd (if fromLg then c.sew else 8))) [c.grp vs2 (if fromLg then 8 else c.sew)] →
     GivesV (.vlcvt fromLg alt vm vd vs2) s c (c.grp vd (if fromLg then c.sew else 8)) (c.active.map fun i => (i,
       if fromLg then (vfmt c.sew alt).deliver .rne (lgDecode (c.elem vs2 8 i)) else lgOf ((vfmt c.sew alt).decode (c.elem vs2 c.sew i))))) ∧
    (let c := s.vctx sl vm 0
     c.sew = 8 → LaneReady s sl c c.active (some (oneOp vd 32)) [c.grp vs2 8, c.grp s1 8, oneOp vd 32] →
     GivesV (.vldot vm vd s1 vs2) s c (oneOp vd 32)
       (((List.range ((c.vl + 31) / 32)).filter fun j => c.active.any fun i => i / 32 == j).map fun j => (j,
         lgDot (c.elem vd 32 j) ((c.active.filter fun i => i / 32 == j).map fun i => lgProduct (c.elem vs2 8 i) (c.elem s1 8 i)))))

/-- Integer reductions (R313): element 0 of vs1 combined with the active elements of vs2 in ascending order goes to element 0
of vd, and no other element of vd changes. -/
def VectorIntegerReductions : Prop :=
  ∀ (s : State) (sl : SlotId) (vm : Bool) (vd vs1 vs2 : Reg),
    let c := s.vctx sl vm 0
    let w := c.sew
    let start := c.elem vs1 w 0
    LaneReady s sl c c.active (some (oneOp vd w)) [c.grp vs2 w, oneOp vs1 w] →
    let goes (x : Instr) (f : Nat → Nat → Nat) : Prop :=
      GivesV x s c (oneOp vd w) [(0, c.active.foldl (fun acc i => f acc (c.elem vs2 w i)) start, 0)]
    goes (.vredsum vm vd vs1 vs2) (fun a b => (a + b) % 2 ^ w) ∧
    goes (.vredmin vm vd vs1 vs2) (fun a b => if sint a w ≤ sint b w then a else b) ∧
    goes (.vredmax vm vd vs1 vs2) (fun a b => if sint a w ≤ sint b w then b else a) ∧
    goes (.vredminn vm vd vs1 vs2) Nat.min ∧ goes (.vredmaxn vm vd vs1 vs2) Nat.max ∧
    goes (.vredand vm vd vs1 vs2) (· &&& ·) ∧ goes (.vredor vm vd vs1 vs2) (· ||| ·) ∧ goes (.vredxor vm vd vs1 vs2) (· ^^^ ·)

/-- Floating reductions (R128 - R130): VFREDOSUM adds the active elements one at a time in ascending order from element 0 of
vs1; the others combine the elements in a tree over VLMAX positions, with -0 or the canonical NaN where no element is
active, and then element 0 of vs1 with its result. -/
def VectorFloatReductions : Prop :=
  ∀ (s : State) (sl : SlotId) (alt vm : Bool) (vd vs1 vs2 : Reg),
    let c := s.vctx sl vm 0
    let w := c.sew
    let f := vfmt w alt
    w ≠ 8 → (alt = true → w = 16) → c.frm ≤ 4 →
    LaneReady s sl c c.active (some (oneOp vd w)) [c.grp vs2 w, oneOp vs1 w] →
    let start := c.elem vs1 w 0
    let tree (pad : Nat) (g : Nat → Nat → Nat × Nat) : Nat × Nat :=
      let n := ceilLog2 c.vlmax
      let t := treeOf g n ((List.range (2 ^ n)).map fun j => if c.active.contains j then c.elem vs2 w j else pad)
      ((g start t.1).1, orFlags t.2 (g start t.1).2)
    GivesV (.vfredosum alt vm vd vs1 vs2) s c (oneOp vd w) [(0, c.active.foldl (fun x i =>
      let r := f.add c.rnd x.1 (c.elem vs2 w i)
      (r.1, orFlags x.2 r.2)) (start, 0))] ∧
    GivesV (.vfredsum alt vm vd vs1 vs2) s c (oneOp vd w) [(0, tree (f.zero true) (f.add c.rnd))] ∧
    GivesV (.vfredmin alt vm vd vs1 vs2) s c (oneOp vd w) [(0, tree f.canonNaN (f.minmax false))] ∧
    GivesV (.vfredmax alt vm vd vs1 vs2) s c (oneOp vd w) [(0, tree f.canonNaN (f.minmax true))]

/-- Permutations (R314): slides by the whole scalar register or an unsigned immediate, gathers by element index, rotation
within vl, and compression of the elements whose mask bit is set to the front. -/
def Obligations.VectorPermutations : Prop :=
  ∀ (s : State) (sl : SlotId) (k : VKind) (vm : Bool) (vd s1 vs2 : Reg),
    (let c := s.vctx sl vm (kindReg k s1)
     let w := c.sew
     let d := c.grp vd w
     let a (i : Nat) : Nat := c.elem vs2 w i
     let off := if k == .vx then c.xs.toNat else s1.toNat
     let x := c.s1 k s1 w false (vfmt w false) 0
     let j (i : Nat) : Nat := c.s1 k s1 w true .f64 i
     let goes (y : Instr) (f : Nat → Nat) : Prop := GivesV y s c d (c.active.map fun i => (i, f i, 0))
     LaneReady s sl c c.active (some d) (vvSrcs k s1 vs2 VCtx.sew VCtx.sew c) →
     GivesV (.vslideup k vm vd s1 vs2) s c d ((c.active.filter fun i => decide (off ≤ i)).map fun i => (i, a (i - off), 0)) ∧
     goes (.vslidedn k vm vd s1 vs2) (fun i => if i + off < c.vlmax then a (i + off) else 0) ∧
     goes (.vgather k vm vd s1 vs2) (fun i => if j i < c.vlmax then a (j i) else 0) ∧
     goes (.vrotl k vm vd s1 vs2) (fun i => a ((i + off) % c.vl)) ∧
     (¬(k = .vf ∧ w = 8) → goes (.vslide1up k vm vd s1 vs2) (fun i => if i = 0 then x else a (i - 1)) ∧
       goes (.vslide1dn k vm vd s1 vs2) (fun i => if i + 1 = c.vl then x else a (i + 1)))) ∧
    (let c := s.vctx sl true 0
     let w := c.sew
     LaneReady s sl c c.active (some (c.grp vd w)) [c.grp vs2 w, maskOp s1] → c.vstart = 0 →
     GivesV (.vcompress vd s1 vs2) s c (c.grp vd w)
       (((c.range.filter fun i => c.bit s1 i).zipIdx).map fun e => (e.2, c.elem vs2 w e.1, 0)))

/-- Mask instructions (R316): logic on bits, VIOTA counts the set bits before each element, VID numbers the elements. VMVSX
writes element 0 alone (R315). -/
def VectorMaskResults : Prop :=
  ∀ (s : State) (sl : SlotId) (vm : Bool) (vd vs1 vs2 ra : Reg),
    (let c := s.vctx sl true 0
     let goes (x : Instr) (f : Bool → Bool → Bool) : Prop :=
       GivesV x s c (maskOp vd) (c.active.map fun i => (i, if f (c.bit vs2 i) (c.bit vs1 i) then 1 else 0, 0))
     LaneReady s sl c c.active (some (maskOp vd)) [maskOp vs2, maskOp vs1] →
     goes (.vmand vd vs1 vs2) (fun a b => a && b) ∧ goes (.vmor vd vs1 vs2) (fun a b => a || b) ∧
     goes (.vmxor vd vs1 vs2) (fun a b => xor a b) ∧ goes (.vmandn vd vs1 vs2) (fun a b => a && !b) ∧
     goes (.vmnand vd vs1 vs2) (fun a b => !(a && b))) ∧
    (let c := s.vctx sl vm 0
     (LaneReady s sl c c.active (some (c.grp vd c.sew)) [maskOp vs2] →
       GivesV (.viota vm vd vs2) s c (c.grp vd c.sew)
         (c.active.map fun i => (i, (c.active.filter fun j => decide (j < i) && c.bit vs2 j).length % 2 ^ c.sew, 0))) ∧
     (LaneReady s sl c c.active (some (c.grp vd c.sew)) [] →
       GivesV (.vid vm vd) s c (c.grp vd c.sew) (c.active.map fun i => (i, i % 2 ^ c.sew, 0)))) ∧
    (let c := s.vctx sl vm ra
     0 ∈ c.active → LaneReady s sl c [0] (some (c.grp vd c.sew)) [] →
     GivesV (.vmvsx vm vd ra) s c (c.grp vd c.sew) [(0, (s.getX ra).toNat % 2 ^ c.sew, 0)])

/-- The instructions that move a vector result to a scalar register (R315, R316, R40): rd gets element 0 sign-extended, the
count of set bits, or the index of the first one, -1 when there is none; each counts one resynchronisation, and with no
active element moves nothing and still counts. -/
def VectorToScalarResults : Prop :=
  ∀ (s : State) (sl : SlotId) (vm : Bool) (rd vs2 : Reg),
    let c := s.vctx sl vm 0
    let moves (x : Instr) (v : Word) : Prop := exec x s = .next ((((s.setForced rd v).endVector).resync).retire (s.pc + 4))
    (0 ∈ c.active → LaneReady s sl c [0] none [c.grp vs2 c.sew] →
      moves (.vmvxs vm rd vs2) (BitVec.ofInt 64 (sint (c.elem vs2 c.sew 0) c.sew))) ∧
    (LaneReady s sl c c.active none [maskOp vs2] →
      moves (.vmpop vm rd vs2) (BitVec.ofNat 64 (c.active.countP fun i => c.bit vs2 i)) ∧
      moves (.vmfirst vm rd vs2) (match c.active.find? fun i => c.bit vs2 i with | some i => BitVec.ofNat 64 i | none => -1)) ∧
    (s.power = .on → s.cur = .block sl → (s.slot sl).threads = none → c.active = [] →
      exec (.vmpop vm rd vs2) s = .next ((s.endVector.resync).retire (s.pc + 4)) ∧
      exec (.vmfirst vm rd vs2) s = .next ((s.endVector.resync).retire (s.pc + 4)) ∧
      exec (.vmvxs vm rd vs2) s = .next ((s.endVector.resync).retire (s.pc + 4)))

/-- A vector word with no active element retires as a no-operation, whatever its registers and encodable fields (R95): only
ctl.vstart, the PC and the count change. -/
def Obligations.InactiveVectorWordsAreNoOperations : Prop :=
  ∀ (s : State) (sl : SlotId) (k : VKind) (alt vm : Bool) (vd s1 vs2 : Reg),
    s.power = .on → s.cur = .block sl → (s.slot sl).threads = none → (s.vctx sl vm 0).active = [] →
    ∀ i ∈ [Instr.vadd k vm vd s1 vs2, .vdiv k vm vd s1 vs2, .vwmul k vm vd s1 vs2, .vnsra k vm vd s1 vs2, .vmacc k vm vd s1 vs2,
        .vfadd k alt vm vd s1 vs2, .vfsqrt alt vm vd vs2, .vfmacc k alt vm vd s1 vs2, .vfcvt 7 alt alt vm vd vs2, .vlmul vm vd s1 vs2,
        .vredsum vm vd s1 vs2, .vfredosum alt vm vd s1 vs2, .vslideup k vm vd s1 vs2, .vgather k vm vd s1 vs2, .viota vm vd vs2,
        .vid vm vd, .vle .e64 .normal vm vd s1, .vse .e8 .bypass vm vd s1],
      exec i s = .next (s.endVector.retire (s.pc + 4))
/-! ### Vector configuration, chains, streams -/

/-- VSETVLI and VSETVL (R292, R296): the grant grows towards what the vector length wants, lowest free lane group first, and
never shrinks; ctl.vl, which also goes to rd, is the lesser of AVL and the VLMAX of the grant. A free group that is lent is waited
for; the slot's own lent groups are taken back (R294). AVL is rs1, or 2^64 - 1 under `rd, x0`, or the old ctl.vl under `x0, x0`.
A reserved vtype raises ILLEGAL. -/
def Obligations.VectorConfigurationResults : Prop :=
  ∀ (s : State) (sl : SlotId) (rd ra rb : Reg) (v : BitVec 6),
    s.power = .on → s.cur = .block sl → (s.slot sl).threads = none →
    let avl := if ra ≠ 0 then (s.getX ra).toNat else if rd ≠ 0 then 2 ^ 64 - 1 else s.hart.vl.toNat
    let want := wantGrant (s.slot sl).lrec avl v
    let u := (s.reclaim sl).takeGroups sl want 16
    let vl := BitVec.ofNat 64 (Min.min avl (vlmaxOf (u.grant sl) v))
    let t := ((u.modHart fun h => { h with vtype := v, vl := vl, vstart := 0, vlForced := false }).setX rd vl).retire (s.pc + 4)
    (u.mem = s.mem ∧ u.slots = s.slots ∧ s.grant sl ≤ u.grant sl ∧
      (u.grant sl = Max.max (s.grant sl) want ∨ u.freeGroup (slotCore sl) = none) ∧ (s.ownLent sl = true → u.ownLent sl = false)) ∧
    (vtypeOk v = true →
      s.takesLent u (slotCore sl) = false →
      exec (.vsetvli rd ra v) s = .next t ∧ (s.getX rb = v.zeroExtend 64 → exec (.vsetvl rd ra rb) s = .next t)) ∧
    (vtypeOk v = false → exec (.vsetvli rd ra v) s = .next (s.takeTrap (illegalTrap s.ir))) ∧
    (64 ≤ (s.getX rb).toNat → exec (.vsetvl rd ra rb) s = .next (s.takeTrap (illegalTrap s.ir)))

/-- MSETMVL and MZERO (R297, R376, R382). MSETMVL sets ctl.mvl to the lesser of rs1 and 128, writes it to rd, resets the held
state, and leaves vl, vtype and the grant. MZERO, active while mvl > 0, writes +0 to all 128 x 128 elements of its
accumulator whatever mvl is, sets its stream row to 0, and leaves every byte outside it. -/
def Obligations.MatrixLengthAndZero : Prop :=
  ∀ (s : State) (sl : SlotId) (rd ra : Reg) (ac : Acc), s.power = .on → s.cur = .block sl → (s.slot sl).threads = none →
    (let n := BitVec.ofNat 64 (Min.min (s.getX ra).toNat 128)
     ∃ t : State, exec (.msetmvl rd ra) s = .next t ∧ t.hart.mvl = n.truncate 8 ∧ (rd ≠ 0 → t.getX rd = n) ∧
      (∀ r, r ≠ rd → t.getX r = s.getX r) ∧ t.hart.vl = s.hart.vl ∧ t.hart.vtype = s.hart.vtype ∧ t.grant sl = s.grant sl ∧
      (t.slot sl).mat = {} ∧ t.mem = s.mem ∧ t.pc = s.pc + 4) ∧
    (0 < s.hart.mvl.toNat → ac.toNat < (s.slot sl).accCount → (s.slot sl).accBusy ac = false → (s.slot sl).flying = false →
      ∃ t : State, exec (.mzero ac) s = .next t ∧ (∀ row < 128, ∀ col < 128, t.accGet sl ac row col = 0) ∧
        (∀ a, a < s.accAddr sl ac 0 0 ∨ s.accAddr sl ac 0 0 + 65536 ≤ a → Memory.get t.mem a = Memory.get s.mem a) ∧
        (t.slot sl).mat = { (s.slot sl).mat with sr := (s.slot sl).mat.sr.set ac.toFin 0 } ∧ t.pc = s.pc + 4 ∧
        (∀ r, t.getX r = s.getX r) ∧ (t.slot sl).vregs = (s.slot sl).vregs)

/-- The chain instructions (R318 - R320). VXQW fills the queue and the head bits, an inactive element passing its left
neighbour on; VXQ gives each active element its own value at a head and its left neighbour's elsewhere; VSCAN combines from
the carried accumulator, restarted at heads, and carries the last value on. -/
def ChainResults : Prop :=
  ∀ (s : State) (sl : SlotId) (op : ScanOp) (vm : Bool) (vd vs1 vs2 : Reg),
    let c := s.vctx sl vm 0
    let w := c.sew
    let ch := (s.slot sl).chain
    c.vl * w ≤ 32768 →
    (LaneReady s sl c c.active none [c.grp vs2 w, maskOp vs1] →
      let cin := if c.vstart = 0 then ch.c else ch.cin
      ∃ q : Chain, exec (.vxqw vm vs1 vs2) s = .next (((s.modSlot sl fun x => { x with chain := q }).endVector).retire (s.pc + 4)) ∧
        q.cin = cin ∧ q.s = ch.s ∧ 8 * 2 ^ q.qsew.toNat = w ∧ q.c = BitVec.ofNat 64 (q.at_ w (c.vl - 1)) ∧
        (∀ i ∈ c.range, q.h.getLsbD i = c.bit vs1 i ∧ q.at_ w i =
          if i ∈ c.active then c.elem vs2 w i else if i = 0 then cin.toNat % 2 ^ w else q.at_ w (i - 1)) ∧
        (∀ i, i ∉ c.range → (i + 1) * w ≤ 32768 → q.h.getLsbD i = ch.h.getLsbD i ∧ q.at_ w i = ch.at_ w i)) ∧
    (LaneReady s sl c c.active (some (c.grp vd w)) [c.grp vs2 w] →
      (w = 8 * 2 ^ ch.qsew.toNat → GivesV (.vxq vm vd vs2) s c (c.grp vd w) (c.active.map fun i =>
        (i, if ch.h.getLsbD i then c.elem vs2 w i else if i = 0 then ch.cin.toNat % 2 ^ w else ch.at_ w (i - 1), 0))) ∧
      (w ≠ 8 * 2 ^ ch.qsew.toNat → exec (.vxq vm vd vs2) s = .next (s.takeTrap (illegalTrap s.ir)))) ∧
    (LaneReady s sl c c.active (some (c.grp vd w)) [c.grp vs2 w, maskOp vs1] → (op = .fadd → w ≠ 8 ∧ c.frm ≤ 4) →
      let run := c.range.foldl (fun (x : Nat × List VElem) i =>
        let a := if c.bit vs1 i then (match op with | .add => 0 | .fadd | .max => 2 ^ (w - 1) | .min => 2 ^ (w - 1) - 1) else x.1
        let b := c.elem vs2 w i
        let r : Nat × Nat := match op with
          | .add => ((a + b) % 2 ^ w, 0)
          | .fadd => (vfmt w false).add c.rnd a b
          | .max => (if sint a w < sint b w then b else a, 0)
          | .min => (if sint b w < sint a w then b else a, 0)
        if i ∈ c.active then (r.1, x.2 ++ [(i, r.1, r.2)]) else (a, x.2)) (ch.s.toNat % 2 ^ w, [])
      (∀ e ∈ run.2, e.2.2 &&& fcsrFte s.hart.fcsr = 0) →
      exec (.vscan op vm vd vs1 vs2) s = .next ((((((s.putElems c (c.grp vd w) run.2).accrueV
          (run.2.foldr (fun e f => e.2.2 ||| f) 0)).modSlot sl fun x =>
        { x with chain := { x.chain with s := BitVec.ofNat 64 run.1 } }).endVector)).retire (s.pc + 4)))

/-- VSTREAM binds a stream register to a queue as the 32 bytes of its descriptor say, from the first element on; VUNSTREAM
ends it, and one of an unbound register does nothing (R333, R334). A reserved value in the descriptor raises ILLEGAL. -/
def StreamBinding : Prop :=
  ∀ (s s1 : State) (sl : SlotId) (vd ra : Reg) (k : BitVec 3) (ps : List Part),
    s.power = .on → s.cur = .block sl → (s.slot sl).threads = none →
    let a := s.getX ra
    let bs := partBytes s.mem ps
    let f (o n : Nat) : Nat := natOfBytes ((bs.drop o).take n)
    (a.toNat % 32 = 0 → LocatedAt s vloadUse a 32 false ps s1 →
      (streamDescBad bs = false → vd ≠ 0 → vd.toNat < s.nvreg → (s.slot sl).streamsHere = [] →
        (s.slot sl).streams[k.toNat]!.bound = false →
        ∃ t : State, exec (.vstream vd ra k) s = .next t ∧ t.mem = s.mem ∧ t.pc = s.pc + 4 ∧
          (let q := (t.slot sl).streams[k.toNat]!
           q.bound = true ∧ q.reg = vd ∧ q.base = BitVec.ofNat 64 (f 0 8) ∧ q.estride = BitVec.ofNat 64 (f 8 8) ∧
           q.count = BitVec.ofNat 64 (f 16 8) ∧ q.eew = BitVec.ofNat 2 (f 24 1) ∧ q.desc = a ∧ q.push = (f 0 8 == 0) ∧
           q.pos = 0 ∧ q.ended = false) ∧ (t.slot sl).vregs = (s.slot sl).vregs) ∧
      (streamDescBad bs = true → ∃ t : State, exec (.vstream vd ra k) s = .next (t.takeTrap (illegalTrap s.ir)) ∧ t.slots = s.slots)) ∧
    (a.toNat % 32 ≠ 0 → vd ≠ 0 → vd.toNat < s.nvreg → (s.slot sl).streamsHere = [] →
      exec (.vstream vd ra k) s = .next (s.takeTrap { cause := .align, va := a, vaValid := true, tval := a })) ∧
    ((s.slot sl).streams[k.toNat]!.bound = false → exec (.vunstream k) s = .next (s.endVector.retire (s.pc + 4))) ∧
    ((s.slot sl).streams[k.toNat]!.bound = true → s.refillBusy sl k = false →
      ∃ t : State, exec (.vunstream k) s = .next t ∧ t.mem = s.mem ∧ t.pc = s.pc + 4 ∧
        (t.slot sl).streams[k.toNat]!.bound = false ∧ (t.slot sl).vregs = (s.slot sl).vregs)

/-! ### Vector memory -/

/-- The state after the parts of an element are read at their ordering points. -/
def afterRead (hint : Hint) (s : State) : List Part → State
  | [] => s
  | p :: ps => afterRead hint ((s.didRead (s.src p.loc.pa) p.loc.home p.loc.pa hint).snoopDone p.loc.pa) ps

/-- Each element of a load is located, waits for nothing and is read, in order; `draw` is what is done before the read. -/
def ElementsAt (hint : Hint) (u : Use) (eb : Nat) (draw : State → State) : State → List (Nat × Word) → List (List Part) → Prop
  | _, [], pss => pss = []
  | s, e :: es, pss => ∃ ps rest s1, pss = ps :: rest ∧ LocatedAt s u e.2 eb false ps s1 ∧
      ElementsAt hint u eb draw (afterRead hint (draw s1) ps) es rest

/-- The elements that a load reads from memory: index and value, least significant byte first. -/
def readElems (m : Memory) (act : List Nat) (pss : List (List Part)) : List VElem :=
  (act.zip pss).map fun e => (e.1, natOfBytes (partBytes m e.2), 0)

/-- Vector loads (R322, R323, R326, R327): element i comes from base + i x size, base + i x stride, or base + index i, and
goes to element i of vd; masked elements and the rest of vd stay, memory stays. VLEFF also marks ctl.vl as set by it; VLSC
draws one ticket per element. -/
def VectorLoadsReadMemory : Prop :=
  ∀ (s : State) (sl : SlotId) (eew : Eew) (hint : Hint) (vm : Bool) (vd ra rb vs2 : Reg) (pss : List (List Part)),
    let c := s.vctx sl vm ra
    let w := 8 * 2 ^ eew.code
    let eb := 2 ^ eew.code
    let unit (i : Nat) : Word := c.xs + BitVec.ofNat 64 (i * eb)
    let stride (i : Nat) : Word := c.xs + BitVec.ofNat 64 i * s.getX rb
    let index (i : Nat) : Word := c.xs + BitVec.ofNat 64 (c.elem vs2 w i)
    let at_ (f : Nat → Word) : List (Nat × Word) := c.active.map fun i => (i, f i)
    let reads (x : Instr) (d : VOpnd) (extra : State → State) : Prop :=
      ∃ u : State, exec x s = .next (((extra (u.putElems c d (readElems s.mem c.active pss))).endVector).retire (s.pc + 4)) ∧
        u.mem = s.mem ∧ u.slots = s.slots ∧ u.cur = s.cur
    let d := c.grp vd w
    (LaneReady s sl c c.active (some d) [] →
      (ElementsAt hint vloadUse eb id s (at_ unit) pss →
        reads (.vle eew hint vm vd ra) d id ∧
        reads (.vleff eew hint vm vd ra) d (fun u => u.modHart fun h => { h with vlForced := true })) ∧
      (ElementsAt hint vloadUse eb id s (at_ stride) pss → reads (.vlse eew hint vm vd ra rb) d id) ∧
      (ElementsAt hint (scUse .load) eb (fun u => { u with ticket := u.ticket + 1 }) s (at_ stride) pss →
        s.releaseReady = true → (∀ i ∈ c.active, (stride i).toNat % 32 + eb ≤ 32) →
        reads (.vlsc eew hint vm vd ra rb) d id ∧
        ∀ t, exec (.vlsc eew hint vm vd ra rb) s = .next t → t.ticket = s.ticket + BitVec.ofNat 64 c.active.length)) ∧
    (let d := c.grp vd c.sew
     let eb := c.sew / 8
     LaneReady s sl c c.active (some d) [c.grp vs2 w] →
     ElementsAt hint vloadUse eb id s (at_ index) pss → reads (.vlxe eew hint vm vd ra vs2) d id)

/-- The elements of an access are located one after another. -/
def LocatedAll (u : Use) (eb : Nat) : State → List (Nat × Word) → List (List Part) → State → Prop
  | s, [], pss, t => pss = [] ∧ t = s
  | s, e :: es, pss, t => ∃ ps rest s1, pss = ps :: rest ∧ locate u (cutGranules 3 e.2 eb) s = .ok ps s1 ∧ Same s s1 ∧
      LocatedAll u eb s1 es rest t

/-- Every element of a store, atomic or wait is located with nothing to wait for, and where it releases no older access is
outstanding then (R211). -/
def AllAt (s : State) (u : Use) (eb : Nat) (rel : Prop) (act : List Nat) (f : Nat → Word) (pss : List (List Part)) : Prop :=
  ∃ s1, LocatedAll u eb s (act.map fun i => (i, f i)) pss s1 ∧ (rel → s1.releaseReady = true) ∧ ∀ ps ∈ pss, ∀ p ∈ ps,
    Settled s1 p ∧ (u.isStore = false → pteCmp p.loc.pte = false)

/-- Vector stores (R322, R323, R327): once every element is checked, each active element's bytes stand at its address, in
ascending index; every other byte of memory and every register stay. VSSC draws one ticket per element. -/
def VectorStoresWriteMemory : Prop :=
  ∀ (s : State) (sl : SlotId) (eew : Eew) (hint : Hint) (vm : Bool) (vs3 ra rb vs2 : Reg) (pss : List (List Part)),
    let c := s.vctx sl vm ra
    let w := 8 * 2 ^ eew.code
    let eb := 2 ^ eew.code
    let unit (i : Nat) : Word := c.xs + BitVec.ofNat 64 (i * eb)
    let stride (i : Nat) : Word := c.xs + BitVec.ofNat 64 i * s.getX rb
    let index (i : Nat) : Word := c.xs + BitVec.ofNat 64 (c.elem vs2 w i)
    let stores (x : Instr) (w : Nat) (tickets : Nat) : Prop :=
      ∃ t : State, exec x s = .next t ∧
        t.mem = (c.active.zip pss).foldl (fun m e => storedTo m e.2 (bytesOfNat (w / 8) (c.elem vs3 w e.1))) s.mem ∧
        (∀ a, (∀ ps ∈ pss, ∀ p ∈ ps, a < p.loc.pa ∨ p.loc.pa + p.len ≤ a) → Memory.get t.mem a = Memory.get s.mem a) ∧
        (t.slot sl).vregs = (s.slot sl).vregs ∧ (∀ r, t.getX r = s.getX r) ∧ t.hart.vl = s.hart.vl ∧ t.hart.vstart = 0 ∧
        t.pc = s.pc + 4 ∧ t.ticket = s.ticket + BitVec.ofNat 64 tickets
    (LaneReady s sl c c.active none [c.grp vs3 w] →
      (AllAt s vstoreUse eb False c.active unit pss → stores (.vse eew hint vm vs3 ra) w 0) ∧
      (AllAt s vstoreUse eb False c.active stride pss → stores (.vsse eew hint vm vs3 ra rb) w 0) ∧
      (AllAt s (scUse .store) eb True c.active stride pss →
        (∀ i ∈ c.active, (stride i).toNat % 32 + eb ≤ 32) → stores (.vssc eew hint vm vs3 ra rb) w c.active.length)) ∧
    (LaneReady s sl c c.active none [c.grp vs3 c.sew, c.grp vs2 w] →
      AllAt s vstoreUse (c.sew / 8) False c.active index pss → stores (.vsxe eew hint vm vs3 ra vs2) c.sew 0)

/-- VAMO, VRRS and VWAIT (R329, R330). VAMO and VRRS combine each active element of vd with memory at base + index, in
ascending index; VAMO gives vd the old values, VRRS writes no register. A VWAIT whose active flags all meet their condition
clears their bits of v0 and goes on; without a time-out an unmet flag puts the block to sleep at the VWAIT. A time-out counts
from the issue. -/
def Obligations.VectorAtomicsAndWaits : Prop :=
  ∀ (s : State) (sl : SlotId) (op : AmoOp) (rop : RrsOp) (cond : WCond) (order : Order) (width : AWidth) (vm : Bool)
    (vd ra vs2 : Reg) (pss : List (List Part)),
    let c := s.vctx sl vm ra
    let n := match width with | .w32 => 4 | .w64 => 8
    let w := 8 * n
    let index (i : Nat) : Word := c.xs + BitVec.ofNat 64 (c.elem vs2 w i)
    let flag (i : Nat) : Word := BitVec.ofNat 64 (c.elem vs2 64 i)
    let pa (ps : List Part) : Nat := (ps.map (·.loc.pa)).headD 0
    let run (f : Nat → Nat → Nat) : Memory × List VElem := (c.active.zip pss).foldl (fun x e =>
      let old := Memory.nat x.1 (pa e.2) n
      (Memory.putAll x.1 (pa e.2) (bytesOfNat n (f old (c.elem vd w e.1))), x.2 ++ [(e.1, old, 0)])) (s.mem, [])
    let rel : Prop := order = .rel ∨ order = .ar
    (AllAt s (scUse .store) n rel c.active index pss →
      (∀ i ∈ c.active, (index i).toNat % 32 + n ≤ 32) →
      (LaneReady s sl c c.active (some (c.grp vd w)) [c.grp vs2 w, c.grp vd w] →
        ∃ u : State, exec (.vamo op order width vm vd ra vs2) s =
            .next (((u.putElems c (c.grp vd w) (run (amoNew op n)).2).endVector).retire (s.pc + 4)) ∧
          u.mem = (run (amoNew op n)).1 ∧ (u.slot sl).vregs = (s.slot sl).vregs ∧ (∀ r, u.getX r = s.getX r)) ∧
      (LaneReady s sl c c.active none [c.grp vd w, c.grp vs2 w] →
        ∃ t : State, exec (.vrrs rop order width vm vd ra vs2) s = .next t ∧ t.mem = (run (rrsNew rop n)).1 ∧
          (t.slot sl).vregs = (s.slot sl).vregs ∧ (∀ r, t.getX r = s.getX r) ∧ t.pc = s.pc + 4)) ∧
    (LaneReady s sl c c.active none [c.grp vd w, c.grp vs2 64] →
      (c.grp vd w).overlaps (maskOp 0) = false → (c.grp vs2 64).overlaps (maskOp 0) = false →
      (s.slot sl).met = false → (s.slot sl).wait = .none →
      let at_ := s.modSlot sl fun x => { x with wait := .vwait (if c.xs = 0 then none else some (s.clock + c.xs.toNat)) [] }
      AllAt at_ { acc := .load, vector := true } n rel c.active flag pss → (∀ i ∈ c.active, (flag i).toNat % 32 + n ≤ 32) →
      let met (e : Nat × List Part) : Prop :=
        let v := Memory.nat s.mem (pa e.2) n
        let x := c.elem vd w e.1
        match cond with | .eq => v = x | .ne => v ≠ x | .gen => x ≤ v
      ((∀ e ∈ c.active.zip pss, met e) →
        ∃ u : State, exec (.vwait cond order width vm vd ra vs2) s =
            .next ((((u.putElems c (maskOp 0) (c.active.map fun i => (i, 0, 0))).endWait sl).endVector).retire (s.pc + 4)) ∧
          u.mem = s.mem ∧ u.slots = at_.slots) ∧
      ((∃ e ∈ c.active.zip pss, ¬met e) → c.xs = 0 →
        ∃ t : State, exec (.vwait cond order width vm vd ra vs2) s = .next t ∧ (t.slot sl).run = .asleep ∧ t.pc = s.pc ∧
          (t.slot sl).vregs = (s.slot sl).vregs))

/-! ### Lane threads -/

/-- Lane threads (R338 - R341). VSPLIT starts a thread at the next word in every selected element, in element order, and goes
past the region when none is selected; LBR branches the thread within its region; VJOIN ends the thread, and the last one
re-forms the vector after the region. That vl <= vstart makes VSPLIT a no-operation to the next word is R95's rule as the model
takes it (its choice, log 21): R339 read alone would go past the region. -/
def Obligations.LaneThreadsSplitAndJoin : Prop :=
  ∀ (s : State) (sl : SlotId) (q : LCond) (va ra rb : Reg) (off : BitVec 13), s.power = .on → s.cur = .block sl →
    ((s.slot sl).threads = none →
      let c := s.vctx sl true 0
      let n := off.toInt.toNat
      let join := s.pc + BitVec.ofNat 64 (4 * n)
      let lanes := c.range.filter fun i => c.bit va i
      (c.vl ≤ c.vstart → exec (.vsplit va off) s = .next (s.endVector.retire (s.pc + 4)) ∧
        exec (.lbr q ra rb off) s = .next (s.endVector.retire (s.pc + 4))) ∧
      (c.vstart < c.vl → exec (.lbr q ra rb off) s = .next (s.takeTrap (illegalTrap s.ir))) ∧
      exec .vjoin s = .next (s.endVector.retire (s.pc + 4)) ∧
      (∀ ws u, c.vstart < c.vl → c.sew = 64 → c.lmul = 1 → 1 ≤ off.toInt → off.toInt ≤ 256 → va.toNat < s.nvreg →
        (s.slot sl).streamsHere = [] → (s.slot sl).call = none → s.ownLent sl = false → (fetchWords (s.pc + 4) n).run s = .ok ws u →
        ws.getLast? = some vjoinWord → u.libUsed (slotCore sl) + n ≤ 256 →
        (lanes = [] → exec (.vsplit va off) s = .next (u.endVector.retire (join + 4))) ∧
        (∀ i rest, lanes = i :: rest → ∃ t : State, exec (.vsplit va off) s = .next t ∧
          (t.slot sl).threads = some ⟨s.pc, join, lanes.map fun j => (j, s.pc + 4, false), i, lanes, none⟩ ∧
          t.lane = some i ∧ t.pc = s.pc + 4 ∧ t.mem = u.mem ∧ (t.slot sl).vregs = (u.slot sl).vregs))) ∧
    (∀ th : Threads, (s.slot sl).threads = some th → scalarRegsOk s [ra, rb] 0 = true →
      let a := s.getX ra
      let b := s.getX rb
      let dest := s.pc + off.signExtend 64 * 4
      let holds : Prop := match q with
        | .eq => a = b | .ne => a ≠ b | .lt => a.toInt < b.toInt | .ge => b.toInt ≤ a.toInt
        | .ltn => a.toNat < b.toNat | .gen => b.toNat ≤ a.toNat
      (¬holds → exec (.lbr q ra rb off) s = .next (s.retire (s.pc + 4))) ∧
      (holds → (th.split + 4).toNat ≤ dest.toNat → dest.toNat ≤ th.join.toNat → exec (.lbr q ra rb off) s = .next (s.retire dest)) ∧
      (holds → dest.toNat < (th.split + 4).toNat ∨ th.join.toNat < dest.toNat →
        exec (.lbr q ra rb off) s = .next (s.takeTrap (illegalTrap s.ir))) ∧
      ((∀ l ∈ th.lanes, l.1 ≠ th.cur → l.2.2 = true) →
        ∃ t : State, exec .vjoin s = .next t ∧ (t.slot sl).threads = none ∧ t.pc = th.after.getD (th.join + 4) ∧ t.mem = s.mem ∧
          (t.slot sl).vregs = (s.slot sl).vregs ∧ t.hart.vstart = 0) ∧
      ((∃ l ∈ th.lanes, l.1 ≠ th.cur ∧ l.2.2 = false) →
        ∃ t : State, exec .vjoin s = .next t ∧ t.mem = s.mem ∧ (t.slot sl).vregs = (s.slot sl).vregs ∧ ∃ th', 
          (t.slot sl).threads = some th' ∧ ∀ l ∈ th'.lanes, l.1 = th.cur → l.2.2 = true))

/-! ### The matrix engine, lane-level words -/

/-- What a lane-level matrix word runs under: mvl in place of vl, from 0 (R95). -/
def matCtx (s : State) (sl : SlotId) (vm : Bool) (r : Reg) : VCtx := { s.vctx sl vm r with vl := s.hart.mvl.toNat, vstart := 0 }

/-- A matrix word of a running block executes, whole: some index active, registers and accumulator that exist, nothing to wait
for, no eviction that stops it. -/
def MatReady (s : State) (sl : SlotId) (c : VCtx) (ac : Option Acc) (dst : Option VOpnd) (srcs : List VOpnd) : Prop :=
  s.power = .on ∧ s.cur = .block sl ∧ (s.slot sl).threads = none ∧ c.active ≠ [] ∧ (s.slot sl).flying = false ∧ (s.slot sl).cut = none ∧
    (s.slot sl).streamsHere = [] ∧ groupsOk s.nvreg c.vm dst srcs = true ∧
    ∀ n, ac = some n → n.toNat < (s.slot sl).accCount ∧ (s.slot sl).accBusy n = false

/-- The lane-level matrix words (R380 - R386). MOP adds to each element of its active rows the step over the packed products
of its row and column; MOPS the product of its row and of the column shifted by the slide offset, which rises by 1 on a
repeat; MHOLD latches a row of weights; MHMUL adds the steps of its active rows of activations times the held weights to
one row, and moves to the next; MRD and MWR copy a row. Elements outside the active rows or columns stay. -/
def Obligations.MatrixLaneResults : Prop :=
  ∀ (s : State) (sl : SlotId) (ty : Ty) (vm : Bool) (ac : Acc) (vd vs1 vs2 ra : Reg),
    let c := matCtx s sl vm 0
    let e := matEew ty
    let p := kPack ty
    let m := (s.slot sl).mat
    let ends (x : Instr) (u : State) : Prop := exec x s = .next (u.endVector.retire (s.pc + 4))
    let rows (ps : Nat → Nat → List (Nat × Fv)) : State := s.accPut sl ac (c.active.flatMap fun i => (List.range c.vl).map fun j =>
      (i, j, accSteps ty ty (s.accGet sl ac i j) (ps i j)))
    (MatReady s sl c (some ac) none [matGroup c vs1 e (p * c.vl), matGroup c vs2 e (p * c.vl)] → matTy ty = true →
      ends (.mop ty vm ac vs1 vs2) (rows fun i j => (List.range p).map fun k =>
        (k, matProd ty ty (c.elem vs1 e (i * p + k)) (c.elem vs2 e (j * p + k))))) ∧
    (MatReady s sl c (some ac) none [matGroup c vs1 e c.vl, matGroup c vs2 e (2 * c.vl)] → matTy ty = true → ty ≠ .lg6 →
      let so := if m.last = some (vs2, ac, ty) then m.so else 0
      ends (.mops ty vm ac vs1 vs2) ((rows fun i j =>
        [(0, matProd ty ty (c.elem vs1 e i) (if j + so < 2 * c.vl then c.elem vs2 e (j + so) else 0))]).modSlot sl fun x =>
          { x with mat := { m with so := Min.min (so + 1) 128, last := some (vs2, ac, ty) } })) ∧
    (MatReady s sl c none none (matGroup c vs1 e c.vl :: (if vs2 = 0 then [] else [matGroup c vs2 8 c.vl])) → matTy ty = true →
      (s.slot sl).tmmvBusy = false →
      (vs2 ≠ 0 → ty = .f8e4 ∨ ty = .f8e5 ∨ ty = .lg6) →
      let fresh := m.hr = 0 ∨ m.hr = c.vl ∨ m.fmt ≠ some ty
      let r := if fresh then 0 else m.hr
      ∃ m' : MatState, ends (.mhold ty vm vs1 vs2) (s.modSlot sl fun x => { x with mat := m' }) ∧
        m'.fmt = some ty ∧ m'.hr = r + 1 ∧ m'.sr = m.sr ∧ m'.so = m.so ∧
        (m.hr ≤ 127 ∨ fresh → ∀ j < 128, m'.weight r j =
          if j ∈ c.active then c.elem vs1 e j else if j < c.vl ∨ fresh then 0 else m.weight r j) ∧
        (vs2 ≠ 0 → r < 128 → ∀ j < 128, j < c.vl → m'.scaleOf (r / 32) j = c.elem vs2 8 j) ∧
        (∀ i < 128, i ≠ r → ∀ j < 128, m'.weight i j = if fresh then 0 else m.weight i j)) ∧
    (MatReady s sl c (some ac) none [matGroup c vs1 e c.vl] → matTy ty = true → (s.slot sl).tmmvBusy = false →
      (∀ f, m.fmt = some f → (f = .lg6 ↔ ty = .lg6)) →
      let r := m.sr[ac.toFin]
      ends (.mhmul ty vm ac vs1) ((s.accPut sl ac ((List.range c.vl).map fun j => (r, j,
        accSteps ty (m.fmt.getD ty) (s.accGet sl ac r j) (c.active.map fun k =>
          (k, (matProd ty (m.fmt.getD ty) (c.elem vs1 e k) (m.weight k j)).scale (m.scaleOf (k / 32) j)))))).modSlot sl fun x =>
            { x with mat := { m with sr := m.sr.set ac.toFin ((r + 1) % c.vl) } })) ∧
    (let c := matCtx s sl vm ra
     let d := matGroup c vd 32 c.vl
     let row := (s.getX ra).toNat % 128
     (MatReady s sl c (some ac) (some d) [] →
       ends (.mrd vm ac vd ra) (s.putElems c d (c.active.map fun j => (j, s.accGet sl ac row j, 0)))) ∧
     (MatReady s sl c (some ac) none [d] →
       ends (.mwr vm ac vd ra) (s.accPut sl ac (c.active.map fun j => (row, j, c.elem vd 32 j))))) ∧
    (∀ es : List (Nat × Nat × Nat), (∀ x ∈ es, x.1 < 128 ∧ x.2.1 < 128) → (es.map fun x => (x.1, x.2.1)).Nodup →
      (∀ x ∈ es, (s.accPut sl ac es).accGet sl ac x.1 x.2.1 = x.2.2 % 2 ^ 32) ∧
      (∀ i < 128, ∀ j < 128, (∀ x ∈ es, x.1 ≠ i ∨ x.2.1 ≠ j) → (s.accPut sl ac es).accGet sl ac i j = s.accGet sl ac i j))
/-! ### Tiles -/

/-- A block that executes a tile word of its own: no lane threads, no call, no older tile instruction uncommitted. -/
def TileBlock (s : State) (sl : SlotId) : Prop :=
  s.power = .on ∧ s.cur = .block sl ∧ (s.slot sl).threads = none ∧ (s.slot sl).call = none ∧ (s.slot sl).rob = none

/-- TDEF, TSHAPE and TFREE (R177 - R179). TDEF reads 32 bytes into the record of its name, or makes it undefined under x0, and
the name has no instance; a bad record raises TILESHAPE with its reason, and so does one that would move a fixed tile (R159). TSHAPE caps three fields at 128 each. TFREE leaves
the name with no instance and its record unchanged; a name without one it leaves alone. -/
def Obligations.TileRecordsAndNames : Prop :=
  ∀ (s s1 : State) (sl : SlotId) (tn : TName) (ra : Reg) (ps : List Part), TileBlock s sl →
    let a := s.getX ra
    let new : TileRec := BitVec.ofNat 256 (natOfBytes (partBytes s.mem ps))
    let old := (s.slot sl).tiles[tn.toFin]
    let defines (t : State) (r : TileRec) : Prop :=
      (t.slot sl).tiles = (s.slot sl).tiles.set tn.toFin r ∧ (∀ e ∈ (t.slot sl).entries, e.name = tn → e.fixed = true ∨ e.current = false) ∧
        t.mem = s.mem ∧ t.pc = s.pc + 4 ∧ ∀ r, t.getX r = s.getX r
    let moved : Prop := recFixed old = true ∧ (recField new 1 1 ≠ recField old 1 1 ∨ recChunk new ≠ recChunk old)
    let reason := if new = 0 then none else recReason (s.slot sl).roomChunks new
    let stops (k : Nat) : Prop := ∃ t : State, t.slots = s.slots ∧ t.mem = s.mem ∧ exec (.tdef tn ra) s =
      .next (t.takeTrap { cause := .tileshape, tile := some (tn, 0, 0), reason := BitVec.ofNat 32 k })
    (ra ≠ 0 → a.toNat % 32 = 0 → LocatedAt s (scalarUse .load) a 32 false ps s1 →
      (reason = none → recRemote new = false → ¬moved → ∃ t : State, exec (.tdef tn ra) s = .next t ∧ defines t new) ∧
      (∀ k, reason = some k → (¬moved ∨ k ≤ 6 → stops k) ∧ (moved → 6 < k → stops 6)) ∧ (reason = none → moved → stops 6)) ∧
    (recFixed old = false → ∃ t : State, exec (.tdef tn 0) s = .next t ∧ defines t 0) ∧
    (let f (i : Nat) : Nat := Min.min (a.toNat / 2 ^ (16 * i) % 2 ^ 16) 128 * 2 ^ (16 * i)
     exec (.tshape ra) s = .next ((s.modHart fun h => { h with tshape := BitVec.ofNat 48 (f 0 + f 1 + f 2) }).retire (s.pc + 4))) ∧
    (∃ t : State, exec (.tfree tn) s = .next t ∧ (t.slot sl).tiles = (s.slot sl).tiles ∧ t.mem = s.mem ∧ t.pc = s.pc + 4 ∧
      (∀ e ∈ (t.slot sl).entries, e.name = tn → e.fixed = true ∨ e.current = false) ∧
      ((∀ e ∈ (s.slot sl).entries, e.name = tn → e.fixed = true ∨ e.current = false) → (t.slot sl).entries = (s.slot sl).entries))

/-- TWAIT, TCHK and TACQ (R180 - R182) of a tile that may be read; a remote name raises TILESHAPE with reason 6, one on
a core that is gone too (the model's choice, log 72, where R159 has ACCESS). TWAIT goes on when every chunk of its set
is ready, sleeps at itself while one is not, and raises CHUNKABANDON for the lowest abandoned one; TCHK and TACQ give the
set of chunks that are ready and not abandoned, 64 to a register or 256 to a vector register. -/
def Obligations.TileWaitsAndChecks : Prop :=
  ∀ (s : State) (sl : SlotId) (tn : TName) (ra va : Reg) (g : BitVec 2) (r : TileRef), TileBlock s sl →
    (let rec_ := (s.slot sl).tiles[tn.toFin]
     let shape : Trap := { cause := .tileshape, tile := some (tn, 0, 0), reason := 6 }
     recRemote rec_ = true → recReason (s.slot sl).roomChunks rec_ = none →
       exec (.twait tn ra g) s = .next (s.takeTrap shape) ∧ exec (.tchk tn ra g) s = .next (s.takeTrap shape) ∧
       (va.toNat < s.nvreg → (s.slot sl).streamsHere = [] → exec (.tacq tn va) s = .next (s.takeTrap shape))) ∧
    (readTile sl tn s = .ok r s → recRemote r.shape = false →
    let x := s.slot sl
    let n := recChunks r.shape
    let inSet (c : Nat) : Prop := c < n ∧ (ra = 0 ∨ 64 * g.toNat ≤ c ∧ c < 64 * g.toNat + 64 ∧ (s.getX ra).getLsbD (c - 64 * g.toNat) = true)
    let up (c : Nat) : Prop := c < n ∧ x.chunkReady r c = true ∧ x.chunkAbandoned r c = false
    n ≤ 256 →
    ((∀ c, inSet c → x.chunkAbandoned r c = false) →
      ((∀ c, inSet c → x.chunkReady r c = true) → exec (.twait tn ra g) s = .next ((s.endWait sl).retire (s.pc + 4))) ∧
      ((∃ c, inSet c ∧ x.chunkReady r c = false) → ∃ t : State, exec (.twait tn ra g) s = .next t ∧ (t.slot sl).run = .asleep ∧
        t.pc = s.pc ∧ (t.slot sl).vregs = x.vregs)) ∧
    (∀ c, inSet c → x.chunkAbandoned r c = true → (∀ d < c, inSet d → x.chunkAbandoned r d = false) →
      exec (.twait tn ra g) s = .next ((s.endWait sl).takeTrap (abandonTrap r c))) ∧
    (∃ v : Word, Gives (.tchk tn ra g) s ra v ∧ ∀ i < 64, v.getLsbD i = true ↔ up (64 * g.toNat + i)) ∧
    (va.toNat < s.nvreg → x.streamsHere = [] →
      ∃ t : State, exec (.tacq tn va) s = .next t ∧ t.mem = s.mem ∧ t.pc = s.pc + 4 ∧
        (∀ i < 256, (t.slot sl).vregs[va.toFin].getLsbD i = true ↔ up i) ∧
        (∀ i, 256 ≤ i → (t.slot sl).vregs[va.toFin].getLsbD i = x.vregs[va.toFin].getLsbD i) ∧
        ∀ q : Reg, q ≠ va → (t.slot sl).vregs[q.toFin] = x.vregs[q.toFin]))

/-- TSIGNAL, TBAR, TEND and TLAUNCH (R183 - R186), of a block whose older work is acknowledged. TSIGNAL stores, or adds, 8
bytes; TBAR waits for the arrivals that the first one fixes, and the last lets it go on; TEND posts DONE and the slot is
empty; TLAUNCH posts its record, sleeps, and gives ra the status word that comes. A failed write is reported instead. -/
def Obligations.TileSignalsAndEnds : Prop :=
  ∀ (s : State) (sl : SlotId) (ra rb : Reg) (b : BitVec 4) (l : Loc), TileBlock s sl → s.commandsDone sl = true →
    let x := s.slot sl
    let k := slotCluster sl
    let a := s.getX ra
    let v := (s.getX rb).toNat
    let at_ := eventPA k (s.cluster k).tail
    (x.failed = none → a.toNat % 8 = 0 → AtomicAt s .store .none a 8 l →
      let writes (i : Instr) (new : Nat) : Prop := ∃ t : State, exec i s = .next t ∧
        t.mem = Memory.putAll s.mem l.pa (bytesOfNat 8 new) ∧ t.pc = s.pc + 4 ∧ (∀ r, t.getX r = s.getX r) ∧
        (t.slot sl).vregs = x.vregs
      writes (.tsignal ra rb) v ∧ writes (.tsignalAdd ra rb) (Memory.nat s.mem l.pa 8 + v)) ∧
    (a.toNat % 8 ≠ 0 → exec (.tsignal ra rb) s = .next (s.takeTrap { cause := .align, va := a, vaValid := true, tval := a })) ∧
    (∀ f, x.failed = some f → (a.toNat % 8 = 0 → exec (.tsignal ra rb) s = .next (s.takeTrap (failedTrap f))) ∧
      (s.slotBusy sl = false → exec .tend s = .next (s.takeTrap (failedTrap f)))) ∧
    (x.lrec.barriers.getLsbD b.toNat = false → exec (.tbar ra b) s = .next (s.takeTrap { cause := .slotcoll, reason := 3 })) ∧
    (x.lrec.barriers.getLsbD b.toNat = true →
      let old := (s.cluster k).xr.barrier b
      let n := Min.min a.toNat 32
      let need := if old.arrivals = 0 then n else old.n
      (x.wait = .none → n = 0 → exec (.tbar ra b) s = .next (s.retire (s.pc + 4))) ∧
      (x.wait = .none → 0 < n → x.failed = none → need ≤ old.arrivals + 1 →
        ∃ t : State, exec (.tbar ra b) s = .next t ∧ t.pc = s.pc + 4 ∧ ((t.cluster k).xr.barrier b).arrivals = 0 ∧
          ((t.cluster k).xr.barrier b).gen = old.gen + 1 ∧ t.mem = s.mem) ∧
      (x.wait = .none → 0 < n → x.failed = none → old.arrivals + 1 < need →
        ∃ t : State, exec (.tbar ra b) s = .next t ∧ t.pc = s.pc ∧ (t.slot sl).run = .asleep ∧
          (t.slot sl).wait = .tbar b old.gen ∧ ((t.cluster k).xr.barrier b).arrivals = old.arrivals + 1) ∧
      (∀ g, x.wait = .tbar b g → old.gen ≠ g → exec (.tbar ra b) s = .next ((s.endWait sl).retire (s.pc + 4)))) ∧
    (x.failed = none → s.slotBusy sl = false → s.eventRoom k = true →
      ∃ t : State, exec .tend s = .next t ∧ t.slot sl = {} ∧ (t.cluster k).tail = (s.cluster k).tail + 1 ∧
        Memory.bytes t.mem at_ 32 = (s.slotEvent sl 2 0 0).bytes) ∧
    (x.wait = .none → s.eventRoom k = true →
      ∃ t : State, exec (.tlaunch ra rb) s = .next t ∧ t.pc = s.pc ∧ (t.slot sl).run = .asleep ∧
        (t.slot sl).wait = .tlaunch (s.getX rb) ra none ∧ (t.cluster k).tail = (s.cluster k).tail + 1 ∧
        Memory.bytes t.mem at_ 32 = (s.slotEvent sl 8 (s.getX rb) (ra.zeroExtend 64)).bytes) ∧
    (∀ rec st, x.wait = .tlaunch rec ra (some st) →
      exec (.tlaunch ra rb) s = .next (((s.endWait sl).setX ra st).retire (s.pc + 4)))

/-- The destination of a tile instruction: its record allows a write, and an entry is taken for the new instance. -/
def Takes (s : State) (sl : SlotId) (tn : TName) (d : TileRef) (u : State) : Prop :=
  ∃ r, destTile sl tn s = .ok r s ∧ takeEntry sl r s = .ok d u

/-- What an instruction whose work goes on after commit answers (R160, R169): once its operands are captured in `u`, a fixed
destination is free of older uses, and its room is found, it joins the block's committed work, its destination's new
instance is the current one, and the PC moves past its two words. -/
def Commits (i : Instr) (s : State) (sl : SlotId) (u : State) (pre : SlotId → TileInstr → M TileInstr) (op : TileOp)
    (td ta tb : Option TileRef) (ranges : List (Word × Nat)) : Prop :=
  let t : TileInstr := { id := (u.slot sl).nextId, pc := s.pc, op := op, td := td, ta := ta, tb := tb, ranges := ranges }
  let w := (u.modSlot sl fun x => { x with nextId := x.nextId + 1 }).modSlot sl fun x => { x with rob := some t }
  ∀ (v v' : State) (t' : TileInstr), fixedWait sl t w = .ok () w →
    (match td with | none => v = w | some r => allocRoom sl r w = .ok () v) → pre sl t v = .ok t' v' →
    exec i s = .next ((v'.modSlot sl fun x => x.commit t').retire (v'.pc + 8))

/-- Copies (R244 - R254, R264): TLD, TST, TCPY, TZERO, TCOLL and their parameter-block forms become commands of the block with
their operands as captured; the .pb forms read their blocks at commit. Which bytes a plain copy touches is in its ranges. -/
def Obligations.TileCopiesAreCommitted : Prop :=
  ∀ (s u : State) (sl : SlotId) (hint : Hint) (ev : Bool) (ty : Ty) (op : CollOp) (td ta : TName) (ra rb : Reg) (gen : BitVec 16)
    (d a : TileRef), TileBlock s sl →
    let va := s.getX ra
    let vb := s.getX rb
    let legal (n : TName) (load : Bool) : Prop := convGate sl n ty load s = .ok () s
    (Takes s sl td d u → legal td true → Commits (.tld hint ev ty td ra rb) s sl u keep (.load hint ev ty va vb) (some d) none none
      (plainGeom d.shape ty va vb).ranges) ∧
    (Takes s sl td d u → Commits (.tldPb hint ev td ra gen) s sl u pbCommit (.loadPb hint ev va gen) (some d) none none []) ∧
    (readTile sl ta s = .ok a s → legal ta false → Commits (.tst hint ev ty ta ra rb) s sl s keep (.store hint ev ty va vb) none (some a) none
      (plainGeom a.shape ty va vb).ranges) ∧
    (readTile sl ta s = .ok a s → Commits (.tstPb hint ev ta ra gen) s sl s pbCommit (.storePb hint ev va gen) none (some a) none []) ∧
    (Takes s sl td d u → readTile sl ta s = .ok a s → recRows d.shape = recRows a.shape → recCols d.shape = recCols a.shape →
      convOk (recTy a.shape) (recTy d.shape) = true → Commits (.tcpy ev td ta) s sl u keep (.copy ev) (some d) (some a) none []) ∧
    Commits (.tcpyPb hint ev ra gen) s sl s pbCommit (.copyPb hint ev va gen) none none none [] ∧
    (Takes s sl td d u → Commits (.tzero ev td) s sl u keep (.zero ev) (some d) none none []) ∧
    (Takes s sl td d u → readTile sl ta s = .ok a s → va.toNat % 64 = 0 →
      (match op with
        | .sum | .min | .max => recsEqual d.shape a.shape = true ∧ recTy a.shape ≠ .lg6
        | .bcast => recsEqual d.shape a.shape = true
        | .gather => recTy d.shape = recTy a.shape ∧ recLen d.shape = recLen a.shape ∧ recColMajor d.shape = recColMajor a.shape ∧
            recLines d.shape = collN vb * recLines a.shape
        | .fw j => (s.cluster ((s.fwPorter (slotCluster sl)).getD (slotCluster sl))).porter.fwops.getLsbD j.toNat = true) →
      Commits (.tcoll hint ev op td ta ra rb) s sl u keep (.coll hint ev op va vb) (some d) (some a) none
        [(va, 64 + collN vb * packedBytes a.shape)])

/-- Tile matrix instructions, TMAP and TRED (R344 - R347, R388 - R390): under the shape and type conditions of R389 they join
the committed work with ctl.tshape as it stands; TMAP and TRED need operands of one element width, and their function is in
the lane instruction buffer. That bits 1 and 0 of the function's address are cleared, and that lg6 counts as width 8 with the other 8-bit
types, are the model's choices (log 40). -/
def Obligations.TileMatrixAndMapsAreCommitted : Prop :=
  ∀ (s u : State) (sl : SlotId) (z : Bool) (ac : Acc) (td ta tb : TName) (len : BitVec 8) (ra rb : Reg) (d a b : TileRef),
    TileBlock s sl → readTile sl ta s = .ok a s →
    (ac.toNat < (s.slot sl).accCount → readTile sl tb s = .ok b s →
      let mma (kind : BitVec 2) (i : Bool → Instr) : Prop :=
        (mmaCheck kind none a b s = .ok () s → Commits (i false) s sl s keep (.mma kind z false ac s.hart.tshape) none (some a) (some b) []) ∧
        (Takes s sl td d u → mmaCheck kind (some { d with entry := none }) a b s = .ok () s →
          Commits (i true) s sl u keep (.mma kind z true ac s.hart.tshape) (some d) (some a) (some b) [])
      mma 0 (fun out => .tmma z out ac td ta tb) ∧ mma 1 (fun out => .tmmas z out ac td ta tb) ∧ mma 2 (fun out => .tmmv z out ac td ta tb)) ∧
    (Takes s sl td d u → fnWidth (recTy d.shape) = fnWidth (recTy a.shape) →
      let fn := s.getX ra &&& ~~~3
      let one := Commits (.tmap len false td ta tb ra rb) s sl u mapLoad (.map false len false fn (s.getX rb)) (some d) (some a) none []
      let two := Commits (.tmap len true td ta tb ra rb) s sl u mapLoad (.map false len true fn (s.getX rb)) (some d) (some a) (some b) []
      let redOne := Commits (.tred len false td ta tb ra rb) s sl u mapLoad (.map true len false fn (s.getX rb)) (some d) (some a) none []
      let redTwo := Commits (.tred len true td ta tb ra rb) s sl u mapLoad (.map true len true fn (s.getX rb)) (some d) (some a) (some b) []
      let same (r : TileRec) : Prop := recRows r = recRows a.shape ∧ recCols r = recCols a.shape
      let column := recLines d.shape = recLines a.shape ∧ recLen d.shape = 1
      (same d.shape → one) ∧ (column → redOne) ∧
      (readTile sl tb s = .ok b s → fnWidth (recTy b.shape) = fnWidth (recTy a.shape) →
        (same d.shape → same b.shape → two) ∧ (column → redTwo)))

/-- A word of major 0x3F whose destination's record is bad raises TILESHAPE with the reason of R159 and leaves nothing; an
accumulator that the block does not have raises ILLREG; on a Steward, in a lane thread and in a call a tile word is ILLEGAL. -/
def TileWordsCheckTheirOperands : Prop :=
  ∀ (s : State) (sl : SlotId) (td ta tb : TName) (ac : Acc) (ra : Reg), s.power = .on → s.cur = .block sl →
    let r := (s.slot sl).tiles[td.toFin]
    let shape (k : Nat) : Trap := { cause := .tileshape, tile := some (td, 0, 0), reason := BitVec.ofNat 32 k }
    (TileBlock s sl → ∀ k, recReason (s.slot sl).roomChunks r = some k → k ≤ 6 →
      exec (.tzero false td) s = .next (s.takeTrap (shape k)) ∧ exec (.tldPb .normal false td ra 0) s = .next (s.takeTrap (shape k))) ∧
    (TileBlock s sl → recReason (s.slot sl).roomChunks r = none → recRemote r = true →
      exec (.tzero false td) s = .next (s.takeTrap (shape 6))) ∧
    (TileBlock s sl → (s.slot sl).accCount ≤ ac.toNat →
      exec (.tmma false false ac td ta tb) s = .next (s.takeTrap { cause := .illreg })) ∧
    ((s.slot sl).threads ≠ none ∨ (s.slot sl).call ≠ none →
      ∀ i ∈ [Instr.tzero false td, .tcpy false td ta, .tmma false false ac td ta tb, .tdef td ra, .tfree td, .tend, .tsend ta ra ra 0,
          .tdiscard ra ra, .fstat ra 0],
        exec i s = .next (s.takeTrap (illegalTrap s.ir)))

/-- TSEND and TRECV (R277, R278). TRECV opens a posting of its channel for the core it names, and sleeps while one is open. A
TSEND whose tile is ready and whose destinations all have an open posting from its core binds them and sleeps until its
chunks are sent; the slot of the frame that drives its last chunk retires it. A TSEND to no core retires at once. -/
def ExchangeInstructions : Prop :=
  ∀ (s u : State) (sl : SlotId) (tn : TName) (ra rb : Reg) (c : BitVec 4) (a d : TileRef),
    let x := s.slot sl
    let k := slotCluster sl
    let dests : BitVec 8 := (s.getX ra).truncate 8
    let mask := s.getX rb
    let src : BitVec 3 := (s.getX ra).truncate 3
    (TileBlock s sl → readTile sl tn s = .ok a s →
      let t : TileInstr := { id := x.nextId, pc := s.pc, op := .send dests mask c, td := none, ta := some a, tb := none, ranges := [] }
      (dests = 0 → (∀ m ∈ (s.cluster k).xr.sends, m.slot = sl → m.instr ≠ t.id) →
        ∃ t : State, exec (.tsend tn ra rb c) s = .next t ∧ t.pc = s.pc + 8 ∧ t.mem = s.mem ∧ (t.slot sl).rob = none) ∧
      (dests ≠ 0 → mask ≠ 0 → mask &&& ~~~x.lrec.exslots = 0 → (∀ m ∈ (s.cluster k).xr.sends, m.slot = sl → m.instr ≠ t.id) →
        (∀ i < recChunks a.shape, x.chunkReady a i = true ∧ x.chunkAbandoned a i = false) →
        (∀ i < 8, dests.getLsbD i = true → s.coreGone (k * 8 + i) = false ∧ ∃ p e, s.openPosting (k * 8 + i) c = some p ∧
          p.src.toNat = slotCore sl % 8 ∧ s.postedTile p = some e ∧ sendMatch a.shape e.shape = true) →
        ∃ t : State, exec (.tsend tn ra rb c) s = .next t ∧ t.pc = s.pc ∧ (t.slot sl).run = .asleep ∧
          (t.cluster k).xr.sends = (s.cluster k).xr.sends ++ [⟨sl, x.nextId, dests, mask, c, 0, false⟩] ∧ t.mem = s.mem)) ∧
    (∀ (t : TileInstr) (m : Send), s.power = .on → (s.cluster k).fenced = false → (s.cluster k).xr.sends = [m] → m.slot = sl →
      m.issued = true → m.mask.getLsbD ((s.cluster k).xr.frame % 64) = true → x.run = .asleep → x.call = none →
      x.rob = some t → t.id = m.instr → t.ta = some a → recRemote a.shape = false → m.next < recChunks a.shape →
      recChunks a.shape ≤ m.next + 16 →
      ∃ v : State, exec (.crossroadsSlot (BitVec.ofNat 5 k)) s = .next v ∧ (v.slot sl).hart.pc = t.pc + 8 ∧
        (v.slot sl).run = .running ∧ (v.slot sl).rob = none ∧ m ∉ (v.cluster k).xr.sends) ∧
    (TileBlock s sl → s.coreGone (k * 8 + src.toNat) = false → Takes s sl tn d u →
      let t : TileInstr := { id := (u.slot sl).nextId, pc := s.pc, op := .recv src c, td := some d, ta := none, tb := none, ranges := [] }
      let w := (u.modSlot sl fun x => { x with nextId := x.nextId + 1 }).modSlot sl fun x => { x with rob := some t }
      ∀ v : State, fixedWait sl t w = .ok () w → allocRoom sl d w = .ok () v →
        ((∀ p ∈ (v.core (slotCore sl)).postings, p.ch ≠ c) →
          ∃ t' : State, exec (.trecv tn ra c) s = .next t' ∧ t'.pc = s.pc + 8 ∧
            (t'.core (slotCore sl)).postings = (v.core (slotCore sl)).postings ++ [⟨sl, c, src, t.id, none⟩] ∧
            (t'.slot sl).work = (v.slot sl).work ++ [t]) ∧
        ((∃ p ∈ (v.core (slotCore sl)).postings, p.ch = c) →
          ∃ t' : State, exec (.trecv tn ra c) s = .next t' ∧ t'.pc = s.pc ∧ (t'.slot sl).run = .asleep))

/-- TDISCARD (R410): whole granules of HBM that nothing holds (R405, R412), whose data may be uncorrectable, become zero and are marked so; a length of 0 does nothing; ends that are no
granule boundary raise ALIGN, a length above 16 MiB raises ACCESS. -/
def Obligations.DiscardedGranulesReadZero : Prop :=
  ∀ (s s1 : State) (sl : SlotId) (ra rb : Reg) (ps : List Part), TileBlock s sl →
    let a := s.getX ra
    let n := (s.getX rb).toNat
    (n = 0 → exec (.tdiscard ra rb) s = .next (s.retire (s.pc + 8))) ∧
    (n ≠ 0 → a.toNat % 32 ≠ 0 ∨ n % 32 ≠ 0 →
      exec (.tdiscard ra rb) s = .next (s.takeTrap { cause := .align, va := a, vaValid := true, tval := a })) ∧
    (2 ^ 24 < n → a.toNat % 32 = 0 → n % 32 = 0 →
      exec (.tdiscard ra rb) s = .next (s.takeTrap { cause := .access, va := a, vaValid := true, acc := .store })) ∧
    (n ≠ 0 → n ≤ 2 ^ 24 → a.toNat % 32 = 0 → n % 32 = 0 → discardParts (cutGranules (n / 32) a n) s = .ok ps s1 → Same s s1 →
      (∀ p ∈ ps, p.loc.pa % 32 = 0 ∧ s1.gateOpen (s1.src p.loc.pa) p.loc.pa = true) →
      ∃ t : State, exec (.tdiscard ra rb) s = .next t ∧ t.pc = s.pc + 8 ∧ (∀ r, t.getX r = s.getX r) ∧
        (∀ p ∈ ps, Memory.bytes t.mem p.loc.pa 32 = List.replicate 32 0 ∧ (t.granule (p.loc.pa / 32)).zero = true) ∧
        (∀ c, (∀ p ∈ ps, c < p.loc.pa ∨ p.loc.pa + 32 ≤ c) → Memory.get t.mem c = Memory.get s.mem c))

/-- FBIAS and FSTAT (R468 - R471). A launch that does not hold the helm gets status 2 and changes nothing; a full plan queue
gives 3; else the target, held within the limits, joins the queue, and status 1 tells that it was moved. FSTAT gives a
status word and changes nothing. -/
def FerryBiasAndStatus : Prop :=
  ∀ (s : State) (sl : SlotId) (flush : Bool) (ra rb : Reg) (tag : BitVec 16) (sel : BitVec 2), TileBlock s sl →
    let f := s.ferry
    let g := if flush then { f with plan := [] } else f
    let h := if g.plan = [] then { g with headAt := s.clock } else g
    let mine := f.helm = some ((s.slot sl).queue, (s.slot sl).number)
    let t := (s.getX rb).toNat
    let c := Min.min (Max.max t f.low) f.high
    let ends (f' : Ferry) (st : Nat) : Prop := exec (.fbias flush ra rb tag) s =
      .next (({ s with ferry := f' }.setX ra (BitVec.ofNat 64 (st + f'.plan.length * 2 ^ 8 + f.split * 2 ^ 16))).retire (s.pc + 8))
    (¬mine → ends f 2) ∧ (mine → g.plan.length = 16 → ends g 3) ∧
    (mine → g.plan.length ≠ 16 →
      ends { h with plan := g.plan ++ [⟨c, tag, s.clock⟩], restPlan := false } (if c = t then 0 else 1)) ∧
    (∃ v : Word, exec (.fstat ra sel) s = .next ((s.setX ra v).retire (s.pc + 8)) ∧
      (sel = 0 → v.toNat % 64 = f.split ∧ (v.getLsbD 6 = true ↔ mine) ∧ (f.plan.length < 256 →
        v.toNat / 2 ^ 8 % 256 = f.plan.length)))
/-! ### Stewards -/

/-- The Steward-only instructions (R147 - R151, R447). EVPOP moves the oldest record to local memory and gives its type, 0
when there is none; EVWAIT gives the number pending or sleeps; SLOTEVICT starts an eviction; CQPUSH hands a summary to the
Dispatcher, whose launch takes the counts of a first one (its layout is the model's, log 32); TLBINV drops the cluster's translations of a range, and retires once no access of its blocks translated through them is
outstanding. To evict a slot of a core that is gone finds nothing (the model's choice, log 54). An address outside local memory raises ACCESS. -/
def StewardInstructions : Prop :=
  ∀ (s : State) (k : ClusterId) (rd ra rb : Reg), s.power = .on → s.cur = .steward k →
    let c := s.cluster k.toNat
    let a := s.getX ra
    let b := s.getX rb
    let outside : Trap := { cause := .access, va := a, vaValid := true }
    let rec32 := Memory.bytes s.mem (eventPA k.toNat c.head) 32
    (inLocal k a 32 = false → exec (.evpop rd ra) s = .next (s.takeTrap outside)) ∧
    (inLocal k a 32 = true → c.count = 0 → Gives (.evpop rd ra) s rd 0) ∧
    (inLocal k a 32 = true → c.count ≠ 0 → a.toNat % 32 = 0 →
      ∃ u : State, exec (.evpop rd ra) s = .next ((u.setX rd (BitVec.ofNat 64 (rec32.headD 0).toNat)).retire (s.pc + 4)) ∧
        u.mem = Memory.putAll s.mem a.toNat rec32 ∧ (u.cluster k.toNat).head = c.head + 1 ∧ (u.cluster k.toNat).tail = c.tail ∧
        u.hart = s.hart) ∧
    (c.steward.wait = none → c.count ≠ 0 → exec (.evwait rd ra) s =
      .next (((s.modSteward k.toNat fun w => { w with wait := none }).setX rd (BitVec.ofNat 64 c.count)).retire (s.pc + 4))) ∧
    (c.steward.wait = none → c.count = 0 → a ≠ 0 → exec (.evwait rd ra) s =
      .next (s.modSteward k.toNat fun w => { w with wait := some (rd, some (s.clock + a.toNat)) })) ∧
    (b.toNat % 4096 = 0 →
      let sl := slotOf (k.toNat * 8 + a.toNat / 4 % 8) (a.toNat % 4)
      let gone := s.coreGone (slotCore sl)
      ((s.slot sl).run = .empty ∨ gone = true → Gives (.slotevict rd ra rb) s rd 1) ∧
      ((s.slot sl).run = .evicting → gone = false → Gives (.slotevict rd ra rb) s rd 2) ∧
      ((s.slot sl).run ≠ .empty → (s.slot sl).run ≠ .evicting → gone = false → ∃ u : State, exec (.slotevict rd ra rb) s =
          .next ((u.setX rd 0).retire (s.pc + 4)) ∧ (u.slot sl).run = .evicting ∧ (u.slot sl).evict = some b ∧ u.mem = s.mem)) ∧
    (inLocal k a 64 = true →
      let bs := Memory.bytes s.mem a.toNat 64
      let known := fieldAt bs 4 1 < 64 ∧ ∃ l ∈ s.disp.launches, l.queue = BitVec.ofNat 6 (fieldAt bs 4 1) ∧
        l.number = BitVec.ofNat 32 (fieldAt bs 0 4) ∧ l.refused = none
      (¬known → Gives (.cqpush rd ra) s rd 1) ∧
      (known → ∃ u : State, exec (.cqpush rd ra) s = .next ((u.setX rd 0).retire (s.pc + 4)) ∧
        (k, BitVec.ofNat 512 (natOfBytes bs)) ∈ u.disp.summaries ∧ u.mem = s.mem ∧
        ((∀ e ∈ s.disp.summaries, e.1 ≠ k) → ∀ l ∈ s.disp.launches, l.queue = BitVec.ofNat 6 (fieldAt bs 4 1) →
          l.number = BitVec.ofNat 32 (fieldAt bs 0 4) → ∃ m ∈ u.disp.launches, m.queue = l.queue ∧ m.number = l.number ∧
            m.ended = l.ended + BitVec.ofNat 64 (fieldAt bs 8 8) ∧ m.faulted = l.faulted + BitVec.ofNat 64 (fieldAt bs 0x10 8) ∧
            m.unrun = l.unrun + BitVec.ofNat 64 (fieldAt bs 0x18 8) ∧ m.rerun = l.rerun + BitVec.ofNat 64 (fieldAt bs 0x20 8)))) ∧
    (∃ t : State, exec (.tlbinv ra rb) s = .next t ∧ t.mem = s.mem ∧
      (s.tlbBusy k.toNat a b = false → t.pc = s.pc + 4) ∧ (s.tlbBusy k.toNat a b = true → t.pc = s.pc) ∧
      let ctx : BitVec 16 := b.truncate 16
      let r := invRange a b
      let gone (e : TlbEntry) : Prop := e.ctx = ctx → rangesMeet e.base (2 ^ e.size) r.1 r.2 = false
      (∀ i < 8, (∀ e ∈ (t.core (k.toNat * 8 + i)).dtlb, gone e) ∧ (∀ e ∈ (t.core (k.toNat * 8 + i)).itlb, gone e)) ∧
      (∀ e ∈ (t.cluster k.toNat).stlb, gone e))

/-- SLOTASSIGN (R149, R150): a new block that was sent to the cluster takes a free slot; its registers hold the entry, the
arguments in x10 - x17 and zeros, its lane groups are granted, and its accumulators are zero. The status tells an occupied
slot, a core that is gone, resources in use and an unknown block apart; none of these changes anything but rd. -/
def SlotAssignPlacesBlock : Prop :=
  ∀ (s : State) (k : ClusterId) (rd ra : Reg) (p : Pending) (l : Launch), s.power = .on → s.cur = .steward k →
    let a := s.getX ra
    let d := (assignOf (Memory.bytes s.mem a.toNat 64)).1
    let sl := slotOf (k.toNat * 8 + d.core) d.slot
    let gone := s.coreGone (k.toNat * 8 + d.core)
    inLocal k a 64 = true → a.toNat % 64 = 0 →
    ((s.slot sl).run ≠ .empty → Gives (.slotassign rd ra) s rd 1) ∧
    ((s.slot sl).run = .empty → gone = true → Gives (.slotassign rd ra) s rd 2) ∧
    ((s.slot sl).run = .empty → gone = false → s.pendingFor k.toNat d = none →
      Gives (.slotassign rd ra) s rd (if s.assignFits sl d { nvreg := 0 } then 4 else 3)) ∧
    ((s.slot sl).run = .empty → gone = false → s.pendingFor k.toNat d = some (p, l) →
      (s.assignFits sl d l.lrec = false → Gives (.slotassign rd ra) s rd 3) ∧
      (s.assignFits sl d l.lrec = true → (assignOf (Memory.bytes s.mem a.toNat 64)).2 = false → d.resume = false → p.aborted = false →
        popcount4 d.acc = l.lrec.acc.toNat → l.lrec.lanesMin.toNat ≤ d.grant → d.grant ≤ l.lrec.lanesMax.toNat →
        ∃ u : State, exec (.slotassign rd ra) s = .next ((u.setX rd 0).retire (s.pc + 4)) ∧ (u.slot sl).run = .running ∧
          (u.slot sl).hart.pc = l.lrec.entry ∧ (u.slot sl).wid = d.wid ∧ (u.slot sl).queue = l.queue ∧ (u.slot sl).number = l.number ∧
          (∀ i : Fin 32, (u.slot sl).hart.x[i] = if 10 ≤ i.val ∧ i.val < 18 then l.lrec.args.getD (i.val - 10) 0 else 0) ∧
          (u.slot sl).vregs = Vector.replicate 32 0 ∧ (u.slot sl).roomFirst = d.room ∧ (u.slot sl).accMask = d.acc ∧
          (∀ n : Acc, n.toNat < (u.slot sl).accCount → ∀ row < 128, ∀ col < 128, u.accGet sl n row col = 0)))

/-- The vendor firmware's steps (R142, R152 - R154, R189, R496, R148, R330; that they are steps of the machine is the model's
reading, log 6), where no code of its own runs on the Steward: a
record at the head of the event queue is taken and has its effect; with none, the first pending unit that has seats, and
that does not yield to one on its way (the model's choice, log 70), is placed; parks and waits that last too long end. -/
def Obligations.StewardFirmwareSteps : Prop :=
  ∀ (s : State) (k : ClusterId) (sl : SlotId) (e : EventRec), s.power = .on →
    let n := k.toNat
    let c := s.cluster n
    let taken (t : State) : Prop := (t.cluster n).head = c.head + 1
    -- DONE counts, and a TRAP's record is kept and its slot freed
    (s.vendor n = true → s.headEvent n = some e → e.typ = 2 → ∀ l, s.launchOf (e.queue.truncate 6) e.number = some l →
      ∃ t : State, exec (.stewardPlacement k) s = .next t ∧ taken t ∧ t.mem = s.mem ∧
        t.launchOf (e.queue.truncate 6) e.number = some { l with ended := l.ended + 1 }) ∧
    (s.vendor n = true → s.headEvent n = none → ∀ p rest l u t, (s.cluster n).order = p :: rest → s.launchOf p.queue p.number = some l →
      s.yields n p = false → s.seats n l p = some u → assignAll n u s = .ok 0 t → exec (.stewardPlacement k) s = .next t) ∧
    (headIs s n 9 = some e →
      let s1 := s.popEvent n
      let sets (c : Nat) : Option (List SlotId) := s1.preemptSet n c e.a.toNat (bits e.b.toNat 0 16) (bits e.b.toNat 16 8)
      ∃ t : State, exec (.stewardPreempt k) s = .next t ∧ taken t ∧ t.mem = s.mem ∧
        ((∃ c < 8, s.coreGone (n * 8 + c) = false ∧ (sets c).isSome = true) →
          (∀ c < 8, s.coreGone (n * 8 + c) = false → sets c ≠ some []) →
          ∃ sl, slotCluster sl = n ∧ (t.slot sl).run = .evicting)) ∧
    (headIs s n 5 = some e → slotCluster sl = n →
      ∀ p, (s.slot sl).park = some p → p.token = e.a → (s.slot sl).run = .parked → (s.slot sl).wait = .none →
      ∃ t : State, exec (.stewardReplay k) s = .next t ∧ taken t ∧ (t.slot sl).park = none ∧ (t.slot sl).run = .running ∧ t.mem = s.mem) ∧
    (headIs s n 8 = some e → c.again = [] → s.blockOf n e = some sl → (s.slot sl).run = .asleep → (s.slot sl).call = none →
      (s.slot sl).wait = .tlaunch e.a (e.b.truncate 5) none → e.a.toNat % 128 = 0 →
      ∀ l v u, s.launchOf (e.queue.truncate 6) e.number = some l → childStatus n l l.ctx e.a s = .ok v u →
      u.slots = s.slots → (u.cluster n).head = c.head →
      ∃ t : State, exec (.stewardTlaunch k) s = .next t ∧ taken t ∧ (t.slot sl).run = .running ∧
        (t.slot sl).wait = .tlaunch e.a (e.b.truncate 5) (some (BitVec.ofNat 64 v)) ∧ t.disp = u.disp) ∧
    (headIs s n 12 = some e → e.a.toNat % 16 = 1 →
      let core := bits e.a.toNat 4 1 * 128 + bits e.a.toNat 5 8
      core < 256 → core / 8 = n → ∃ t : State, exec (.stewardFence k) s = .next t ∧ taken t ∧ ∀ i < 4, (t.slot (slotOf core i)).run = .empty) ∧
    (∀ p, (s.slot sl).park = some p → (s.slot sl).run = .parked → (s.slot sl).halted = false → s.vendor (slotCluster sl) = true →
      s.coreGone (slotCore sl) = false →
      ∃ t : State, exec (.parkTimeout sl) s = .next t ∧ (t.slot sl).run = .evicting ∧ p.since + 200 * Config.usClocks ≤ t.clock ∧
        t.mem = s.mem) ∧
    (∀ rd d, c.steward.wait = some (rd, some d) → ∃ t : State, exec (.evwaitTimeout k) s = .next t ∧ t.cur = s.cur ∧ d ≤ t.clock ∧
      (t.cluster n).steward.wait = none ∧ (t.cluster n).steward.hart.pc = c.steward.hart.pc + 4 ∧
      (rd ≠ 0 → (t.cluster n).steward.hart.x[rd.toFin] = BitVec.ofNat 64 c.count)) ∧
    (∀ d fl, (s.slot sl).wait = .vwait (some d) fl → (s.slot sl).run = .asleep →
      ∃ t : State, exec (.vwaitTimeout sl) s = .next t ∧ (t.slot sl).run = .running ∧ d ≤ t.clock ∧ (t.slot sl).hart = (s.slot sl).hart)

/-- The end of an eviction (R187, R236, R237): a block that a trap stopped leaves without an image; any other, once nothing
of it is under way, has its image written, stands pending with it, and EVICTED is posted before the slot is free. The private
tile region of the image is the model's (log 42). -/
def Obligations.EvictionWritesImageAndFreesSlot : Prop :=
  ∀ (s u : State) (sl : SlotId) (va : Word), s.power = .on → (s.slot sl).evict = some va →
    let k := slotCluster sl
    let at_ := eventPA k (s.cluster k).tail
    s.eventRoom k = true →
    ((s.slot sl).halted = true → ∃ t : State, exec (.evictionComplete sl) s = .next t ∧ t.slot sl = {} ∧
      Memory.bytes t.mem at_ 32 = (s.slotEvent sl 10 va 1).bytes) ∧
    (let ends := s.modSlot sl fun x => { x with met := s.waitMet x x.wait, call := x.call.map fun c => { c with savedMet := s.waitMet x c.savedWait } }
     (s.slot sl).halted = false → s.draining sl = false → writeImage sl va ends = .ok () u → u.slots = ends.slots →
      ∃ t : State, exec (.evictionComplete sl) s = .next t ∧ t.slot sl = {} ∧
        (∃ p rest, (t.cluster k).pending = p :: rest ∧ p.image = some va ∧ p.wid = (s.slot sl).wid ∧ p.queue = (s.slot sl).queue) ∧
        t.mem = Memory.putAll u.mem (eventPA k (u.cluster k).tail) (u.slotEvent sl 10 va 0).bytes)

/-! ### The Dispatcher -/

/-- The Dispatcher's steps (R43, R131 - R141, R146, R510, R511): enabling and disabling a queue, its tail word, the next record
and its check, a completion record, the next unit sent, aging, PREEMPT, and held event records. A queue whose turn it is
not, a launch that cannot complete and a unit that is not next are left alone. That the accesses of a step are checked
before any is performed is the model's choice (log 48), as is the order among queues (log 47). -/
def Obligations.DispatcherSteps : Prop :=
  ∀ (s : State) (q : QId) (number : BitVec 32) (k : ClusterId) (head : Word), s.power = .on →
    let x := s.queue q
    let desc := Memory.bytes s.mem (queueDesc q) 64
    let w := (s.setEnableBit q true).modQueue q fun _ => queueOf desc
    (x.enabled = false → s.health.boot = 1 → s.health.jValid = true → descOk desc = true →
      ∀ u, readTail q w = .ok () u → exec (.launchQueueEnable q) s = .next u) ∧
    (x.enabled = false → s.health.boot = 1 → s.health.jValid = true → descOk desc = false → ∃ t : State,
      exec (.launchQueueEnable q) s = .next t ∧ (t.queue q).enabled = false ∧ (t.queue q).status = 1) ∧
    (x.enabled = false → s.health.boot = 1 → s.health.jValid = false → ∃ t : State,
      exec (.launchQueueEnable q) s = .next t ∧ (t.queue q).enabled = false ∧ (t.queue q).status = 2) ∧
    (∃ t : State, exec (.launchQueueDisable q) s = .next t ∧ (t.queue q).enabled = false ∧ (t.queue q).status = 0 ∧
      (t.queue q).park = none ∧ (Memory.get t.mem (queueDesc q + 0x0C)).getLsbD 0 = false) ∧
    (x.live = true → x.setup = false → ∀ ps s1 bs s2, dispLocate x.ctx false (cutGranules 2 x.tailVA 8) s = .ok ps s1 →
      Same s s1 → dispRead x.ctx x.tailVA 8 s1 = .ok bs s2 → Same s1 s2 →
      ∃ t : State, exec (.tailWordNotice q) s = .next t ∧ (t.queue q).tail = BitVec.ofNat 64 (natOfBytes bs) ∧ t.mem = s.mem) ∧
    (s.nextQueue ≠ some q → exec (.launchRecordConsume q) s = .next s) ∧
    (s.nextQueue = some q → x.setup = false → s.launchOf q x.next = none →
      let s0 : State := { s with disp := { s.disp with rr := s.disp.rr.set x.priority.toFin q } }
      let va := BitVec.ofNat 64 (x.ring + x.head.toNat % 2 ^ x.log2 * 128)
      ∀ d s1 sp s2 hp s3, dispRead x.ctx va 128 s0 = .ok d s1 → Same s0 s1 →
        dispLocate x.ctx true (cutGranules 2 va 8) s1 = .ok sp s2 → Same s1 s2 →
        dispLocate x.ctx true (cutGranules 2 x.headVA 8) s2 = .ok hp s3 → Same s2 s3 → s1.grade640S = s.grade640S →
        let no := s1.refusal d false 0
        ∃ (t : State) (l : Launch), exec (.launchRecordConsume q) s = .next t ∧ t.disp.launches = s.disp.launches ++ [l] ∧
          l.queue = q ∧ l.number = x.next ∧ l.lrec = recOf d ∧ l.refused = no ∧ (t.queue q).head = x.head + 1 ∧
          (t.queue q).number = x.next) ∧
    (x.live = true → s.health.busy = false → x.setup = false → x.completions < 2 ^ x.clog2 → ∀ l, s.completable q = some l →
      l.refused = none → l.parent = none →
      let va := BitVec.ofNat 64 (x.cring + x.ctail.toNat % 2 ^ x.clog2 * 128)
      ∀ rp s1 tp s2 sp s3, dispLocate x.ctx true (cutGranules 6 va 128) s = .ok rp s1 → Same s s1 →
        dispLocate x.ctx true (cutGranules 2 x.ctailVA 8) s1 = .ok tp s2 → Same s1 s2 →
        dispLocate l.ctx true (cutGranules 2 l.recVA 8) s2 = .ok sp s3 → Same s2 s3 →
        ∃ t : State, exec (.launchCompletion q) s = .next t ∧ (t.queue q).ctail = x.ctail + 1 ∧
          (∀ m ∈ t.disp.launches, ¬(m.queue = l.queue ∧ m.number = l.number))) ∧
    (s.completable q = none → exec (.launchCompletion q) s = .next s ∧
      ∃ t : State, exec (.completionHeadAdvance q head) s = .next t ∧ (t.queue q).chead = head ∧ t.disp.launches = s.disp.launches) ∧
    (∀ l u j, s.nextSend = some (l, u, j) → ¬(l.queue = q ∧ l.number = number ∧ j = k.toNat) → exec (.dispatchPlace q number k) s = .next s) ∧
    (∀ l u, s.nextSend = some (l, u, k.toNat) → l.queue = q → l.number = number →
      ∃ t : State, exec (.dispatchPlace q number k) s = .next t ∧
        (t.cluster k.toNat).pending.map (·.wid) = (s.cluster k.toNat).pending.map (·.wid) ++ u) ∧
    (∀ l, s.launchOf q number = some l → l.ready = true → l.refused = none → l.sent < l.lrec.blocks → l.level ≠ 3 → l.back = [] →
      ∃ t : State, exec (.agingTick (.unsent q number)) s = .next t ∧ l.since + Config.msClocks ≤ t.clock ∧ t.mem = s.mem ∧
        t.launchOf q number = some { l with level := l.level + 1, since := l.since + Config.msClocks, backAge := [] }) ∧
    (∀ p, (s.cluster k.toNat).pending.find? (fun p => p.queue == q && p.number == number && p.wid == head) = some p → p.level ≠ 3 →
      ∃ t : State, exec (.agingTick (.pending k q number head)) s = .next t ∧ p.since + Config.msClocks ≤ t.clock ∧ t.mem = s.mem ∧
        (t.cluster k.toNat).pending.getLast? = some { p with level := p.level + 1, since := p.since + Config.msClocks,
                                                             reached := p.since + Config.msClocks }) ∧
    (∀ l u level j, s.launchOf q number = some l → s.wantsPreempt l = some (u, level, j) → j < 32 →
      ∃ t : State, exec (.preemptSend q number) s = .next t ∧
        (t.cluster j).held.length + (t.cluster j).count =
          (s.cluster j).held.length + (s.cluster j).count + Max.max 1 (u.length / l.lrec.coreSize)) ∧
    (∀ e rest, (s.cluster k.toNat).held = e :: rest → (s.cluster k.toNat).count < 1024 →
      ∃ t : State, exec (.eventRecordPost k) s = .next t ∧ (t.cluster k.toNat).held = rest ∧
        (t.cluster k.toNat).tail = (s.cluster k.toNat).tail + 1 ∧
        Memory.bytes t.mem (eventPA k.toNat (s.cluster k.toNat).tail) 32 = e.bytes)

/-! ### The Innkeeper, the Porters and Crossroads -/

/-- Work that goes on after commit with nothing to do at commit but the room. -/
def GoesOn : TileOp → Prop
  | .load _ _ _ _ _ | .store _ _ _ _ _ | .copy _ | .zero _ | .coll _ _ _ _ _ | .mma _ _ _ _ _ | .discard _ _ => True
  | _ => False

/-- The Innkeeper's steps (R161 - R173, R355). TILE_COMMIT puts the uncommitted instruction, its room found, among the
committed work and moves the PC past its words. ROOM_ALLOCATE gives an uncommitted writer the lowest run of free chunks and
the next instance number. INSTANCE_RELEASE drops the instances that nothing needs. BRANCH_MISPREDICT_SQUASH leaves no effect
of an uncommitted instruction, save one that has bound its postings. FAILED_WRITE_RECORD keeps the first failed write.
DEN_NAMING settles a written register's name. -/
def InnkeeperResults : Prop :=
  ∀ (s : State) (sl : SlotId) (t : TileInstr) (r : TileRef) (e : Entry) (v : Reg) (f : FailedWrite), s.power = .on →
    let x := s.slot sl
    let b : BitVec 32 := 1#32 <<< v.toNat
    (x.atCommit = true → x.rob = some t → GoesOn t.op →
      let s0 : State := { s with cur := .block sl }
      ∀ w, fixedWait sl t s0 = .ok () s0 → (match t.td with | none => w = s0 | some r => allocRoom sl r s0 = .ok () w) →
        exec (.tileCommit sl) s = .next { ((w.modSlot sl fun y => y.commit t).retire (w.pc + 8)) with cur := s.cur }) ∧
    (x.atCommit = false → exec (.tileCommit sl) s = .next s) ∧
    (x.rob.bind (·.td) = some r → r.entry = some e.id → x.release.entry? e.id = some e → e.first = none →
      (x.release.entries.filter fun g => g.name == r.name && g.id != e.id && !g.fixed && g.first.isSome).length < recInstances r.shape →
      ∀ n, x.release.findRun e.id e.chunks = some n →
        ∃ u : State, exec (.roomAllocate sl) s = .next u ∧ u.mem = s.mem ∧ (u.slot sl).hart = x.hart ∧
          (u.slot sl).entry? e.id = some { e with first := some n, inst := x.nextInst[r.name.toFin].val } ∧
          (u.slot sl).nextInst[r.name.toFin] = x.nextInst[r.name.toFin] + 1) ∧
    (∃ u : State, exec (.instanceRelease sl) s = .next u ∧ u.mem = s.mem ∧ (u.slot sl).work = x.work ∧ (u.slot sl).hart = x.hart ∧
      ∀ g, g ∈ (u.slot sl).entries ↔
        (g ∈ x.entries ∧ (g.current = true ∨ x.readers g.id ≠ 0 ∨ g.pstate = .speculative ∨ g.pstate = .committed))) ∧
    (s.boundSend sl = true → exec (.branchMispredictSquash sl) s = .next s) ∧
    (s.boundSend sl = false → x.rob = some t → ∃ u : State, exec (.branchMispredictSquash sl) s = .next u ∧ u.mem = s.mem ∧
      (u.slot sl).rob = none ∧ (u.slot sl).work = x.work ∧ (u.slot sl).hart = x.hart ∧
      ∀ g, g ∈ (u.slot sl).entries ↔ (g ∈ x.entries ∧ t.td.bind (·.entry) ≠ some g.id)) ∧
    (x.run ≠ .empty → ∃ u : State, exec (.failedWriteRecord sl f) s = .next u ∧ u.mem = s.mem ∧ (u.slot sl).hart = x.hart ∧
      (u.slot sl).failed = some (x.failed.getD f)) ∧
    (x.run ≠ .empty → ∃ u : State, exec (.denNaming sl v) s = .next u ∧ u.mem = s.mem ∧ (u.slot sl).vregs = x.vregs ∧
      (u.slot sl).naming = x.naming &&& ~~~b ∧
      (x.naming.getLsbD v.toNat = true → (∀ d ∈ (s.core (slotCore sl)).dens, d.ctx ≠ x.ctx) → (u.slot sl).named = x.named ||| b ∧
        ∃ d ∈ (u.core (slotCore sl)).dens, d.ctx = x.ctx ∧ d.val = x.vregs[v.toFin]))

/-- MICRO_OP_ISSUE (R174, R221): the slot that an engine's pointer stands at issues the micro-operation it has ready, and one
issue less is left to it; where what it has ready is the vector word that it executes next, its own turn issues it. A core that
is gone issues nothing. -/
def IssueResults : Prop :=
  ∀ (s u : State) (c : CoreId) (eng : Engine) (n : BitVec 2) (left : Nat), s.power = .on →
    let k := c.toNat
    (s.coreGone k = true → exec (.microOpIssue c eng) s = .next s) ∧
    (s.coreGone k = false → (s.core k).issue[engineIx eng] = (n, left + 1) → (eng, n) ∉ (s.core k).forfeit →
      s.readyFor eng (slotOf k n.toNat) = true →
      let t := s.modCore k fun y => { y with issue := y.issue.set (engineIx eng) (n, left) }
      (t.issueOf eng (slotOf k n.toNat) = some u → exec (.microOpIssue c eng) s = .next u) ∧
      (t.issueOf eng (slotOf k n.toNat) = none → exec (.microOpIssue c eng) s = .next s))

/-- The steps of a Porter (R167, R240, R241, R255 - R257, R266 - R270). PORTER_COMMAND_START starts a command whose turn it is;
a chunk of a TZERO is zeroed, becomes ready and is done; a drained command without signals or event leaves and its
instruction finishes; a refill reads the next elements of its stream; PCTL_WRITE keeps a running Porter's image and starts a
stopped one on the one it names; the signal primitive of a firmware collective adds to the departures. -/
def Obligations.PorterResults : Prop :=
  ∀ (s u : State) (k : ClusterId) (c : Cmd) (n : Nat) (d : TileRef) (e : Entry) (v : Word) (sl : SlotId) (kq : BitVec 3),
    s.power = .on →
    let p := (s.cluster k.toNat).porter
    (p.fenced = false → (s.startable k.toNat).find? (fun m => m.id == c.id) = some c → s.cmd? k.toNat c.id = some c →
      ∃ t : State, exec (.porterCommandStart k c.id) s = .next t ∧ t.cmd? k.toNat c.id = some { c with started := true } ∧
        (t.cluster k.toNat).porter.rr = BitVec.ofNat 3 (slotCore c.slot % 8) ∧ t.mem = s.mem ∧ t.slots = s.slots) ∧
    (s.cmd? k.toNat c.id = some c → c.canPart n = true → c.instr.op = .zero c.instr.ev → c.instr.td = some d → d.entry = some e.id →
      recRemote d.shape = false → c.instr.ta = none → c.instr.pbs = [] → c.instr.ranges = [] → (s.slot c.slot).entry? e.id = some e → n < recChunks d.shape →
      let len := Min.min 512 (recFootprint d.shape - n * 512)
      let at_ := scratchPA (slotCore c.slot) (e.first.getD 0 * 512 + n * 512)
      ∃ t : State, exec (.chunkComplete k c.id n) s = .next t ∧ t.mem = Memory.putAll s.mem at_ (List.replicate len 0) ∧
        t.cmd? k.toNat c.id = some { c with todo := c.todo.filter (· != n), skip := 0, part := 0, park := none } ∧
        (t.slot c.slot).entry? e.id = some { e with ready := e.ready ||| (1#256 <<< n) }) ∧
    (s.cmd? k.toNat c.id = some c → c.canEnd = true → c.stopped = none → c.instr.pbs = [] → c.instr.ev = false →
      s.anyHeld c.slot (fun h => h.cmd == some (k.toNat, c.id)) = false →
      ∃ t : State, exec (.copyComplete k c.id) s = .next t ∧ t.mem = s.mem ∧
        (t.cluster k.toNat).porter.cmds = p.cmds.filter (fun m => m.id != c.id) ∧
        (∀ i ∈ (t.slot c.slot).work, i.id ≠ c.instr.id) ∧ (t.slot c.slot).hart = (s.slot c.slot).hart) ∧
    (let x := s.slot sl
     let q := x.streams[kq.toFin]
     let more := s.refillCount sl q
     let mine (m : Cmd) : Bool := m.slot == sl && m.src == .refill kq
     let s0 := (List.range 32).foldl (fun s j => s.modCmds j fun l => l.filter fun m => !mine m) s
     ∀ j, more ≠ 0 → x.run ≠ .empty → x.work = [] → (∀ i < 32, ∀ m ∈ (s.cluster i).porter.cmds, m.slot = sl → m.src = .refill kq → m.park = none) →
       s0.servingPorter (slotCluster sl) = some j → (s0.cluster j).porter.runs = true → (s0.cluster j).porter.roomFor j (slotCore sl) = true →
       refillElems j sl kq more (s0.handOver j (refillCmd sl kq x.hart.pc)) = .ok () u →
       exec (.streamRefill sl kq) s = .next (u.modCmds j fun l => l.filter fun m => !mine m) ∧ (u.slot sl).streams[kq.toFin].filled = q.filled + BitVec.ofNat 64 more) ∧
    (p.cmds = [] → s.health.boot = 1 → ∃ t : State, exec (.pctlWrite k v) s = .next t ∧ t.mem = s.mem ∧
      let w := (t.cluster k.toNat).porter
      w.run = v.getLsbD 0 ∧ w.custom = (if p.running then p.custom else v.getLsbD 1) ∧ w.ctx = v.extractLsb' 16 16 ∧
      w.image = v.extractLsb' 32 16 ∧ w.cmds = [] ∧ (v.getLsbD 0 = true → p.running = false → v.getLsbD 1 = false → w.fwops = 0)) ∧
    (∀ (prim : Primitive) (j : BitVec 3) (h par : Word) (hint : Hint) (a : TileRef), s.cmd? k.toNat c.id = some c →
      p.runs = true → p.custom = true → c.started = true → c.park = none → c.stopped = none → viaCrossroads c.slot a.shape = false →
      c.instr.op = .coll hint c.instr.ev (.fw j) h par → c.instr.ta = some a → c.instr.td = some d →
      (fwPrimitive k.toNat c h par a d prim s = .ok () u → exec (.porterDatapathPrimitive k c.id prim) s = .next u) ∧
      (∀ w, agentAdd (.porter k) (porterSrc k.toNat) (s.slot c.slot).ctx (c.slot, c.failedWrite (some (h + 8)))
          (h + 8) 1 s = .ok () w →
        exec (.porterDatapathPrimitive k c.id .signal) s = .next w))

/-- Crossroads (R273, R278, R282). In a slot that one issued TSEND claims, up to 16 of its chunks are driven; a slot that no
launch owns serves the remote requests of the next core in turn, and a chunk's bytes stand in the reader's operand buffer;
every slot moves the frame on. A remote chunk request joins the others of its cluster. -/
def CrossroadsResults : Prop :=
  ∀ (s : State) (k : ClusterId) (r : RemoteReq) (rest : List RemoteReq) (m : Send) (a : TileRef), s.power = .on →
    (s.cluster k.toNat).fenced = false →
    let x := (s.cluster k.toNat).xr
    let n := x.frame % 64
    (x.sends = [m] → m.issued = true → s.sentTile m = some a → m.mask.getLsbD n = true → m.next < recChunks a.shape →
      (∀ tr, s.sendOperands m ≠ .stop tr) →
      let j := (s.drivable m a).length
      (recRemote a.shape = false → j = Min.min 16 (recChunks a.shape - m.next)) ∧
      ∃ t : State, exec (.crossroadsSlot k) s = .next t ∧ (t.cluster k.toNat).xr.frame = x.frame + 1 ∧
        (t.cluster k.toNat).xr.sends = (if recChunks a.shape ≤ m.next + j then [] else [{ m with next := m.next + j }])) ∧
    (x.sends = [] → (s.ownedSlots k.toNat).getLsbD n = false → x.remote = r :: rest → (∀ q ∈ rest, q.owner = r.owner) →
      ∃ t : State, exec (.crossroadsSlot k) s = .next t ∧ (t.cluster k.toNat).xr.frame = x.frame + 1 ∧ t.mem = s.mem ∧
        (t.cluster k.toNat).xr.rr = r.owner ∧ r ∉ (t.cluster k.toNat).xr.remote ∧
        (⟨r.reader, r.instr, r.owner.toNat, r.chunk, BitVec.ofNat 4096
          (Memory.nat s.mem (scratchPA (k.toNat * 8 + r.owner.toNat) (r.chunk * 512)) 512)⟩ : OpChunk) ∈ (t.core (slotCore r.reader)).opbuf) ∧
    (x.sends = [] → (s.ownedSlots k.toNat).getLsbD n = true →
      ∃ t : State, exec (.crossroadsSlot k) s = .next t ∧ (t.cluster k.toNat).xr = { x with frame := x.frame + 1 } ∧ t.slots = s.slots ∧
        t.mem = s.mem) ∧
    (slotCluster r.reader = k.toNat → s.coreGone (k.toNat * 8 + r.owner.toNat) = false → r ∈ s.wantedRemote r.reader →
      ∃ t : State, exec (.remoteChunkRequest k r) s = .next t ∧ (t.cluster k.toNat).xr.remote = x.remote ++ [r] ∧ t.mem = s.mem ∧
        t.slots = s.slots)

/-! ### The fabric, the walkers, the host -/

/-- A request that its slice takes in order now, ahead of which nothing waits; its source may have one more unanswered. -/
def Admits (s : State) (i : SliceId) (r : Request) : Prop :=
  sliceServes i r.pa = true ∧ 0 < reqLen r.op ∧ r.pa % 32 + reqLen r.op ≤ 32 ∧ (s.slice i.toNat).ahead r = 0 ∧
    (s.slice i.toNat).ingress = [] ∧ (s.slice i.toNat).waiting = [] ∧ r.lost = false ∧ (∀ e ∈ (s.slice i.toNat).mshr, e.1 ≠ lineOf r.pa) ∧ s.asked i.toNat r.src < 1024

/-- A granule that nothing keeps a request of a source from: its channel serves, its data is good, no snoop of its line holds its
place and the host does not own it. -/
def Serves (s : State) (src : Nat) (pa : Nat) : Prop :=
  s.unreachable pa 0 = false ∧ s.pathFenced pa = false ∧ s.corrupt pa = false ∧
    (s.snoops.find? fun x => x.line == pa / 64 && x.holds (waiterOf src) s.clock) = none ∧ s.hostOwned pa = false

/-- The slices (R403 - R407, R429, R494). SLICE_REQUEST_ADMIT performs a request in sequence order: a whole write stores its
bytes, raises the granule's order counter and answers with it as tag; a read that hits answers with the bytes; an atomic
stores the new value and answers with the old, and counts even where its comparison fails; a duplicate gets its kept acknowledgement again and does nothing. A miss
waits for its fill, and COLUMN_LINE_FILL performs what waits. STORE_ACK and LOAD_REPLY take the answer to its source, which
drops its copy; REQUEST_RESEND sends an unanswered one again; PATH_REPORT fences the unit that fails. -/
def Obligations.SliceResults : Prop :=
  ∀ (s : State) (i : SliceId) (r : Request) (bs : List Byte) (n : Nat) (op : AmoOp) (w : AWidth) (v : Word) (p : Reply)
    (rest : List Reply) (src : Nat) (seq : BitVec 16) (un : Unanswered) (c : UnitCode), s.power = .on →
    let x := s.slice i.toNat
    let y (t : State) : Slice := t.slice i.toNat
    let next (t : State) : Prop := Tbl.get 0 (y t).expected r.src = r.seq + 1
    let ctr := (s.granule (r.pa / 32)).ctr
    (Admits s i r → Serves s r.src r.pa → r.op = .write bs → bs.length = 32 →
      ∃ t : State, exec (.sliceRequestAdmit i r) s = .next t ∧ t.mem = Memory.putAll s.mem r.pa bs ∧ next t ∧
        (y t).replies = x.replies ++ [⟨r.src, r.seq, some (ctr + 1), [], none⟩] ∧ (t.granule (r.pa / 32)).ctr = ctr + 1) ∧
    (Admits s i r → Serves s r.src r.pa → lineOf r.pa ∈ x.resident →
      (r.op = .read n → ∃ t : State, exec (.sliceRequestAdmit i r) s = .next t ∧ t.mem = s.mem ∧ next t ∧
        (y t).replies = x.replies ++ [⟨r.src, r.seq, none, Memory.bytes s.mem r.pa n, none⟩]) ∧
      (r.op = .amo op w v → ∃ t : State, exec (.sliceRequestAdmit i r) s = .next t ∧ next t ∧
        let k := awidthBytes w
        let old := Memory.nat s.mem r.pa k
        t.mem = Memory.putAll s.mem r.pa (bytesOfNat k (amoNew op k old v.toNat)) ∧
        (y t).replies = x.replies ++ [⟨r.src, r.seq, some (ctr + 1), bytesOfNat k old, none⟩]) ∧
      (∀ e new, r.op = .cas n e new → ∃ t : State, exec (.sliceRequestAdmit i r) s = .next t ∧ next t ∧
        let old := Memory.nat s.mem r.pa n
        t.mem = Memory.putAll s.mem r.pa (bytesOfNat n (if old = e then new else old)) ∧ (t.granule (r.pa / 32)).ctr = ctr + 1 ∧
        (y t).replies = x.replies ++ [⟨r.src, r.seq, some (ctr + 1), bytesOfNat n old, none⟩])) ∧
    (Admits s i r → r.op = .read n → r.hint = .normal → x.fenced = false → lineOf r.pa ∉ x.resident → x.mshr.length < 256 →
      ∃ t : State, exec (.sliceRequestAdmit i r) s = .next t ∧ t.mem = s.mem ∧ next t ∧ (y t).replies = x.replies ∧
        (y t).mshr = x.mshr ++ [(lineOf r.pa, [r])]) ∧
    (sliceServes i r.pa = true → r.lost = false → r.op = .write bs → bs ≠ [] → r.pa % 32 + bs.length ≤ 32 → x.ingress = [] → x.ahead r < 0 →
      (x.kept.filter fun q => !(q.src == r.src && decide ((q.seq - r.oldest).toInt < 0))).find?
        (fun q => q.src == r.src && q.seq == r.seq) = some p →
      ∃ t : State, exec (.sliceRequestAdmit i r) s = .next t ∧ t.mem = s.mem ∧ (y t).replies = x.replies ++ [p] ∧
        (y t).expected = x.expected) ∧
    (sliceServes i r.pa = true → x.mshr = [(lineOf r.pa, [r])] → x.waiting = [] → Serves s r.src r.pa → r.op = .read n →
      ∃ t : State, exec (.columnLineFill i (lineOf r.pa)) s = .next t ∧ t.mem = s.mem ∧ (y t).mshr = [] ∧
        (y t).replies = x.replies ++ [⟨r.src, r.seq, none, Memory.bytes s.mem r.pa n, none⟩]) ∧
    (x.replies = p :: rest →
      let ends (e : Instr) : Prop := ∃ t : State, exec e s = .next t ∧ (y t).replies = rest ∧ t.mem = s.mem ∧
        (∀ u ∈ t.unanswered, ¬(u.slice = i ∧ u.req.src = p.src ∧ u.req.seq = p.seq))
      (p.tag ≠ none → ends (.storeAck i)) ∧ (p.tag = none → ends (.loadReply i))) ∧
    (s.copyOf i src seq = some un →
      (∃ t : State, exec (.requestResend i src seq) s = .next t ∧ un.deadline ≤ t.clock ∧
        ({ un with resends := un.resends + 1, deadline := Max.max s.clock un.deadline + sourceWait } : Unanswered) ∈ t.unanswered) ∧
      (4 ≤ un.resends → un.reported = false → s.pathUnit i src c = true → codeOk c = true → s.isFenced c = false → s.health.busy = false →
        ∃ t : State, exec (.pathReport i src seq (some c)) s = .next t ∧ c ∈ t.health.fenced) ∧
      (4 ≤ un.resends → un.reported = false → ∃ t : State, exec (.pathReport i src seq none) s = .next t ∧ t.health.busy = true) ∧
      (un.resends < 4 ∨ un.reported = true → exec (.pathReport i src seq (some c)) s = .next s))

/-- Watches, window ports, instruction lines (R29, R133, R224, R331, R336, R414). A notice, or a poll after 1 us, lets a block
that sleeps in VWAIT on that granule run again and posts WAKE. A write at a window port stores its bytes; one into a stream
inbound queue fills free bytes of the queue, or is held; a read changes nothing. A line fill installs the 64 bytes of its
line. -/
def WatchAndWindowResults : Prop :=
  ∀ (s : State) (sl : SlotId) (nt : Notice) (rest : List Notice) (wt : Watch) (d : Option Nat) (fl : List (Nat × Nat × WCond × Nat))
    (a : WinAccess) (bs : List Byte) (c : CoreId) (f : LineFill), s.power = .on →
    let x := s.slot sl
    let k := slotCluster sl
    let wakes (e : Instr) (pa : Nat) (u : State → Prop) : Prop := ∃ t : State, exec e s = .next t ∧ (t.slot sl).run = .running ∧
      (t.slot sl).hart = x.hart ∧ (t.cluster k).tail = (s.cluster k).tail + 1 ∧
      Memory.bytes t.mem (eventPA k (s.cluster k).tail) 32 = (s.slotEvent sl 7 (BitVec.ofNat 64 pa) 0).bytes ∧
      (∀ w ∈ t.watches, w.who ≠ .slot sl) ∧ u t
    (x.wait = .vwait d fl → x.run = .asleep → x.call = none → s.eventRoom k = true →
      (s.notices = nt :: rest → nt.who = .slot sl → nt.pa / 32 ∈ x.wait.granules → wakes .watchNotice nt.pa fun t => t.notices = rest.filter fun m => m.who != .slot sl) ∧
      (s.watches.find? (fun y => y.who == .slot sl && y.polls) = some wt → wt.gran ∈ x.wait.granules →
        wakes (.watchPoll (.slot sl)) (wt.gran * 32) fun t => t.clock = s.clock + Config.usClocks)) ∧
    (a.data = none → exec (.windowPortAccess a) s = .next s) ∧
    (let b := bs.take a.n
     a.data = some bs → s.coreGone a.core.toNat = false → b ≠ [] → a.off % 32 + b.length ≤ 32 →
      (a.off < 0xC0000 → ∃ t : State, exec (.windowPortAccess a) s = .next t ∧
        t.mem = Memory.putAll s.mem (coreBase a.core.toNat + a.off) b) ∧
      (∀ (n : Nat) (j : Fin 8) (o : Nat), winPart a.off = .stream n j.val o →
        let sl' := slotOf a.core.toNat n
        let q := (s.slot sl').streams[j]
        s.streamRefuses sl' j.val = false →
        (bits q.written.toNat o b.length = 0 → ∃ t : State, exec (.streamInboundWrite a) s = .next t ∧ t.mem = s.mem ∧
          (t.slot sl').streams[j] = { q with data := putBits q.data o b, written := markBits q.written o b.length }) ∧
        (bits q.written.toNat o b.length ≠ 0 → ∃ t : State, exec (.streamInboundWrite a) s = .next t ∧ t.mem = s.mem ∧
          (t.slot sl').streams[j].held.length = q.held.length + 1 ∧ (t.slot sl').streams[j].data = q.data))) ∧
    (∀ (from_ : SlotId) (home : Nat), (s.core c.toNat).fills.find? (fun y => y.1 == f) = some (f, from_, home) →
      (∀ g ∈ [f.pa, f.pa + 32], s.corrupt g = false ∧ s.pathFenced g = false ∧ s.unreachable g home = false ∧
        s.gateOpen (corePort c.toNat (g / 32 % 16)) g = true) →
      ∃ t : State, exec (.icacheFill c f) s = .next t ∧ t.mem = s.mem ∧
        (t.core c.toNat).icache = icInstall (s.core c.toNat).icache ⟨f.set, f.pa, BitVec.ofNat 512 (Memory.nat s.mem f.pa 64)⟩ ∧
        (t.core c.toNat).fills.length + 1 = (s.core c.toNat).fills.length)

/-- The walkers (R434 - R445). A miss that no walk under way matches, one of at most 32 of its source, takes a free walker at the
table that the walk caches give, or at its context entry, as level 6 of the model; while all 64 are taken it joins the queue. A
walk reads its next entry: the context entry gives the root, a pointer moves it one level down, a leaf that may be used ends
it. -/
def WalkResults : Prop :=
  ∀ (s : State) (die : Bool) (w : WalkReq) (lv table n : Nat) (x : Walk), s.power = .on →
    let d := dieNum die
    let l := Tbl.get [] s.walks d
    let queue := Tbl.get [] s.walkQueue d
    let root := s.ctxBase.toNat * 4096
    let reads (pa : Nat) : Prop := s.health.retired.contains (channelOf pa) = false ∧ s.pathFenced pa = false ∧
      s.corrupt pa = false ∧ s.gateOpen (walkSource x.req.src) pa = true
    let fetch := decide (w.acc = .fetch ∨ w.acc = .ipref)
    (WalkSrcDie w.src = d → s.walkPending d w.ctx w.va.toNat = false →
      ((l.map (·.req) ++ queue).filter fun y => y.src == w.src).length < 32 →
      w.va.toNat < 2 ^ 57 → (s.tlbLookup w.src fetch w.ctx w.va.toNat).1 = none →
      (64 ≤ l.length → ∃ t : State, exec (.pageWalkStart die w) s = .next t ∧ Tbl.get [] t.walkQueue d = queue ++ [w] ∧
        t.walks = s.walks ∧ t.mem = s.mem) ∧
      (l.length < 64 → queue = [] → s.ctxEnable = true → root < Config.hbmEnd →
        (s.walkHit d w.ctx w.va.toNat).getD (6, 0) = (lv, table) →
        ∃ t : State, exec (.pageWalkStart die w) s = .next t ∧ Tbl.get [] t.walks d = l ++ [⟨w, lv, table, false, false⟩] ∧
          Tbl.get [] t.walkQueue d = [] ∧ t.mem = s.mem) ∧
      (l.length < 64 → queue = [] → s.ctxEnable = false →
        ∃ t : State, exec (.pageWalkStart die w) s = .next t ∧ t.walks = s.walks ∧ t.mem = s.mem)) ∧
    (l[n]? = some x → x.level = 6 →
      let pa := root + 8 * x.req.ctx.toNat
      let e := BitVec.ofNat 64 (Memory.nat s.mem pa 8)
      (Tbl.get [] s.ctxCache d).find? (fun y => y.1 == x.req.ctx) = none → reads pa →
      e.getLsbD 0 = true → bits e.toNat 1 11 = 0 → bits e.toNat 52 12 = 0 →
      ∃ t : State, exec (.pageWalkEntryRead die n) s = .next t ∧ t.mem = s.mem ∧
        (Tbl.get [] t.walks d)[n]? = some { x with level := 5, table := ptePA e, big := false } ∧
        (Tbl.get [] t.ctxCache d).head? = some (x.req.ctx, ptePA e)) ∧
    (l[n]? = some x → x.level ≠ 6 →
      let pa := x.table + 8 * levelIndex x.level x.big x.req.va.toNat
      let p := BitVec.ofNat 64 (Memory.nat s.mem pa 8)
      reads pa → pteV p = true → pteReserved x.level x.big p = false →
      (pteL p = false → ptePA p < Config.hbmEnd → ∃ t : State, exec (.pageWalkEntryRead die n) s = .next t ∧ t.mem = s.mem ∧
        (Tbl.get [] t.walks d)[n]? = some { x with level := x.level - 1, table := ptePA p, big := pteT p }) ∧
      (pteL p = true → ptePermits p x.req.acc = true → pteA p = true →
        let e := leafEntry x.req.ctx x.req.va.toNat x.level x.big p pa
        let u : Use := { acc := x.req.acc, who := WalkSrcMaker x.req.src }
        leafCheck s u x.req.va (entryLoc e x.req.va.toNat) = none → ordBad u p = false → queue = [] →
        ∃ t : State, exec (.pageWalkEntryRead die n) s = .next t ∧ t.mem = s.mem ∧ Tbl.get [] t.walks d = l.eraseIdx n))

/-- Snoops, host lines and requests of the host (R412, R413, R480 - R484). The host's answer to a snoop merges its data first
and, after BISnpInv, clears the ownership of the line; an unanswered snoop is sent again and fails at 1 ms with a log entry.
A line that the host takes leaves the port's cache with a notice to its watchers; a granted line joins it, with the bytes that the
host's own writes have given it where no port held it. A CXL.mem request goes to the device address that the port's HDM decoder
gives: a read gives the bytes and marks a line that the host may cache; a write stores them; an address outside HBM is answered
with an error. BAR0 reads and writes what the windows give; BAR2 holds the decoder's base, at an offset that is the model's
choice (log 55). -/
def Obligations.HostLineResults : Prop :=
  ∀ (s : State) (p : Bool) (line : Nat) (x : Snoop) (data : Option (BitVec 512)) (own : Bool) (r : HostReq) (bs : List Byte) (h : Nat),
    s.power = .on →
    let pn := portNum p
    let y := s.port pn
    let hdm := y.hdmBase.toNat
    let a := r.addr - hdm
    let answers (e : Instr) (at_ : Nat) (d : Option (List Byte)) (m : Memory) (also : State → Prop) : Prop :=
      ∃ t : State, exec e s = .next t ∧ (t.port pn).replies = y.replies ++ [(at_, d)] ∧ t.mem = m ∧ also t
    let free (n : Nat) : Prop := ∀ c ∈ hostParts a n, s.queuedAt c.1 = false ∧ ∀ e ∈ (s.slice (sliceOf c.1)).mshr, e.1 ≠ lineOf c.1
    (s.snoops.find? (fun z => z.line == line && !z.answered && !z.failed) = some x → line * 64 + 64 ≤ Config.hbmEnd →
      (∀ pa ∈ [line * 64, line * 64 + 32], ∀ e ∈ (s.slice (sliceOf pa)).mshr, e.1 ≠ lineOf pa) →
      (∃ t : State, exec (.bisnpResponse line data) s = .next t ∧
        t.mem = (match data with | some d => Memory.putAll s.mem (line * 64) (bytesOfNat 64 d.toNat) | none => s.mem) ∧
        (x.inv = true → (t.granule (2 * line)).owned = false ∧ (t.granule (2 * line + 1)).owned = false) ∧
        (x.who < settleWaiter 0 → { x with answered := true } ∈ t.snoops) ∧ (settleWaiter 0 ≤ x.who → x ∉ t.snoops)) ∧
      (let sent := x.deadline - Config.msClocks
       (s.clock < sent + 100 * Config.usClocks → exec (.snoopTimeout line) s = .next { s with clock := sent + 100 * Config.usClocks }) ∧
       (sent + 100 * Config.usClocks ≤ s.clock → s.health.log.enabled = false →
        ∃ t : State, exec (.snoopTimeout line) s = .next t ∧ x.deadline ≤ t.clock ∧ { x with failed := true } ∈ t.snoops ∧ t.mem = s.mem ∧
          t.health.log.held = s.health.log.held ++ [logEntry t (portCode (hbmDie (line * 64))) 6 0 (line * 64)]))) ∧
    ((∃ z ∈ y.lines, z.line = line) → ∃ t : State, exec (.hostCacheSnoop p line) s = .next t ∧
      (t.port pn).lines = y.lines.filter (fun z => z.line != line) ∧ t.mem = s.mem ∧
      ∀ w ∈ s.watches, w.polls = false → w.gran = 2 * line ∨ w.gran = 2 * line + 1 → (⟨w.who, w.gran * 32⟩ : Notice) ∈ t.notices) ∧
    ((∀ z ∈ y.lines, z.line ≠ line) → regionOf (line * 64) = .host h → ∃ t : State, exec (.hostLineGrant p line ⟨own, data⟩) s = .next t ∧
      (t.port pn).lines.head? = some { line := line, owned := own, dirty := false, ctrs := (0, 0) } ∧
      (data = none → t.mem = s.mem) ∧
      (∀ v, data = some v → (∀ z ∈ (s.port (1 - pn)).lines, z.line ≠ line) →
        t.mem = Memory.putAll s.mem (line * 64) (bytesOfNat 64 v.toNat))) ∧
    (s.portUp pn = true → s.health.boot = 1 → y.waiting.length < 1024 →
      (r.data = none → 0 < r.n → hdm ≤ r.addr → a % 64 + r.n ≤ 64 → a < Config.hbmEnd → free r.n →
        (∀ c ∈ hostParts a r.n, s.hostBad c.1 false = false) →
        answers (.hostMemRequest p r) a (some (Memory.bytes s.mem a r.n)) s.mem fun t =>
          r.cacheable = true → (t.granule (2 * (a / 64))).owned = true ∧ (t.granule (2 * (a / 64) + 1)).owned = true) ∧
      (r.data = some bs → bs ≠ [] → hdm ≤ r.addr → a % 64 + bs.length ≤ 64 → a < Config.hbmEnd → free bs.length →
        (∀ c ∈ hostParts a bs.length, s.hostBad c.1 (c.2 == 32) = false) →
        answers (.hostMemRequest p r) a (some []) (Memory.putAll s.mem a bs) fun _ => True) ∧
      (r.addr < hdm ∨ Config.hbmEnd ≤ a → answers (.hostMemRequest p r) r.addr none s.mem fun _ => True)) ∧
    (s.portUp pn = true → r.bar2 = true → r.atomicTlp = false → r.data = some bs → r.addr = Config.hdmOffset → bs.length = 8 →
      ∃ t : State, exec (.bar0Access p r) s = .next t ∧ (t.port pn).hdmBase = BitVec.ofNat 64 (natOfBytes bs) ∧ t.mem = s.mem) ∧
    (s.portUp pn = true → r.data = none →
      (r.atomicTlp = true → answers (.bar0Access p r) r.addr none s.mem fun _ => True) ∧
      (r.bar2 = false → r.atomicTlp = false → 0 < r.n → r.addr % 32 + r.n ≤ 32 → r.addr < 0x12100000 → s.reachesAll (Config.coreWin + r.addr) r.n = true →
        s.ioRead (Config.coreWin + r.addr) r.n = .ok bs → answers (.bar0Access p r) r.addr (some bs) s.mem fun _ => True)) ∧
    (s.portUp pn = true → r.bar2 = false → r.data = some bs → bs ≠ [] → r.atomicTlp = false → r.addr % 0x100000 < 0x80000 → r.addr < 0x10000000 →
      r.addr % 32 + bs.length ≤ 32 → s.health.boot = 1 → s.coreGone (r.addr / 0x100000) = false →
      ∃ t : State, exec (.bar0Access p r) s = .next t ∧ t.mem = Memory.putAll s.mem (Config.coreWin + r.addr) bs ∧ t.ports = s.ports)

/-! ### Base dies, settles, counters, the Ferry -/

/-- Requests of a base die (R410, R450 - R460). A READ answers with the bytes that the die holds of a granule, its order counter
and zero mark; a WRITE merges its bytes under its mask and takes its counter; a DISCARD marks the granule zero; under a granule
that is dirty in its slice both change the die's copy only; uncorrectable data answers DECODE, a channel that does not serve its
own fault; a request whose tag is not free is not made. A sector request is answered from the buffer, joins the decode of its
stripe, is queued while there is room, and else held; one of the four decodes under way ends and answers all that joined it; one
of the completions leaves. -/
def BaseRequestResults : Prop :=
  ∀ (s : State) (b : BaseId) (r : BaseReq) (c : Cause) (tag stripe : Nat) (col : BitVec 4) (v : BitVec 4096)
    (who : List (Nat × BitVec 4)), s.power = .on →
    let x := s.base b.toNat
    let y (t : State) : BaseDie := t.base b.toNat
    let pa := reqGran r
    let g := s.granule (pa / 32)
    let held := s.dram (pa / 32)
    let lost := held.2 && r.mask != 0xFFFFFFFF
    let i := sliceOf r.pa
    let rd := x.tagFree i false r.tag
    let wr := x.tagFree i true r.tag
    (rd = false → exec (.baseRead b r) s = .next s) ∧
    (wr = false → exec (.baseWrite b r) s = .next s ∧ exec (.baseDiscard b r) s = .next s) ∧
    (baseServes b r.pa = true → s.channelFault r.pa = some c →
      let lost (w : Bool) (e : Instr) : Prop := ∃ t : State, exec e s = .next t ∧ t.mem = s.mem ∧
        (y t).done = x.done ++ [⟨r.tag, 0, 0, false, some (c, 0), i, w⟩]
      (rd = true → lost false (.baseRead b r)) ∧ (wr = true → lost true (.baseWrite b r) ∧ lost true (.baseDiscard b r))) ∧
    (baseServes b r.pa = true → s.channelFault r.pa = none →
      (rd = true → ∃ t : State, exec (.baseRead b r) s = .next t ∧ t.mem = s.mem ∧ t.gran = s.gran ∧ (y t).done = x.done ++
        [if held.2 then ⟨r.tag, 0, 0, false, some (.decode, 0), i, false⟩
         else ⟨r.tag, if g.zero then 0 else BitVec.ofNat 256 (natOfBytes held.1), g.ctr, g.zero, none, i, false⟩]) ∧
      (wr = true → ∃ t : State, exec (.baseWrite b r) s = .next t ∧
        (y t).done = x.done ++ [⟨r.tag, 0, r.ctr, false, if lost then some (.decode, 0) else none, i, true⟩] ∧ (lost = true → t.mem = s.mem) ∧
        (lost = false → g.below.isSome = true → t.mem = s.mem ∧
          (t.granule (pa / 32)).below = some (BitVec.ofNat 256 (natOfBytes (mergeMask held.1 r)), false)) ∧
        (lost = false → g.below = none → (t.granule (pa / 32)).ctr = r.ctr ∧ (t.granule (pa / 32)).zero = false ∧
          (∀ a, a < pa ∨ pa + 32 ≤ a → Memory.get t.mem a = Memory.get s.mem a) ∧
          ∀ i < 32, Memory.get t.mem (pa + i) =
            if r.mask.getLsbD i then r.data.extractLsb' (8 * i) 8 else Memory.get s.mem (pa + i))) ∧
      (wr = true → ∃ t : State, exec (.baseDiscard b r) s = .next t ∧ (y t).done = x.done ++ [⟨r.tag, 0, r.ctr, false, none, i, true⟩] ∧
        (g.below.isSome = true → t.mem = s.mem ∧ (t.granule (pa / 32)).below = some (0, false)) ∧
        (g.below = none → t.mem = Memory.putAll s.mem pa (zeros 32) ∧ (t.granule (pa / 32)).zero = true ∧
          (t.granule (pa / 32)).ctr = r.ctr))) ∧
    (baseServes b (stripe * 512) = true → x.tagFree (sectorSlice stripe col) false tag = true →
      (x.buffer.find? (fun e => e.1 == stripe) = some (stripe, v) → ∃ t : State, exec (.baseSector b tag stripe col) s = .next t ∧
        t.mem = s.mem ∧ (y t).done = x.done ++ [⟨tag, v.extractLsb' (256 * col.toNat) 256, 0, false, none, sectorSlice stripe col, false⟩]) ∧
      ((∀ e ∈ x.buffer, e.1 ≠ stripe) →
        (x.sectors = [(stripe, who)] → ∃ t : State, exec (.baseSector b tag stripe col) s = .next t ∧ t.mem = s.mem ∧
          (y t).done = x.done ∧ (y t).sectors = [(stripe, who ++ [(tag, col)])]) ∧
        ((∀ e ∈ x.sectors, e.1 ≠ stripe) → x.sectors.length < 32 → ∃ t : State, exec (.baseSector b tag stripe col) s = .next t ∧
          t.mem = s.mem ∧ (y t).done = x.done ∧ (y t).sectors = x.sectors ++ [(stripe, [(tag, col)])]) ∧
        ((∀ e ∈ x.sectors, e.1 ≠ stripe) → 32 ≤ x.sectors.length → ∃ t : State, exec (.baseSector b tag stripe col) s = .next t ∧
          t.mem = s.mem ∧ (y t).done = x.done ∧ (y t).sectors = x.sectors ∧
          (y t).heldSectors = x.heldSectors ++ [(tag, stripe, col)]))) ∧
    (x.sectors ≠ [] → x.heldSectors = [] → (∀ e ∈ x.sectors, baseOf (e.1 * 512) = b.toNat) → ∃ (t : State) (e : Nat × List (Nat × BitVec 4)),
      exec (.sectorDecodeDone b) s = .next t ∧ e ∈ x.sectors.take 4 ∧ t.mem = s.mem ∧ (y t).sectors = x.sectors.filter (fun z => z.1 != e.1) ∧
        let joined := (x.sectors.filter fun z => z.1 == e.1).flatMap (·.2)
        match s.sectorPath e.1, s.decodeStripe e.1 with
        | some f, _ => (y t).done = x.done ++ joined.map fun q => ⟨q.1, 0, 0, false, some (f, 0), sectorSlice e.1 q.2, false⟩
        | none, .error z => (y t).done = x.done ++ joined.map (fun q => ⟨q.1, 0, 0, false, some (.decode, z.code), sectorSlice e.1 q.2, false⟩) ∧
          (y t).reason = z.code ∧ (y t).errPA = e.1
        | none, .ok bs => (y t).decoded = x.decoded + 1 ∧ (y t).done = x.done ++ joined.map fun q =>
            ⟨q.1, BitVec.ofNat 256 (natOfBytes ((bs.drop (32 * q.2.toNat)).take 32)), 0, false, none, sectorSlice e.1 q.2, false⟩) ∧
    (x.done ≠ [] → ∃ (t : State) (e : BaseDone), exec (.baseCompletion b) s = .next t ∧ e ∈ x.done ∧ t.mem = s.mem ∧
      (y t).done = eraseFirst (fun z => z == e) x.done)

/-- SETTLE and the access counters (R461 - R463, R492). A settle takes the range of the register's fields, and ends, with the
range's dirty lines written back and its sectors dropped, once the host holds nothing of it. A clear frees every entry of a
table, or waits for the dump under way; a dump takes the buffer as it stands when it starts, writes the 1,024 records of the
table there, changes no other byte, and then is done. In recovery the settle registers and the base dies' do not serve
(R504). -/
def SettleAndCounterResults : Prop :=
  ∀ (s : State) (die : Bool) (v : Word) (b : BaseId) (r : Nat × Nat), s.power = .on →
    let d := dieNum die
    let g := s.settleReg d
    let base := bits v.toNat 12 40
    let pages := bits v.toNat 52 12
    let cleared (x : Counters) : Counters := if x.busy then { x with clearAfter := true } else { x with entries := [] }
    let started (x : Counters) : Counters := if x.busy then x else { x with busy := true, target := x.buffer }
    let lo (x : Counters) : Nat := x.target.toNat * 4096
    let canDump (x : Counters) : Prop :=
      x.busy = true ∧ ∀ n < 512, s.devReach (lo x + n * 32) = some none ∧ s.gateOpen healthSrc (lo x + n * 32) = true
    let dumped (x : Counters) (t : State) (z : Counters) : Prop :=
      z.busy = false ∧ z.buffer = x.buffer ∧ (x.clearAfter = true → z.entries = []) ∧
      Memory.bytes t.mem (lo x) 16384 = (List.range 1024).flatMap x.entryBytes ∧
      ∀ a, a < lo x ∨ lo x + 16384 ≤ a → Memory.get t.mem a = Memory.get s.mem a
    (s.health.boot ≠ 1 → exec (.settleGo die v) s = .next s ∧ exec (.acctlClear b) s = .next s ∧ exec (.acdumpGo b) s = .next s) ∧
    (s.health.boot = 1 → ∃ t : State, exec (.settleGo die v) s = .next t ∧ t.mem = s.mem ∧ (t.settleReg d).base.toNat = base ∧
      (t.settleReg d).pages.toNat = pages ∧
      (t.settleReg d).range = if v.getLsbD 0 && g.range.isNone then some (base * 4096, (pages + 1) * 4096) else g.range) ∧
    (g.range = some r → s.ownedIn d r = [] → ∃ t : State, exec (.settleComplete die) s = .next t ∧ (t.settleReg d).range = none ∧
      t.mem = s.mem ∧ (∀ j < 80, ∀ l ∈ (t.slice (d * 80 + j)).dirty, (lineGranules l).any (inSettle d r) = false) ∧
      (∀ j < 5, ∀ e ∈ (t.base (d * 5 + j)).buffer, inSettle d r (e.1 * 512) = false)) ∧
    (g.range = some r → s.ownedIn d r ≠ [] → s.snoops.length + (s.ownedIn d r).length ≤ 256 → ∃ t : State, exec (.settleComplete die) s = .next t ∧ t.mem = s.mem ∧
      (t.settleReg d).range = some r ∧ ∀ l ∈ s.ownedIn d r, ∃ q ∈ t.snoops, q.line = l ∧ q.inv = true) ∧
    (let x := (s.base b.toNat).ac
     let y (t : State) : Counters := (t.base b.toNat).ac
     (s.health.boot = 1 → ∃ t : State, exec (.acctlClear b) s = .next t ∧ t.mem = s.mem ∧ y t = cleared x) ∧
     (s.health.boot = 1 → ∃ t : State, exec (.acdumpGo b) s = .next t ∧ t.mem = s.mem ∧ y t = started x) ∧
     (canDump x → ∃ t : State, exec (.acdumpComplete b) s = .next t ∧ dumped x t (y t))) ∧
    (let x := (s.port (portNum die)).hac
     let y (t : State) : Counters := (t.port (portNum die)).hac
     (∃ t : State, exec (.hacctlClear die) s = .next t ∧ t.mem = s.mem ∧ y t = cleared x) ∧
     (∃ t : State, exec (.hacdumpGo die) s = .next t ∧ t.mem = s.mem ∧ y t = started x) ∧
     (canDump x → ∃ t : State, exec (.hacdumpComplete die) s = .next t ∧ dumped x t (y t)))

/-- The steps of the Ferry (R464 - R479). FCTL holds its rest split within the limits. A turn starts no sooner than 100 ns after
the last, and within 50 ns of that moment and of what it serves reaching the head, on a crossing of the side that gives one up, and goes through drain, quiet and check; a check that fails, a drain above
1 us and a lane that loses lock retrain the crossing, which carries nothing until that ends; a plan entry ends 1 ms after its
acceptance; a flit in order is taken once, and unacknowledged ones are sent again after 500 ns. -/
def FerryStepResults : Prop :=
  ∀ (s : State) (c : XingId) (d : Bool) (t0 : Nat) (v : Word) (bad : Nat) (f : Flit) (e : Plan) (rest : List Plan), s.power = .on →
    let y := s.ferry
    let x := y.xing c
    let goes (i : Instr) (u : State → Prop) : Prop := ∃ t : State, exec i s = .next t ∧ t.mem = s.mem ∧ t.slots = s.slots ∧ u t
    let retrains (z : Ferry) : Prop := (z.xing c).state = .retraining ∧ (z.xing c).retrains = x.retrains + 1
    let calm : Prop := (x.retrainTimes.filter fun t => decide (s.clock < t + minClocks)).length < 3 ∧
      (x.replayTimes.filter fun t => decide (s.clock < t + secClocks)).length + x.retry.length < 1000
    (s.health.boot = 1 → goes (.fctlWrite v) fun t => t.ferry.rest.toNat = Min.min (Max.max (v.toNat % 64) y.low) y.high ∧ t.ferry.hold = v.getLsbD 6 ∧
      t.ferry.plan = y.plan ∧ t.ferry.helm = y.helm ∧ (y.helm = none → t.ferry.restPlan = true)) ∧
    (y.turn = none → ∀ z w k, y.serve 20 = (z, some w) → z.pick w = some (k, d) → goes .ferryTurnStart fun t =>
      let first := Max.max (y.lastTurnEnd + 105) z.headAt
      ∃ due, first ≤ due ∧ due ≤ first + 52 ∧ t.clock = Max.max s.clock due ∧
        t.ferry.turn = some (BitVec.ofNat 6 k.val, d, 0, due) ∧ t.ferry.xings[k].dir = d ∧
        t.ferry.xings[k].state = if y.xings[k].state = .retraining then .retraining else .turning) ∧
    (y.turn = some (c, d, 0, t0) → x.state = .turning → c.toNat < 48 →
      (x.retry = [] → goes .ferryDrainEnd fun t => t.ferry.turn = some (c, d, 1, s.clock)) ∧
      (x.retry ≠ [] → exec .ferryDrainEnd s = .next s) ∧
      (x.rotation = true → x.retrainTimes = [] → x.replayTimes = [] → goes .drainTimeout fun t =>
        retrains t.ferry ∧ t0 + 1050 ≤ t.clock ∧ t.ferry.turn = y.turn)) ∧
    (y.turn = some (c, d, 1, t0) → x.state = .turning → goes .ferryQuietEnd fun t =>
      t.clock = s.clock + 25 ∧ t.ferry.turn = some (c, d, 2, s.clock + 25)) ∧
    (y.turn = some (c, d, 2, t0) → x.state = .turning → c.toNat < 48 → x.rotation = true → y.plan = [] → y.restPlan = false →
      goes (.ferryCheckEnd true) (fun t => t.clock = s.clock + 25 ∧ t.ferry.turn = none ∧ t.ferry.lastTurnEnd = s.clock + 25 ∧
        t.ferry.turns = y.turns + 1 ∧ (t.ferry.xing c).state = .active) ∧
      (x.retrainTimes = [] → x.replayTimes = [] → goes (.ferryCheckEnd false) fun t => retrains t.ferry)) ∧
    ((if y.turn.isSome then y else (y.serve 20).1).plan = e :: rest → goes .planEntryExpire fun t =>
      t.ferry.plan = rest ∧ t.clock = Max.max s.clock (e.accepted + Config.msClocks) ∧
      (y.expired ≠ 0xFFFF → t.ferry.expired = y.expired + 1)) ∧
    (c.toNat < 48 → x.rotation = true → x.state = .active → flitOk f = true → x.retry.length < 128 → calm →
      x.txSeq = BitVec.ofNat 16 f.toNat → x.rxSeq = BitVec.ofNat 16 f.toNat → bits f.toNat 16 8 = 0xFF →
      goes (.flitReceive c f) fun t => (t.ferry.xing c).rxSeq = x.rxSeq + 1 ∧ (t.ferry.xing c).txSeq = x.txSeq + 1 ∧
        (t.ferry.xing c).retry = x.retry ++ [(x.txSeq, f)]) ∧
    (c.toNat < 48 → x.state = .active → x.retry ≠ [] → x.retrainTimes = [] → x.replayTimes = [] → x.retry.length ≤ 128 →
      goes (.flitReplayTimeout c) fun t => t.clock = Max.max s.clock (x.acked + 525) ∧ (t.ferry.xing c).retry = x.retry ∧
        (t.ferry.xing c).replayTimes.length = x.retry.length) ∧
    (c.toNat < 48 → x.rotation = true → x.state = .active → x.retrainTimes = [] → x.replayTimes = [] →
      goes (.laneLockLoss c) fun t => retrains t.ferry ∧ (t.ferry.xing c).crcTimes = []) ∧
    (c.toNat < 48 → x.rotation = true → x.state = .retraining → y.turn = none → x.spares + bad ≤ 4 →
      (∀ q ∈ x.retrainTimes, q + minClocks ≤ s.clock) → x.replayTimes = [] → x.retry.length ≤ 128 →
      goes (.retrainEnd c bad) fun t => (t.ferry.xing c).state = .active ∧ (t.ferry.xing c).spares = x.spares + bad)

/-! ### The driver queues, health and resets, what no instruction's encoding is -/

/-- The device can reach every byte of a range on its own behalf, and nothing holds an access of its own there (R405, R412, R485,
R512). -/
def Reaches (s : State) (pa n : Nat) : Prop :=
  ∀ a, pa ≤ a → a < pa + n → s.devReach a = some none ∧ s.gateOpen healthSrc a = true

/-- A host-produced queue whose head entry is published, with the entry's bytes; a port serves, and its words can be reached
(R487, R488, R512). -/
def Published (s : State) (q : DrvQ) (size : Nat) (e : List Byte) : Prop :=
  let at_ := q.ring + q.head.toNat % 2 ^ q.log2 * size
  s.healthPort.isSome = true ∧ q.enabled = true ∧ q.setup = false ∧ ({ q with tail := BitVec.ofNat 64 (Memory.nat s.mem q.tailPA 8) } : DrvQ).pending ≠ 0 ∧
  Reaches s q.tailPA 8 ∧ Reaches s q.headPA 8 ∧ Reaches s at_ size ∧ e = Memory.bytes s.mem at_ size

/-- The driver queues (R487 - R491, R512). Enabling a queue reads its descriptor, or leaves it disabled where a field is out
of range; the host's new head of the fault queue is kept, and a held entry is written where there is room. A replay command at
the head goes to the holder of its token: REPLAY to the block's cluster, and on abort the access ends with ACCESS; one
that no one holds is consumed and does nothing; one that is in error is consumed and logged; a disabled queue does nothing. An
invalidation command is taken while none is in progress; a cluster's part of it drops the translations of the range, and the
last one writes the done word and consumes the command. With no port the queues do no work. -/
def Obligations.DriverQueueResults : Prop :=
  ∀ (s : State) (d : DriverQ) (head : Word) (e : List Byte) (sl : SlotId) (k : ClusterId) (ks : List ClusterId) (a b seq : Word),
    s.power = .on →
    let q := s.drvQ d
    let f (o n : Nat) : Nat := bits q.desc.toNat (8 * o) (8 * n)
    let tok := BitVec.ofNat 64 (fieldAt e 0 8)
    let fq := s.drv.fault
    let rq := s.drv.replay
    let iq := s.drv.inval
    let consumed (t : State) : Prop := t.drv.replay.head = rq.head + 1 ∧ Memory.nat t.mem rq.headPA 8 = (rq.head + 1).toNat
    (s.health.boot = 1 → q.enabled = false →
      (q.descOk (drvInval d) = true → d ≠ .fault → ∃ t : State, exec (.driverQueueEnable d) s = .next t ∧ t.mem = s.mem ∧
        (t.drvQ d).enabled = true ∧ (t.drvQ d).ring = f 0 8 ∧ (t.drvQ d).log2 = f 8 1 ∧ (t.drvQ d).tail = 0 ∧ (t.drvQ d).head = 0) ∧
      (q.descOk (drvInval d) = true → d = .fault → q.held = [] → s.healthPort.isSome = true → Reaches s (f 0x10 8) 8 →
        ∃ t : State, exec (.driverQueueEnable d) s = .next t ∧ (t.drvQ d).enabled = true ∧ Memory.nat t.mem (f 0x10 8) 8 = 0) ∧
      (q.descOk (drvInval d) = false → ∃ t : State, exec (.driverQueueEnable d) s = .next t ∧ (t.drvQ d).enabled = false ∧ t.mem = s.mem)) ∧
    (s.health.boot = 1 → q.enabled = true → exec (.driverQueueEnable d) s = .next s) ∧
    (fq.held = [] → fq.setup = false →
      exec (.faultQueueHeadAdvance head) s = .next { s with drv := { s.drv with fault := { fq with head := head } } }) ∧
    (s.healthPort = none → exec .replayCommandRetry s = .next s ∧ exec .replayCommandAbort s = .next s ∧
      exec .invalidationCommand s = .next s) ∧
    (fq.held = [e] → fq.setup = false → fq.enabled = true → s.healthPort.isSome = true → (fq.tail - head).toNat < 2 ^ fq.log2 →
      Reaches s (fq.ring + fq.tail.toNat % 2 ^ fq.log2 * 128) 128 → Reaches s fq.tailPA 8 →
      ∃ t : State, exec (.faultQueueHeadAdvance head) s = .next t ∧ t.drv.fault.held = [] ∧ t.drv.fault.head = head ∧
        t.drv.fault.tail = fq.tail + 1 ∧ Memory.nat t.mem fq.tailPA 8 = (fq.tail + 1).toNat) ∧
    (rq.enabled = false → exec .replayCommandRetry s = .next s ∧ exec .replayCommandAbort s = .next s) ∧
    (Published s rq 16 e → fieldAt e 9 7 = 0 → fieldAt e 8 1 = 0 →
      (s.holder tok = some (.slot sl) → s.eventRoom (slotCluster sl) = true → ∃ t : State, exec .replayCommandRetry s = .next t ∧
        consumed t ∧ (t.cluster (slotCluster sl)).tail = (s.cluster (slotCluster sl)).tail + 1 ∧
        Memory.bytes t.mem (eventPA (slotCluster sl) (s.cluster (slotCluster sl)).tail) 32 = (replayEvent tok).bytes) ∧
      (s.holder tok = none → ∃ t : State, exec .replayCommandRetry s = .next t ∧ consumed t ∧ t.slots = s.slots)) ∧
    (Published s rq 16 e → fieldAt e 9 7 = 0 → fieldAt e 8 1 = 1 →
      (s.holder tok = some (.slot sl) → s.eventRoom (slotCluster sl) = true → ∃ t : State, exec .replayCommandAbort s = .next t ∧
        consumed t ∧ (t.cluster (slotCluster sl)).tail = (s.cluster (slotCluster sl)).tail + 1 ∧
        Memory.bytes t.mem (eventPA (slotCluster sl) (s.cluster (slotCluster sl)).tail) 32 = (replayEvent tok).bytes ∧
        (t.slot sl).park = none ∧ (∃ x, (t.slot sl).stop = some x ∧ x.cause = .access) ∧
        ((s.slot sl).run = .parked → (t.slot sl).run = .running)) ∧
      (s.holder tok = none → ∃ t : State, exec .replayCommandAbort s = .next t ∧ consumed t ∧ t.slots = s.slots)) ∧
    (Published s rq 16 e → fieldAt e 9 7 ≠ 0 ∨ 2 ≤ fieldAt e 8 1 → s.health.log.enabled = false →
      (∃ t : State, exec .replayCommandRetry s = .next t ∧ consumed t ∧ t.slots = s.slots ∧
        t.health.log.held = s.health.log.held ++ [logEntry s 0 10 0 0]) ∧
      (∃ t : State, exec .replayCommandAbort s = .next t ∧ consumed t ∧ t.slots = s.slots ∧
        t.health.log.held = s.health.log.held ++ [logEntry s 0 10 0 0])) ∧
    (s.drv.pending = none → Published s iq 32 e → (∃ j ∈ maskClusters (fieldAt e 0x10 4), (s.cluster j.toNat).fenced = false) →
      ∃ t : State, exec .invalidationCommand s = .next t ∧ t.mem = s.mem ∧ t.drv.pending =
        some (maskClusters (fieldAt e 0x10 4), BitVec.ofNat 64 (fieldAt e 0 8), BitVec.ofNat 64 (fieldAt e 8 8),
          BitVec.ofNat 64 (fieldAt e 0x18 8))) ∧
    (s.drv.pending = some (ks, a, b, seq) → k ∈ ks → (s.cluster k.toNat).fenced = false → s.tlbBusy k.toNat a b = false →
      let dropped (t : State) : Prop :=
        ∀ x ∈ (t.cluster k.toNat).stlb, x.ctx = b.truncate 16 → rangesMeet x.base (2 ^ x.size) (invRange a b).1 (invRange a b).2 = false
      ((∃ j ∈ ks, j ≠ k ∧ (s.cluster j.toNat).fenced = false) → ∃ t : State, exec (.invalidationDone k) s = .next t ∧ t.mem = s.mem ∧
        t.drv.pending = some (ks.filter (fun j => j != k), a, b, seq) ∧ dropped t) ∧
      (ks = [k] → s.healthPort.isSome = true → iq.enabled = true → iq.setup = false → s.drv.orphan = false → Reaches s iq.headPA 8 → Reaches s iq.donePA 8 →
        iq.headPA + 8 ≤ iq.donePA ∨ iq.donePA + 8 ≤ iq.headPA → ∃ t : State, exec (.invalidationDone k) s = .next t ∧ dropped t ∧
        t.drv.pending = none ∧ t.drv.inval.head = iq.head + 1 ∧ Memory.nat t.mem iq.donePA 8 = seq.toNat))

/-- Links, health registers, power (R480, R485 - R487, R493, R505 - R507). A retrain counts; a link that goes down loses the
lines its port held; 100 ms later the port is fenced; a link comes up at its rate and width. A retired channel stands in the
list; HWIN and HPWR hold values within their limits, and a reserved register ignores a write; the health log's enable zeroes
its tail. At 105 degrees or the cap the clock slows by a step, below both it is whole again, at 115 the module shuts down. A
measurement is one transcript of the bundle, the fuses and the Porter images, signed with both keys. -/
def Obligations.HealthResults : Prop :=
  ∀ (s : State) (p : Bool) (rate width : BitVec 2) (v : Word) (junction : BitVec 8) (watts : BitVec 11), s.power = .on →
    let pn := portNum p
    let x := s.port pn
    let h := s.health
    let goes (e : Instr) (u : State → Prop) : Prop := ∃ t : State, exec e s = .next t ∧ u t
    (s.portUp pn = true →
      ((∀ e ∈ h.counts, e.1 = portCode pn → e.2.length < 7) → goes (.hostLinkRetrain p) fun t => (t.port pn).retrains = x.retrains + 1 ∧
        s.portUp pn = t.portUp pn ∧ t.mem = s.mem) ∧
      goes (.hostLinkDown p) fun t => (t.port pn).up = false ∧ (t.port pn).lines = [] ∧ (t.port pn).downSince = s.clock) ∧
    (x.up = false → x.fenced = false → portCode pn ∉ h.fenced → h.busy = false → goes (.linkDownTimeout p) fun t =>
      (t.port pn).fenced = true ∧ portCode pn ∈ t.health.fenced ∧ x.downSince + 100 * Config.msClocks ≤ t.clock) ∧
    (x.fenced = false → rate ≠ 0 → width ≠ 0 → goes (.hostLinkUp p rate width) fun t => (t.port pn).up = true ∧ (t.port pn).rate = rate ∧
      (t.port pn).width = width) ∧
    (let i := bits v.toNat 0 8
     let c := bits v.toNat 8 1 * 160 + i
     (i < 160 → goes (.hretireWrite v) fun t => c ∈ t.health.retired ∧ ∀ r ∈ h.retired, r ∈ t.health.retired) ∧
     (160 ≤ i → exec (.hretireWrite v) s = .next s)) ∧
    (exec (.registerWrite 0x70000 v) s = .next s) ∧
    (goes (.registerWrite 0x60058 v) fun t => t.health.cap.toNat = Max.max 600 (Min.min 1600 (v.toNat % 2048)) ∧ t.mem = s.mem) ∧
    (h.boot = 1 → goes (.registerWrite 0x500C0 v) fun t => (t.port 0).hwinEnable = v.getLsbD 0 ∧ t.mem = s.mem ∧
      (t.port 0).hwinLimit.toNat * 4096 ≤ Config.cxlEnd - Config.cxlBase) ∧
    (h.log.enabled = false → h.log.descOk false = true → h.log.held = [] →
      let tailPA := bits h.log.desc.toNat 128 64
      s.devReach tailPA = some none → s.gateOpen healthSrc tailPA = true → goes .healthLogEnable fun t =>
        t.health.log.enabled = true ∧ Memory.nat t.mem tailPA 8 = 0) ∧
    (goes (.thermalThrottle junction watts) fun t => t.mem = s.mem ∧ t.slots = s.slots ∧ t.health.junction = junction ∧
      t.health.now = watts ∧ (115 ≤ junction.toNat ↔ t.power = .off) ∧ (105 ≤ junction.toNat → t.health.tooHot = true) ∧
      (junction.toNat < 115 → 105 ≤ junction.toNat ∨ h.cap ≤ watts → t.health.slow = true ∧ t.health.slowdown = Min.min 20 (h.slowdown + 1))) ∧
    (goes (.thermalThrottleEnd junction watts) fun t => t.mem = s.mem ∧
      (junction.toNat < 105 → watts < h.cap → t.health.slow = false ∧ t.health.slowdown = 0) ∧
      (105 ≤ junction.toNat ∨ h.cap ≤ watts → t.health.slow = h.slow ∧ t.health.slowdown = h.slowdown)) ∧
    exec .thermalShutdown s = .next { s with power := .off } ∧ exec .powerLoss s = .next { s with power := .off } ∧
    (goes .spdmGetMeasurements fun t =>
      let covered := Config.transcript h.measured h.version (s.fuses.ed25519, s.fuses.mldsa, s.fuses.minimum) s.loadedImages
      t.health.measured = h.measured + 1 ∧ t.mem = s.mem ∧
        t.health.answer = some ⟨covered, Config.sign true covered, Config.sign false covered⟩)

/-- Containment (R263, R270, R286, R426, R493 - R498). A unit that is judged failed joins the fenced ones and MSI-X vector 0 is
raised: a core's slots, lanes and Sett table serve no more, a slice holds no line, a Steward, a Porter and a port are fenced.
During a warm reset a fence waits. A firmware core that traps, or starts nothing for 1 ms, and a Steward that stops, or takes
no record for 10 ms, are such. A correctable error changes nothing but its unit's count, until as many within an hour as R493
names fence the unit. -/
def FencingResults : Prop :=
  ∀ (s : State) (u : UnitCode) (why : BitVec 8) (k : ClusterId), s.power = .on → 1 ≤ why.toNat → why.toNat ≤ 5 →
    let n := codeNumber u
    let c := s.cluster k.toNat
    (codeOk u = true → s.isFenced u = false →
      (s.health.busy = false → ∃ t : State, exec (.unitFence u why) s = .next t ∧ u ∈ t.health.fenced ∧ 0 ∈ t.health.msix ∧
        (codeKind u = 1 → (t.core n).fenced = true ∧ (t.core n).sett = [] ∧ ∀ g : Fin 16, (t.core n).lanes[g].enabled = false) ∧
        (codeKind u = 2 → (t.cluster n).fenced = true) ∧ (codeKind u = 3 → (t.cluster n).porter.fenced = true) ∧
        (codeKind u = 4 → (t.slice n).fenced = true ∧ (t.slice n).resident = []) ∧ (codeKind u = 7 → (t.port n).fenced = true)) ∧
      (s.health.busy = true → exec (.unitFence u why) s =
        .next { s with health := { s.health with deferred := s.health.deferred ++ [(u, why, 0)] } })) ∧
    (s.isFenced u = true → exec (.unitFence u why) s = .next s) ∧
    (s.health.busy = false → porterCode k.toNat ∉ s.health.fenced →
      (c.porter.runs = true → ∃ t : State, exec (.porterFirmwareTrap k) s = .next t ∧ (t.cluster k.toNat).porter.halted = true ∧
        (t.cluster k.toNat).porter.fenced = true) ∧
      (s.porterIdle k.toNat = true → ∃ t : State, exec (.porterWatchdog k) s = .next t ∧ (t.cluster k.toNat).porter.halted = true ∧
        (t.cluster k.toNat).porter.fenced = true ∧ c.porter.idleSince + Config.msClocks ≤ t.clock)) ∧
    (s.health.busy = false → stewardCode k.toNat ∉ s.health.fenced → c.fenced = false → c.steward.stopped = true ∨ c.count ≠ 0 →
      ∃ t : State, exec (.stewardServiceTimeout k) s = .next t ∧ (t.cluster k.toNat).fenced = true ∧
        stewardCode k.toNat ∈ t.health.fenced) ∧
    (codeOk u = true → s.isFenced u = false → s.health.busy = false →
      let n := (s.countEvent u (60 * minClocks)).1
      (n < errorLimit u → (s.corrected u).mem = s.mem ∧ (s.corrected u).slots = s.slots ∧ (s.corrected u).health.fenced = s.health.fenced) ∧
      (errorLimit u ≤ n → u ∈ (s.corrected u).health.fenced))

/-- Resets (R2, R290, R498, R501, R503, R504). A warm reset, whatever starts it, leaves no block resident, no translation and no
instruction line held, the Ferry without helm or plan; fences stay, and what it keeps waits until it is complete. A cold
reset turns the module on with everything but the fuses, and the host's own memory, new, and with a bundle that is refused the device stays in recovery
with the cause; a core that is fused off starts with no lane group enabled. -/
def ResetResults : Prop :=
  ∀ (s : State) (b : Bundle) (c : Nat) (off : List Nat) (grade : Bool),
    (c ∈ off → ((State.resetWith grade off).core c).fused = true ∧ ∀ g : Fin 16, ((State.resetWith grade off).core c).lanes[g].enabled = false) ∧
    (s.power = .on → s.health.busy = false → ∀ i ∈ [Instr.hresetWarm, .functionLevelReset, .dispatcherOrHealthFault],
      ∃ t : State, exec i s = .next t ∧ t.slots = [] ∧ (t.core c).itlb = [] ∧ (t.core c).dtlb = [] ∧ (t.core c).icache = [] ∧
        (t.core c).sett = [] ∧ (t.core c).fused = (s.core c).fused ∧ (t.core c).fenced = (s.core c).fenced ∧ t.walks = [] ∧
        t.walkQueue = [] ∧ t.walkCaches = [] ∧ t.ferry.helm = none ∧ t.ferry.plan = [] ∧ t.health.fenced = s.health.fenced ∧ t.health.busy = true ∧
        t.resetAt = s.clock) ∧
    (s.power = .on → s.health.busy = true → (∀ i ∈ [Instr.hresetWarm, .functionLevelReset, .dispatcherOrHealthFault],
        exec i s = .next s) ∧
      (s.health.deferred = [] → (∀ q, (s.queue q).live = false) →
        exec .warmResetComplete s = .next { s with health := { s.health with busy := false, deferred := [] } })) ∧
    (let key1 := b.ed25519 = s.fuses.ed25519
     let key2 := b.mldsa = s.fuses.mldsa
     let ok := key1 ∧ key2 ∧ s.fuses.minimum.toNat ≤ b.version.toNat
     ∃ t : State, exec (.coldReset b) s = .next t ∧ t.power = .on ∧ t.slots = [] ∧ t.disp = {} ∧ t.ferry = {} ∧ t.health.fenced = [] ∧
      t.grade640S = s.grade640S ∧ t.fuses = s.fuses ∧
      (Memory.wf s.mem = true → ∀ a, Config.hbmEnd ≤ a →
        Memory.get t.mem a = if Config.cxlBase ≤ a ∧ a < Config.cxlEnd then Memory.get s.mem a else 0) ∧
      ((s.cores.map (·.1)).Nodup → ∀ c, (t.core c).fused = (s.core c).fused) ∧
      (ok → t.health.boot = 1 ∧ t.health.bootFail = 0 ∧ t.health.version = b.version) ∧
      (¬ok → t.health.boot = 2 ∧ t.health.bootFail ≠ 0) ∧
      (¬key1 → key2 → t.health.bootFail = 1) ∧ (key1 → ¬key2 → t.health.bootFail = 2) ∧ (¬key1 → ¬key2 → t.health.bootFail = 3) ∧
      (key1 → key2 → b.version.toNat < s.fuses.minimum.toNat → t.health.bootFail = 4))

/-- The state after reset (R99, R131, R291, R464, R466, R503, R504): no slot holds a block, no queue is enabled, no crossing
is turning, the split is 24 of 48 with limits 8 and 40, nothing is fenced, the cap is 1,600 W; memory is in its canonical
form. HBOOT.state is 0 (R507), and the boot ROM then accepts a bundle or stays in recovery (R504). The ticket 0 is the model's
choice (log 4), and so are the values of the other registers that the spec gives no reset value for (log 5). -/
def ResetLeavesTheseValues : Prop :=
  State.reset.power = .on ∧ State.reset.health.boot = 0 ∧ (∃ t, execBoot State.reset = .next t ∧ t.mem = [] ∧ (t.health.boot = 1 ∨ t.health.boot = 2)) ∧
  State.reset.health.fenced = [] ∧ State.reset.health.cap = 1600 ∧
  State.reset.health.jValid = false ∧ Memory.wf State.reset.mem = true ∧ State.reset.ferry.split = 24 ∧ State.reset.ferry.low = 8 ∧
  State.reset.ferry.high = 40 ∧ State.reset.ferry.helm = none ∧ State.reset.ferry.turn = none ∧ State.reset.ticket = 0 ∧
  (∀ sl, (State.reset.slot sl).run = .empty) ∧ (∀ q, (State.reset.queue q).enabled = false) ∧
  (∀ k, (State.reset.cluster k).head = 0 ∧ (State.reset.cluster k).tail = 0 ∧ (State.reset.cluster k).xr.frame = 0) ∧
  (∀ c, (State.reset.core c).fenced = false ∧ ∀ g : Fin 16, (State.reset.core c).lanes[g].owner = none)

/-- Reserved encodings (R94, R95, R98). Where the words are none of an instruction's, a Steward raises ILLEGAL; a block
raises PRIV in the Steward-only major and ILLEGAL in every other, with the words in ctl.tval, but a vector-class word with no
active element retires as a no-operation that sets ctl.vstart to 0. -/
def ReservedEncodingResults : Prop :=
  ∀ (s : State) (w w2 : BitVec 32) (sl : SlotId) (k : ClusterId), s.power = .on →
    let words : BitVec 64 := BitVec.ofNat 64 (w.toNat + w2.toNat * 2 ^ 32)
    let s' : State := { s with ir := words }
    let major := bits w.toNat 26 6
    let stops (t : Trap) : Prop := exec (.reservedEncoding w w2) s = .next (s'.takeTrap t)
    (s.cur = .steward k → stops { cause := .illegal, tval := words }) ∧
    (s.cur = .block sl →
      (major = 0x17 → stops { cause := .priv }) ∧
      (major ≠ 0x17 → s.lane ≠ none ∨ major < 0x1C ∨ 0x26 < major ∨ s.wordActive sl major (w.getLsbD 10) (major == 0x26 && bits w.toNat 4 6 == 0) = true →
        stops { cause := .illegal, tval := words }) ∧
      (s.lane = none → 0x1D ≤ major → major ≤ 0x24 → s.hart.vl.toNat ≤ s.hart.vstart.toNat →
        exec (.reservedEncoding w w2) s = .next ((s'.modHart fun h => { h with vstart := 0 }).retire (s.pc + 4))))

/-! ### Statements over several of the families above -/

/-- A whole-machine rule (R503, R506): while the module is on, every instruction, every agent's step and the machine's own step
answer a next state; shut down, all but a cold reset stop with that fault, and a cold reset turns the module on. -/
def Obligations.EveryStepGoesOn : Prop :=
  EveryInstructionGoesOn ∧ StepNeverStuck ∧ ShutDownUntilColdReset

/-- Bytes of memory, and scalar registers with x0 among them (R99), read as they were last written, and no write changes
another byte or register. -/
def Obligations.StorageReadsWhatWasWritten : Prop :=
  MemoryReadsWhatWasWritten ∧ RegisterReadsWhatWasWritten

/-- The state after reset (R291, R464 - R466, R503, R504), and that the invariant of the turns holds in it. -/
def Obligations.ResetState : Prop :=
  ResetLeavesTheseValues ∧ ResetCurrentHartCanRun

/-- Words that are no instruction's, and what a hart that meets them does (R68, R94, R95, R98). -/
def Obligations.ReservedEncodingsStop : Prop :=
  AllZeroAndAllOneWordsAreReserved ∧ ReservedEncodingResults

/-- The integer operations of the scalar engine on registers and immediates (R192 - R195). -/
def Obligations.IntegerResults : Prop :=
  IntegerRegisterResults ∧ IntegerUnaryResults ∧ ImmediateResults

/-- Integer division of the scalar and the lane engine (R108): it truncates towards zero, the remainder has the dividend's sign,
and the three corner cases have their fixed results; no form traps or sets a flag, since nothing but the destination changes. -/
def Obligations.DivisionResults : Prop :=
  ScalarDivisionResults ∧ VectorDivisionResults

/-- Scalar floating-point compares, signs, classes and conversions (R200, R201). -/
def Obligations.FloatCompareAndConvertResults : Prop :=
  FloatCompareAndSignResults ∧ FloatConversionResults

/-- Conditional branches and the closing of strip-mined loops (R217, R220). -/
def Obligations.BranchesAndLoops : Prop :=
  BranchesGoWhereTheTestSays ∧ StripLoops

/-- Jumps with a link, through a register and through a table (R218, R219). -/
def Obligations.JumpsAndTables : Prop :=
  JumpsLinkAndGo ∧ TableJumps

/-- Scalar loads and stores (R203, R204), with their frame over memory and registers. -/
def Obligations.LoadsAndStores : Prop :=
  LoadsReadMemory ∧ StoresWriteMemory

/-- Scalar atomics (R209, R210), and where they trap. -/
def Obligations.Atomics : Prop :=
  AtomicsExchangeMemory ∧ MisalignedAtomicsTrap

/-- Taking a trap (R105, R232 - R234): in the block's own handler, by its Steward, or parked for the host. -/
def Obligations.Traps : Prop :=
  TrapEntersHandler ∧ TrapStopsOrParksBlock

/-- The system instructions of major 0x15 (R221). -/
def Obligations.SystemInstructions : Prop :=
  SystemCallsAndReturns ∧ YieldAndWorkFields

/-- Checks ahead of an instruction's effect: registers that do not exist, who may run what, tile records (R98, R159, R340). -/
def Obligations.ChecksRaiseTheirTraps : Prop :=
  MissingLaneRegisterRaisesIllreg ∧ PrivilegeAndEngineRules ∧ TileWordsCheckTheirOperands

/-- Element-wise integer instructions of the lane engine (R301 - R303). -/
def Obligations.VectorIntegerResults : Prop :=
  VectorPlainIntegerResults ∧ VectorWideSaturatingResults

/-- Element-wise floating-point, conversion and log-format instructions of the lane engine (R306 - R312). -/
def Obligations.VectorFloatResults : Prop :=
  VectorFloatArithmeticResults ∧ VectorFloatCompareConvert ∧ VectorLogFormatResults

/-- Reductions of the lane engine (R128 - R130, R313). -/
def Obligations.VectorReductions : Prop :=
  VectorIntegerReductions ∧ VectorFloatReductions

/-- Mask instructions, and those that move a scalar out of or into a vector register (R40, R315, R316). -/
def Obligations.VectorMaskAndScalarResults : Prop :=
  VectorMaskResults ∧ VectorToScalarResults

/-- Chain instructions and the binding of stream queues (R318 - R320, R333, R334). -/
def Obligations.ChainsAndStreams : Prop :=
  ChainResults ∧ StreamBinding

/-- Vector loads and stores of every addressing mode (R322, R323, R326, R327), with their frame over memory. -/
def Obligations.VectorLoadsAndStores : Prop :=
  VectorLoadsReadMemory ∧ VectorStoresWriteMemory

/-- Crossroads: TSEND, TRECV, the slots of the frame and remote chunks (R273, R277, R278, R282). -/
def Obligations.ExchangeResults : Prop :=
  ExchangeInstructions ∧ CrossroadsResults

/-- The Ferry: its instructions and its steps (R464 - R479). -/
def Obligations.FerryResults : Prop :=
  FerryBiasAndStatus ∧ FerryStepResults

/-- The Steward-only instructions (R147 - R151, R447). -/
def Obligations.StewardInstructionResults : Prop :=
  StewardInstructions ∧ SlotAssignPlacesBlock

/-- The Innkeeper's steps and the issue of micro-operations (R161 - R174, R355). -/
def Obligations.InnkeeperAndIssueResults : Prop :=
  InnkeeperResults ∧ IssueResults

/-- Watches, window ports, instruction lines and page walks (R29, R224, R331, R336, R414, R439 - R445). -/
def Obligations.FabricWatchAndWalkResults : Prop :=
  WatchAndWindowResults ∧ WalkResults

/-- The base dies: requests, sectors, SETTLE and access counters (R449 - R463, R492). -/
def Obligations.BaseDieResults : Prop :=
  BaseRequestResults ∧ SettleAndCounterResults

/-- Containment and resets (R493 - R504). -/
def Obligations.FencingAndResetResults : Prop :=
  FencingResults ∧ ResetResults
end

