-- ==== Sys2Proof/Laws/Table.lean ====
section
/-! SUPPORT. Laws of sparse tables and of memory: reading back a write, leaving the rest, and keeping the canonical
form. -/
namespace Sys2Proof.Machine

theorem Tbl.get_set_self {α : Type} (d : α) (t : Tbl α) (i : Nat) (v : α) : Tbl.get d (Tbl.set t i v) i = v := by
  induction t with
  | nil => simp [Tbl.set, Tbl.get]
  | cons e t ih =>
    obtain ⟨k, w⟩ := e
    unfold Tbl.set
    split
    · simp [Tbl.get]
    · split
      · simp [Tbl.get]
      · simp [Tbl.get, *]

theorem Tbl.get_set_ne {α : Type} (d : α) (t : Tbl α) (i j : Nat) (v : α) (h : i ≠ j) :
    Tbl.get d (Tbl.set t i v) j = Tbl.get d t j := by
  induction t with
  | nil => simp [Tbl.set, Tbl.get, h]
  | cons e t ih =>
    obtain ⟨k, w⟩ := e
    unfold Tbl.set
    split
    · simp [Tbl.get, h]
    · split
      · next hk => subst hk; simp [Tbl.get, h]
      · simp [Tbl.get, ih]

theorem Memory.get_filter_self (m : Memory) (a : Nat) : Memory.get (m.filter fun c => c.1 != a) a = 0 := by
  induction m with
  | nil => rfl
  | cons e t ih =>
    obtain ⟨k, b⟩ := e
    by_cases h : k = a <;> simp [h, ih, Memory.get]

theorem Memory.get_filter_ne (m : Memory) (a c : Nat) (h : a ≠ c) :
    Memory.get (m.filter fun c => c.1 != a) c = m.get c := by
  induction m with
  | nil => rfl
  | cons e t ih =>
    obtain ⟨k, b⟩ := e
    by_cases hk : k = a
    · subst hk; simp [ih, Memory.get, h]
    · simp [hk, ih, Memory.get]

theorem Memory.get_eq_table (m : Memory) (a : Nat) : m.get a = Tbl.get (0 : Byte) m a := by
  induction m with
  | nil => rfl
  | cons e t ih => obtain ⟨k, b⟩ := e; simp [Memory.get, Tbl.get, ih]

/-- A byte that was written reads as it was written. -/
@[simp] theorem Memory.get_put_self (m : Memory) (a : Nat) (b : Byte) : (m.put a b).get a = b := by
  unfold Memory.put
  split
  · next h => rw [Memory.get_filter_self, h]
  · rw [Memory.get_eq_table, Tbl.get_set_self]

/-- A write of one byte leaves every other byte. -/
theorem Memory.get_put_ne (m : Memory) (a c : Nat) (b : Byte) (h : a ≠ c) : (m.put a b).get c = m.get c := by
  unfold Memory.put
  split
  · exact Memory.get_filter_ne m a c h
  · rw [Memory.get_eq_table, Tbl.get_set_ne _ _ _ _ _ h, ← Memory.get_eq_table]

/-- A write of bytes leaves every byte outside them. -/
theorem Memory.get_putAll_out (bs : List Byte) : ∀ (m : Memory) (a c : Nat), (c < a ∨ a + bs.length ≤ c) →
    (m.putAll a bs).get c = m.get c := by
  induction bs with
  | nil => intros; rfl
  | cons b t ih =>
    intro m a c h
    simp only [List.length_cons] at h
    rw [Memory.putAll, ih _ _ _ (by omega), Memory.get_put_ne _ _ _ _ (by omega)]

/-- Bytes that were written read as they were written. -/
theorem Memory.bytes_putAll (bs : List Byte) : ∀ (m : Memory) (a : Nat), (m.putAll a bs).bytes a bs.length = bs := by
  induction bs with
  | nil => intros; rfl
  | cons b t ih =>
    intro m a
    simp only [Memory.putAll, List.length_cons, Memory.bytes]
    rw [Memory.get_putAll_out _ _ _ _ (by omega), Memory.get_put_self, ih]

/-! ### The canonical form -/

/-- The canonical form as two facts of every neighbour. -/
theorem Memory.wf_cons (e : Host.Cell) (t : Memory) :
    Memory.wf (e :: t) = true ↔ e.2 ≠ 0 ∧ (∀ c ∈ t.head?, e.1 < c.1) ∧ Memory.wf t = true := by
  obtain ⟨a, b⟩ := e
  cases t with
  | nil => simp [Memory.wf]
  | cons c t => obtain ⟨a', b'⟩ := c; simp [Memory.wf, and_assoc]

/-- In a canonical memory every address after the first is above it. -/
theorem Memory.wf_lt (t : Memory) : ∀ (a : Nat) (b : Byte), Memory.wf ((a, b) :: t) = true → ∀ c ∈ t, a < c.1 := by
  induction t with
  | nil => simp
  | cons e t ih =>
    intro a b h c hc
    rw [Memory.wf_cons] at h
    have he : a < e.1 := h.2.1 e (by simp)
    cases hc with
    | head => exact he
    | tail _ hm => exact Nat.lt_trans he (ih e.1 e.2 h.2.2 c hm)

theorem Memory.wf_of_pairwise (t : Memory) (h : t.Pairwise fun x y => x.1 < y.1) (hb : ∀ c ∈ t, c.2 ≠ 0) :
    Memory.wf t = true := by
  induction t with
  | nil => rfl
  | cons e t ih =>
    rw [List.pairwise_cons] at h
    rw [Memory.wf_cons]
    refine ⟨hb e (by simp), ?_, ih h.2 fun c hc => hb c (by simp [hc])⟩
    intro c hc
    exact h.1 c (List.mem_of_mem_head? hc)

theorem Memory.pairwise_of_wf (t : Memory) (h : Memory.wf t = true) :
    (t.Pairwise fun x y => x.1 < y.1) ∧ ∀ c ∈ t, c.2 ≠ 0 := by
  induction t with
  | nil => simp
  | cons e t ih =>
    have ht := (Memory.wf_cons e t).mp h
    have := ih ht.2.2
    refine ⟨List.pairwise_cons.mpr ⟨fun c hc => Memory.wf_lt t e.1 e.2 h c hc, this.1⟩, ?_⟩
    intro c hc
    cases hc with
    | head => exact ht.1
    | tail _ hm => exact this.2 c hm

/-- The canonical form, said once: addresses rise, no byte is 0. -/
theorem Memory.wf_iff (t : Memory) :
    Memory.wf t = true ↔ (t.Pairwise fun x y => x.1 < y.1) ∧ ∀ c ∈ t, c.2 ≠ 0 :=
  ⟨Memory.pairwise_of_wf t, fun h => Memory.wf_of_pairwise t h.1 h.2⟩

/-- Removing bytes keeps the canonical form. -/
theorem Memory.wf_filter (m : Memory) (p : Host.Cell → Bool) (h : Memory.wf m = true) : Memory.wf (m.filter p) = true := by
  rw [Memory.wf_iff] at *
  exact ⟨h.1.filter p, fun c hc => h.2 c (List.mem_filter.mp hc).1⟩

theorem Tbl.mem_set {α : Type} (t : Tbl α) (i : Nat) (v : α) : ∀ c ∈ Tbl.set t i v, c = (i, v) ∨ c ∈ t := by
  induction t with
  | nil => simp [Tbl.set]
  | cons e t ih =>
    obtain ⟨k, w⟩ := e
    intro c hc
    unfold Tbl.set at hc
    split at hc
    · simpa using hc
    · split at hc
      · simp only [List.mem_cons] at hc ⊢
        rcases hc with h | h
        · exact .inl h
        · exact .inr (.inr h)
      · simp only [List.mem_cons] at hc ⊢
        rcases hc with h | h
        · exact .inr (.inl h)
        · rcases ih c h with h | h
          · exact .inl h
          · exact .inr (.inr h)

/-- Replacing an entry keeps the keys rising. -/
theorem Tbl.set_pairwise {α : Type} (t : Tbl α) (i : Nat) (v : α) (h : t.Pairwise fun x y => x.1 < y.1) :
    (Tbl.set t i v).Pairwise fun x y => x.1 < y.1 := by
  induction t with
  | nil => simp [Tbl.set]
  | cons e t ih =>
    obtain ⟨k, w⟩ := e
    have hp := List.pairwise_cons.mp h
    unfold Tbl.set
    split
    · next hk =>
      refine List.pairwise_cons.mpr ⟨?_, h⟩
      intro c hc
      cases hc with
      | head => exact hk
      | tail _ hm => exact Nat.lt_trans hk (hp.1 c hm)
    · split
      · next hk => subst hk; exact List.pairwise_cons.mpr ⟨fun c hc => hp.1 c hc, hp.2⟩
      · next h1 h2 =>
        refine List.pairwise_cons.mpr ⟨?_, ih hp.2⟩
        intro c hc
        rcases Tbl.mem_set t i v c hc with rfl | hm
        · simp; omega
        · exact hp.1 c hm

/-- A write of one byte keeps the canonical form. -/
theorem Memory.wf_put (m : Memory) (a : Nat) (b : Byte) (h : Memory.wf m = true) : Memory.wf (m.put a b) = true := by
  unfold Memory.put
  split
  · exact Memory.wf_filter m _ h
  · next hb =>
    rw [Memory.wf_iff] at *
    refine ⟨Tbl.set_pairwise m a b h.1, fun c hc => ?_⟩
    rcases Tbl.mem_set m a b c hc with rfl | hm
    · exact hb
    · exact h.2 c hm

/-- A write of bytes keeps the canonical form. -/
theorem Memory.wf_putAll (bs : List Byte) : ∀ (m : Memory) (a : Nat), Memory.wf m = true →
    Memory.wf (m.putAll a bs) = true := by
  induction bs with
  | nil => exact fun m a h => h
  | cons b t ih => exact fun m a h => ih _ _ (Memory.wf_put m a b h)

end Sys2Proof.Machine
end

