-- ==== Sys2Proof/Laws/State.lean ====
section
/-! SUPPORT. What each update of the state leaves and gives, field by field, so that no proof unfolds a record update. -/
namespace Sys2Proof.Machine

/-! ### State.setSlot -/

@[simp] theorem State.setSlot_grade640S (s : State) (sl : SlotId) (v : Slot) : (s.setSlot sl v).grade640S = s.grade640S := rfl
@[simp] theorem State.setSlot_fuses (s : State) (sl : SlotId) (v : Slot) : (s.setSlot sl v).fuses = s.fuses := rfl
@[simp] theorem State.setSlot_mem (s : State) (sl : SlotId) (v : Slot) : (s.setSlot sl v).mem = s.mem := rfl
@[simp] theorem State.setSlot_gran (s : State) (sl : SlotId) (v : Slot) : (s.setSlot sl v).gran = s.gran := rfl
@[simp] theorem State.setSlot_clock (s : State) (sl : SlotId) (v : Slot) : (s.setSlot sl v).clock = s.clock := rfl
@[simp] theorem State.setSlot_free (s : State) (sl : SlotId) (v : Slot) : (s.setSlot sl v).free = s.free := rfl
@[simp] theorem State.setSlot_agenda (s : State) (sl : SlotId) (v : Slot) : (s.setSlot sl v).agenda = s.agenda := rfl
@[simp] theorem State.setSlot_cur (s : State) (sl : SlotId) (v : Slot) : (s.setSlot sl v).cur = s.cur := rfl
@[simp] theorem State.setSlot_engineTurn (s : State) (sl : SlotId) (v : Slot) : (s.setSlot sl v).engineTurn = s.engineTurn := rfl
@[simp] theorem State.setSlot_ir (s : State) (sl : SlotId) (v : Slot) : (s.setSlot sl v).ir = s.ir := rfl
@[simp] theorem State.setSlot_power (s : State) (sl : SlotId) (v : Slot) : (s.setSlot sl v).power = s.power := rfl
@[simp] theorem State.setSlot_resetAt (s : State) (sl : SlotId) (v : Slot) : (s.setSlot sl v).resetAt = s.resetAt := rfl
@[simp] theorem State.setSlot_cores (s : State) (sl : SlotId) (v : Slot) : (s.setSlot sl v).cores = s.cores := rfl
@[simp] theorem State.setSlot_clusters (s : State) (sl : SlotId) (v : Slot) : (s.setSlot sl v).clusters = s.clusters := rfl
@[simp] theorem State.setSlot_disp (s : State) (sl : SlotId) (v : Slot) : (s.setSlot sl v).disp = s.disp := rfl
@[simp] theorem State.setSlot_ticket (s : State) (sl : SlotId) (v : Slot) : (s.setSlot sl v).ticket = s.ticket := rfl
@[simp] theorem State.setSlot_tokenNext (s : State) (sl : SlotId) (v : Slot) : (s.setSlot sl v).tokenNext = s.tokenNext := rfl
@[simp] theorem State.setSlot_ctxEnable (s : State) (sl : SlotId) (v : Slot) : (s.setSlot sl v).ctxEnable = s.ctxEnable := rfl
@[simp] theorem State.setSlot_ctxBase (s : State) (sl : SlotId) (v : Slot) : (s.setSlot sl v).ctxBase = s.ctxBase := rfl
@[simp] theorem State.setSlot_ctxCache (s : State) (sl : SlotId) (v : Slot) : (s.setSlot sl v).ctxCache = s.ctxCache := rfl
@[simp] theorem State.setSlot_walkCaches (s : State) (sl : SlotId) (v : Slot) : (s.setSlot sl v).walkCaches = s.walkCaches := rfl
@[simp] theorem State.setSlot_walks (s : State) (sl : SlotId) (v : Slot) : (s.setSlot sl v).walks = s.walks := rfl
@[simp] theorem State.setSlot_walkQueue (s : State) (sl : SlotId) (v : Slot) : (s.setSlot sl v).walkQueue = s.walkQueue := rfl
@[simp] theorem State.setSlot_walkTurn (s : State) (sl : SlotId) (v : Slot) : (s.setSlot sl v).walkTurn = s.walkTurn := rfl
@[simp] theorem State.setSlot_watches (s : State) (sl : SlotId) (v : Slot) : (s.setSlot sl v).watches = s.watches := rfl
@[simp] theorem State.setSlot_notices (s : State) (sl : SlotId) (v : Slot) : (s.setSlot sl v).notices = s.notices := rfl
@[simp] theorem State.setSlot_snoops (s : State) (sl : SlotId) (v : Slot) : (s.setSlot sl v).snoops = s.snoops := rfl
@[simp] theorem State.setSlot_regWrites (s : State) (sl : SlotId) (v : Slot) : (s.setSlot sl v).regWrites = s.regWrites := rfl
@[simp] theorem State.setSlot_unanswered (s : State) (sl : SlotId) (v : Slot) : (s.setSlot sl v).unanswered = s.unanswered := rfl
@[simp] theorem State.setSlot_slices (s : State) (sl : SlotId) (v : Slot) : (s.setSlot sl v).slices = s.slices := rfl
@[simp] theorem State.setSlot_bases (s : State) (sl : SlotId) (v : Slot) : (s.setSlot sl v).bases = s.bases := rfl
@[simp] theorem State.setSlot_settle (s : State) (sl : SlotId) (v : Slot) : (s.setSlot sl v).settle = s.settle := rfl
@[simp] theorem State.setSlot_ferry (s : State) (sl : SlotId) (v : Slot) : (s.setSlot sl v).ferry = s.ferry := rfl
@[simp] theorem State.setSlot_ports (s : State) (sl : SlotId) (v : Slot) : (s.setSlot sl v).ports = s.ports := rfl
@[simp] theorem State.setSlot_drv (s : State) (sl : SlotId) (v : Slot) : (s.setSlot sl v).drv = s.drv := rfl
@[simp] theorem State.setSlot_health (s : State) (sl : SlotId) (v : Slot) : (s.setSlot sl v).health = s.health := rfl
@[simp] theorem State.setSlot_savedTiles (s : State) (sl : SlotId) (v : Slot) : (s.setSlot sl v).savedTiles = s.savedTiles := rfl
@[simp] theorem State.setSlot_core (s : State) (sl : SlotId) (v : Slot) (j : Nat) : (s.setSlot sl v).core j = s.core j := rfl
@[simp] theorem State.setSlot_cluster (s : State) (sl : SlotId) (v : Slot) (j : Nat) : (s.setSlot sl v).cluster j = s.cluster j := rfl
@[simp] theorem State.setSlot_slice (s : State) (sl : SlotId) (v : Slot) (j : Nat) : (s.setSlot sl v).slice j = s.slice j := rfl
@[simp] theorem State.setSlot_base (s : State) (sl : SlotId) (v : Slot) (j : Nat) : (s.setSlot sl v).base j = s.base j := rfl
@[simp] theorem State.setSlot_port (s : State) (sl : SlotId) (v : Slot) (j : Nat) : (s.setSlot sl v).port j = s.port j := rfl
@[simp] theorem State.setSlot_granule (s : State) (sl : SlotId) (v : Slot) (j : Nat) : (s.setSlot sl v).granule j = s.granule j := rfl

/-! ### State.modSlot -/

@[simp] theorem State.modSlot_grade640S (s : State) (sl : SlotId) (f : Slot → Slot) : (s.modSlot sl f).grade640S = s.grade640S := rfl
@[simp] theorem State.modSlot_fuses (s : State) (sl : SlotId) (f : Slot → Slot) : (s.modSlot sl f).fuses = s.fuses := rfl
@[simp] theorem State.modSlot_mem (s : State) (sl : SlotId) (f : Slot → Slot) : (s.modSlot sl f).mem = s.mem := rfl
@[simp] theorem State.modSlot_gran (s : State) (sl : SlotId) (f : Slot → Slot) : (s.modSlot sl f).gran = s.gran := rfl
@[simp] theorem State.modSlot_clock (s : State) (sl : SlotId) (f : Slot → Slot) : (s.modSlot sl f).clock = s.clock := rfl
@[simp] theorem State.modSlot_free (s : State) (sl : SlotId) (f : Slot → Slot) : (s.modSlot sl f).free = s.free := rfl
@[simp] theorem State.modSlot_agenda (s : State) (sl : SlotId) (f : Slot → Slot) : (s.modSlot sl f).agenda = s.agenda := rfl
@[simp] theorem State.modSlot_cur (s : State) (sl : SlotId) (f : Slot → Slot) : (s.modSlot sl f).cur = s.cur := rfl
@[simp] theorem State.modSlot_engineTurn (s : State) (sl : SlotId) (f : Slot → Slot) : (s.modSlot sl f).engineTurn = s.engineTurn := rfl
@[simp] theorem State.modSlot_ir (s : State) (sl : SlotId) (f : Slot → Slot) : (s.modSlot sl f).ir = s.ir := rfl
@[simp] theorem State.modSlot_power (s : State) (sl : SlotId) (f : Slot → Slot) : (s.modSlot sl f).power = s.power := rfl
@[simp] theorem State.modSlot_resetAt (s : State) (sl : SlotId) (f : Slot → Slot) : (s.modSlot sl f).resetAt = s.resetAt := rfl
@[simp] theorem State.modSlot_cores (s : State) (sl : SlotId) (f : Slot → Slot) : (s.modSlot sl f).cores = s.cores := rfl
@[simp] theorem State.modSlot_clusters (s : State) (sl : SlotId) (f : Slot → Slot) : (s.modSlot sl f).clusters = s.clusters := rfl
@[simp] theorem State.modSlot_disp (s : State) (sl : SlotId) (f : Slot → Slot) : (s.modSlot sl f).disp = s.disp := rfl
@[simp] theorem State.modSlot_ticket (s : State) (sl : SlotId) (f : Slot → Slot) : (s.modSlot sl f).ticket = s.ticket := rfl
@[simp] theorem State.modSlot_tokenNext (s : State) (sl : SlotId) (f : Slot → Slot) : (s.modSlot sl f).tokenNext = s.tokenNext := rfl
@[simp] theorem State.modSlot_ctxEnable (s : State) (sl : SlotId) (f : Slot → Slot) : (s.modSlot sl f).ctxEnable = s.ctxEnable := rfl
@[simp] theorem State.modSlot_ctxBase (s : State) (sl : SlotId) (f : Slot → Slot) : (s.modSlot sl f).ctxBase = s.ctxBase := rfl
@[simp] theorem State.modSlot_ctxCache (s : State) (sl : SlotId) (f : Slot → Slot) : (s.modSlot sl f).ctxCache = s.ctxCache := rfl
@[simp] theorem State.modSlot_walkCaches (s : State) (sl : SlotId) (f : Slot → Slot) : (s.modSlot sl f).walkCaches = s.walkCaches := rfl
@[simp] theorem State.modSlot_walks (s : State) (sl : SlotId) (f : Slot → Slot) : (s.modSlot sl f).walks = s.walks := rfl
@[simp] theorem State.modSlot_walkQueue (s : State) (sl : SlotId) (f : Slot → Slot) : (s.modSlot sl f).walkQueue = s.walkQueue := rfl
@[simp] theorem State.modSlot_walkTurn (s : State) (sl : SlotId) (f : Slot → Slot) : (s.modSlot sl f).walkTurn = s.walkTurn := rfl
@[simp] theorem State.modSlot_watches (s : State) (sl : SlotId) (f : Slot → Slot) : (s.modSlot sl f).watches = s.watches := rfl
@[simp] theorem State.modSlot_notices (s : State) (sl : SlotId) (f : Slot → Slot) : (s.modSlot sl f).notices = s.notices := rfl
@[simp] theorem State.modSlot_snoops (s : State) (sl : SlotId) (f : Slot → Slot) : (s.modSlot sl f).snoops = s.snoops := rfl
@[simp] theorem State.modSlot_regWrites (s : State) (sl : SlotId) (f : Slot → Slot) : (s.modSlot sl f).regWrites = s.regWrites := rfl
@[simp] theorem State.modSlot_unanswered (s : State) (sl : SlotId) (f : Slot → Slot) : (s.modSlot sl f).unanswered = s.unanswered := rfl
@[simp] theorem State.modSlot_slices (s : State) (sl : SlotId) (f : Slot → Slot) : (s.modSlot sl f).slices = s.slices := rfl
@[simp] theorem State.modSlot_bases (s : State) (sl : SlotId) (f : Slot → Slot) : (s.modSlot sl f).bases = s.bases := rfl
@[simp] theorem State.modSlot_settle (s : State) (sl : SlotId) (f : Slot → Slot) : (s.modSlot sl f).settle = s.settle := rfl
@[simp] theorem State.modSlot_ferry (s : State) (sl : SlotId) (f : Slot → Slot) : (s.modSlot sl f).ferry = s.ferry := rfl
@[simp] theorem State.modSlot_ports (s : State) (sl : SlotId) (f : Slot → Slot) : (s.modSlot sl f).ports = s.ports := rfl
@[simp] theorem State.modSlot_drv (s : State) (sl : SlotId) (f : Slot → Slot) : (s.modSlot sl f).drv = s.drv := rfl
@[simp] theorem State.modSlot_health (s : State) (sl : SlotId) (f : Slot → Slot) : (s.modSlot sl f).health = s.health := rfl
@[simp] theorem State.modSlot_savedTiles (s : State) (sl : SlotId) (f : Slot → Slot) : (s.modSlot sl f).savedTiles = s.savedTiles := rfl
@[simp] theorem State.modSlot_core (s : State) (sl : SlotId) (f : Slot → Slot) (j : Nat) : (s.modSlot sl f).core j = s.core j := rfl
@[simp] theorem State.modSlot_cluster (s : State) (sl : SlotId) (f : Slot → Slot) (j : Nat) : (s.modSlot sl f).cluster j = s.cluster j := rfl
@[simp] theorem State.modSlot_slice (s : State) (sl : SlotId) (f : Slot → Slot) (j : Nat) : (s.modSlot sl f).slice j = s.slice j := rfl
@[simp] theorem State.modSlot_base (s : State) (sl : SlotId) (f : Slot → Slot) (j : Nat) : (s.modSlot sl f).base j = s.base j := rfl
@[simp] theorem State.modSlot_port (s : State) (sl : SlotId) (f : Slot → Slot) (j : Nat) : (s.modSlot sl f).port j = s.port j := rfl
@[simp] theorem State.modSlot_granule (s : State) (sl : SlotId) (f : Slot → Slot) (j : Nat) : (s.modSlot sl f).granule j = s.granule j := rfl

/-! ### State.setCore -/

@[simp] theorem State.setCore_grade640S (s : State) (c : Nat) (v : Core) : (s.setCore c v).grade640S = s.grade640S := rfl
@[simp] theorem State.setCore_fuses (s : State) (c : Nat) (v : Core) : (s.setCore c v).fuses = s.fuses := rfl
@[simp] theorem State.setCore_mem (s : State) (c : Nat) (v : Core) : (s.setCore c v).mem = s.mem := rfl
@[simp] theorem State.setCore_gran (s : State) (c : Nat) (v : Core) : (s.setCore c v).gran = s.gran := rfl
@[simp] theorem State.setCore_clock (s : State) (c : Nat) (v : Core) : (s.setCore c v).clock = s.clock := rfl
@[simp] theorem State.setCore_free (s : State) (c : Nat) (v : Core) : (s.setCore c v).free = s.free := rfl
@[simp] theorem State.setCore_agenda (s : State) (c : Nat) (v : Core) : (s.setCore c v).agenda = s.agenda := rfl
@[simp] theorem State.setCore_cur (s : State) (c : Nat) (v : Core) : (s.setCore c v).cur = s.cur := rfl
@[simp] theorem State.setCore_engineTurn (s : State) (c : Nat) (v : Core) : (s.setCore c v).engineTurn = s.engineTurn := rfl
@[simp] theorem State.setCore_ir (s : State) (c : Nat) (v : Core) : (s.setCore c v).ir = s.ir := rfl
@[simp] theorem State.setCore_power (s : State) (c : Nat) (v : Core) : (s.setCore c v).power = s.power := rfl
@[simp] theorem State.setCore_resetAt (s : State) (c : Nat) (v : Core) : (s.setCore c v).resetAt = s.resetAt := rfl
@[simp] theorem State.setCore_slots (s : State) (c : Nat) (v : Core) : (s.setCore c v).slots = s.slots := rfl
@[simp] theorem State.setCore_clusters (s : State) (c : Nat) (v : Core) : (s.setCore c v).clusters = s.clusters := rfl
@[simp] theorem State.setCore_disp (s : State) (c : Nat) (v : Core) : (s.setCore c v).disp = s.disp := rfl
@[simp] theorem State.setCore_ticket (s : State) (c : Nat) (v : Core) : (s.setCore c v).ticket = s.ticket := rfl
@[simp] theorem State.setCore_tokenNext (s : State) (c : Nat) (v : Core) : (s.setCore c v).tokenNext = s.tokenNext := rfl
@[simp] theorem State.setCore_ctxEnable (s : State) (c : Nat) (v : Core) : (s.setCore c v).ctxEnable = s.ctxEnable := rfl
@[simp] theorem State.setCore_ctxBase (s : State) (c : Nat) (v : Core) : (s.setCore c v).ctxBase = s.ctxBase := rfl
@[simp] theorem State.setCore_ctxCache (s : State) (c : Nat) (v : Core) : (s.setCore c v).ctxCache = s.ctxCache := rfl
@[simp] theorem State.setCore_walkCaches (s : State) (c : Nat) (v : Core) : (s.setCore c v).walkCaches = s.walkCaches := rfl
@[simp] theorem State.setCore_walks (s : State) (c : Nat) (v : Core) : (s.setCore c v).walks = s.walks := rfl
@[simp] theorem State.setCore_walkQueue (s : State) (c : Nat) (v : Core) : (s.setCore c v).walkQueue = s.walkQueue := rfl
@[simp] theorem State.setCore_walkTurn (s : State) (c : Nat) (v : Core) : (s.setCore c v).walkTurn = s.walkTurn := rfl
@[simp] theorem State.setCore_watches (s : State) (c : Nat) (v : Core) : (s.setCore c v).watches = s.watches := rfl
@[simp] theorem State.setCore_notices (s : State) (c : Nat) (v : Core) : (s.setCore c v).notices = s.notices := rfl
@[simp] theorem State.setCore_snoops (s : State) (c : Nat) (v : Core) : (s.setCore c v).snoops = s.snoops := rfl
@[simp] theorem State.setCore_regWrites (s : State) (c : Nat) (v : Core) : (s.setCore c v).regWrites = s.regWrites := rfl
@[simp] theorem State.setCore_unanswered (s : State) (c : Nat) (v : Core) : (s.setCore c v).unanswered = s.unanswered := rfl
@[simp] theorem State.setCore_slices (s : State) (c : Nat) (v : Core) : (s.setCore c v).slices = s.slices := rfl
@[simp] theorem State.setCore_bases (s : State) (c : Nat) (v : Core) : (s.setCore c v).bases = s.bases := rfl
@[simp] theorem State.setCore_settle (s : State) (c : Nat) (v : Core) : (s.setCore c v).settle = s.settle := rfl
@[simp] theorem State.setCore_ferry (s : State) (c : Nat) (v : Core) : (s.setCore c v).ferry = s.ferry := rfl
@[simp] theorem State.setCore_ports (s : State) (c : Nat) (v : Core) : (s.setCore c v).ports = s.ports := rfl
@[simp] theorem State.setCore_drv (s : State) (c : Nat) (v : Core) : (s.setCore c v).drv = s.drv := rfl
@[simp] theorem State.setCore_health (s : State) (c : Nat) (v : Core) : (s.setCore c v).health = s.health := rfl
@[simp] theorem State.setCore_savedTiles (s : State) (c : Nat) (v : Core) : (s.setCore c v).savedTiles = s.savedTiles := rfl
@[simp] theorem State.setCore_slot (s : State) (c : Nat) (v : Core) (j : SlotId) : (s.setCore c v).slot j = s.slot j := rfl
@[simp] theorem State.setCore_cluster (s : State) (c : Nat) (v : Core) (j : Nat) : (s.setCore c v).cluster j = s.cluster j := rfl
@[simp] theorem State.setCore_slice (s : State) (c : Nat) (v : Core) (j : Nat) : (s.setCore c v).slice j = s.slice j := rfl
@[simp] theorem State.setCore_base (s : State) (c : Nat) (v : Core) (j : Nat) : (s.setCore c v).base j = s.base j := rfl
@[simp] theorem State.setCore_port (s : State) (c : Nat) (v : Core) (j : Nat) : (s.setCore c v).port j = s.port j := rfl
@[simp] theorem State.setCore_granule (s : State) (c : Nat) (v : Core) (j : Nat) : (s.setCore c v).granule j = s.granule j := rfl

/-! ### State.modCore -/

@[simp] theorem State.modCore_grade640S (s : State) (c : Nat) (f : Core → Core) : (s.modCore c f).grade640S = s.grade640S := rfl
@[simp] theorem State.modCore_fuses (s : State) (c : Nat) (f : Core → Core) : (s.modCore c f).fuses = s.fuses := rfl
@[simp] theorem State.modCore_mem (s : State) (c : Nat) (f : Core → Core) : (s.modCore c f).mem = s.mem := rfl
@[simp] theorem State.modCore_gran (s : State) (c : Nat) (f : Core → Core) : (s.modCore c f).gran = s.gran := rfl
@[simp] theorem State.modCore_clock (s : State) (c : Nat) (f : Core → Core) : (s.modCore c f).clock = s.clock := rfl
@[simp] theorem State.modCore_free (s : State) (c : Nat) (f : Core → Core) : (s.modCore c f).free = s.free := rfl
@[simp] theorem State.modCore_agenda (s : State) (c : Nat) (f : Core → Core) : (s.modCore c f).agenda = s.agenda := rfl
@[simp] theorem State.modCore_cur (s : State) (c : Nat) (f : Core → Core) : (s.modCore c f).cur = s.cur := rfl
@[simp] theorem State.modCore_engineTurn (s : State) (c : Nat) (f : Core → Core) : (s.modCore c f).engineTurn = s.engineTurn := rfl
@[simp] theorem State.modCore_ir (s : State) (c : Nat) (f : Core → Core) : (s.modCore c f).ir = s.ir := rfl
@[simp] theorem State.modCore_power (s : State) (c : Nat) (f : Core → Core) : (s.modCore c f).power = s.power := rfl
@[simp] theorem State.modCore_resetAt (s : State) (c : Nat) (f : Core → Core) : (s.modCore c f).resetAt = s.resetAt := rfl
@[simp] theorem State.modCore_slots (s : State) (c : Nat) (f : Core → Core) : (s.modCore c f).slots = s.slots := rfl
@[simp] theorem State.modCore_clusters (s : State) (c : Nat) (f : Core → Core) : (s.modCore c f).clusters = s.clusters := rfl
@[simp] theorem State.modCore_disp (s : State) (c : Nat) (f : Core → Core) : (s.modCore c f).disp = s.disp := rfl
@[simp] theorem State.modCore_ticket (s : State) (c : Nat) (f : Core → Core) : (s.modCore c f).ticket = s.ticket := rfl
@[simp] theorem State.modCore_tokenNext (s : State) (c : Nat) (f : Core → Core) : (s.modCore c f).tokenNext = s.tokenNext := rfl
@[simp] theorem State.modCore_ctxEnable (s : State) (c : Nat) (f : Core → Core) : (s.modCore c f).ctxEnable = s.ctxEnable := rfl
@[simp] theorem State.modCore_ctxBase (s : State) (c : Nat) (f : Core → Core) : (s.modCore c f).ctxBase = s.ctxBase := rfl
@[simp] theorem State.modCore_ctxCache (s : State) (c : Nat) (f : Core → Core) : (s.modCore c f).ctxCache = s.ctxCache := rfl
@[simp] theorem State.modCore_walkCaches (s : State) (c : Nat) (f : Core → Core) : (s.modCore c f).walkCaches = s.walkCaches := rfl
@[simp] theorem State.modCore_walks (s : State) (c : Nat) (f : Core → Core) : (s.modCore c f).walks = s.walks := rfl
@[simp] theorem State.modCore_walkQueue (s : State) (c : Nat) (f : Core → Core) : (s.modCore c f).walkQueue = s.walkQueue := rfl
@[simp] theorem State.modCore_walkTurn (s : State) (c : Nat) (f : Core → Core) : (s.modCore c f).walkTurn = s.walkTurn := rfl
@[simp] theorem State.modCore_watches (s : State) (c : Nat) (f : Core → Core) : (s.modCore c f).watches = s.watches := rfl
@[simp] theorem State.modCore_notices (s : State) (c : Nat) (f : Core → Core) : (s.modCore c f).notices = s.notices := rfl
@[simp] theorem State.modCore_snoops (s : State) (c : Nat) (f : Core → Core) : (s.modCore c f).snoops = s.snoops := rfl
@[simp] theorem State.modCore_regWrites (s : State) (c : Nat) (f : Core → Core) : (s.modCore c f).regWrites = s.regWrites := rfl
@[simp] theorem State.modCore_unanswered (s : State) (c : Nat) (f : Core → Core) : (s.modCore c f).unanswered = s.unanswered := rfl
@[simp] theorem State.modCore_slices (s : State) (c : Nat) (f : Core → Core) : (s.modCore c f).slices = s.slices := rfl
@[simp] theorem State.modCore_bases (s : State) (c : Nat) (f : Core → Core) : (s.modCore c f).bases = s.bases := rfl
@[simp] theorem State.modCore_settle (s : State) (c : Nat) (f : Core → Core) : (s.modCore c f).settle = s.settle := rfl
@[simp] theorem State.modCore_ferry (s : State) (c : Nat) (f : Core → Core) : (s.modCore c f).ferry = s.ferry := rfl
@[simp] theorem State.modCore_ports (s : State) (c : Nat) (f : Core → Core) : (s.modCore c f).ports = s.ports := rfl
@[simp] theorem State.modCore_drv (s : State) (c : Nat) (f : Core → Core) : (s.modCore c f).drv = s.drv := rfl
@[simp] theorem State.modCore_health (s : State) (c : Nat) (f : Core → Core) : (s.modCore c f).health = s.health := rfl
@[simp] theorem State.modCore_savedTiles (s : State) (c : Nat) (f : Core → Core) : (s.modCore c f).savedTiles = s.savedTiles := rfl
@[simp] theorem State.modCore_slot (s : State) (c : Nat) (f : Core → Core) (j : SlotId) : (s.modCore c f).slot j = s.slot j := rfl
@[simp] theorem State.modCore_cluster (s : State) (c : Nat) (f : Core → Core) (j : Nat) : (s.modCore c f).cluster j = s.cluster j := rfl
@[simp] theorem State.modCore_slice (s : State) (c : Nat) (f : Core → Core) (j : Nat) : (s.modCore c f).slice j = s.slice j := rfl
@[simp] theorem State.modCore_base (s : State) (c : Nat) (f : Core → Core) (j : Nat) : (s.modCore c f).base j = s.base j := rfl
@[simp] theorem State.modCore_port (s : State) (c : Nat) (f : Core → Core) (j : Nat) : (s.modCore c f).port j = s.port j := rfl
@[simp] theorem State.modCore_granule (s : State) (c : Nat) (f : Core → Core) (j : Nat) : (s.modCore c f).granule j = s.granule j := rfl

/-! ### State.setCluster -/

@[simp] theorem State.setCluster_grade640S (s : State) (k : Nat) (v : Cluster) : (s.setCluster k v).grade640S = s.grade640S := rfl
@[simp] theorem State.setCluster_fuses (s : State) (k : Nat) (v : Cluster) : (s.setCluster k v).fuses = s.fuses := rfl
@[simp] theorem State.setCluster_mem (s : State) (k : Nat) (v : Cluster) : (s.setCluster k v).mem = s.mem := rfl
@[simp] theorem State.setCluster_gran (s : State) (k : Nat) (v : Cluster) : (s.setCluster k v).gran = s.gran := rfl
@[simp] theorem State.setCluster_clock (s : State) (k : Nat) (v : Cluster) : (s.setCluster k v).clock = s.clock := rfl
@[simp] theorem State.setCluster_free (s : State) (k : Nat) (v : Cluster) : (s.setCluster k v).free = s.free := rfl
@[simp] theorem State.setCluster_agenda (s : State) (k : Nat) (v : Cluster) : (s.setCluster k v).agenda = s.agenda := rfl
@[simp] theorem State.setCluster_cur (s : State) (k : Nat) (v : Cluster) : (s.setCluster k v).cur = s.cur := rfl
@[simp] theorem State.setCluster_engineTurn (s : State) (k : Nat) (v : Cluster) : (s.setCluster k v).engineTurn = s.engineTurn := rfl
@[simp] theorem State.setCluster_ir (s : State) (k : Nat) (v : Cluster) : (s.setCluster k v).ir = s.ir := rfl
@[simp] theorem State.setCluster_power (s : State) (k : Nat) (v : Cluster) : (s.setCluster k v).power = s.power := rfl
@[simp] theorem State.setCluster_resetAt (s : State) (k : Nat) (v : Cluster) : (s.setCluster k v).resetAt = s.resetAt := rfl
@[simp] theorem State.setCluster_slots (s : State) (k : Nat) (v : Cluster) : (s.setCluster k v).slots = s.slots := rfl
@[simp] theorem State.setCluster_cores (s : State) (k : Nat) (v : Cluster) : (s.setCluster k v).cores = s.cores := rfl
@[simp] theorem State.setCluster_disp (s : State) (k : Nat) (v : Cluster) : (s.setCluster k v).disp = s.disp := rfl
@[simp] theorem State.setCluster_ticket (s : State) (k : Nat) (v : Cluster) : (s.setCluster k v).ticket = s.ticket := rfl
@[simp] theorem State.setCluster_tokenNext (s : State) (k : Nat) (v : Cluster) : (s.setCluster k v).tokenNext = s.tokenNext := rfl
@[simp] theorem State.setCluster_ctxEnable (s : State) (k : Nat) (v : Cluster) : (s.setCluster k v).ctxEnable = s.ctxEnable := rfl
@[simp] theorem State.setCluster_ctxBase (s : State) (k : Nat) (v : Cluster) : (s.setCluster k v).ctxBase = s.ctxBase := rfl
@[simp] theorem State.setCluster_ctxCache (s : State) (k : Nat) (v : Cluster) : (s.setCluster k v).ctxCache = s.ctxCache := rfl
@[simp] theorem State.setCluster_walkCaches (s : State) (k : Nat) (v : Cluster) : (s.setCluster k v).walkCaches = s.walkCaches := rfl
@[simp] theorem State.setCluster_walks (s : State) (k : Nat) (v : Cluster) : (s.setCluster k v).walks = s.walks := rfl
@[simp] theorem State.setCluster_walkQueue (s : State) (k : Nat) (v : Cluster) : (s.setCluster k v).walkQueue = s.walkQueue := rfl
@[simp] theorem State.setCluster_walkTurn (s : State) (k : Nat) (v : Cluster) : (s.setCluster k v).walkTurn = s.walkTurn := rfl
@[simp] theorem State.setCluster_watches (s : State) (k : Nat) (v : Cluster) : (s.setCluster k v).watches = s.watches := rfl
@[simp] theorem State.setCluster_notices (s : State) (k : Nat) (v : Cluster) : (s.setCluster k v).notices = s.notices := rfl
@[simp] theorem State.setCluster_snoops (s : State) (k : Nat) (v : Cluster) : (s.setCluster k v).snoops = s.snoops := rfl
@[simp] theorem State.setCluster_regWrites (s : State) (k : Nat) (v : Cluster) : (s.setCluster k v).regWrites = s.regWrites := rfl
@[simp] theorem State.setCluster_unanswered (s : State) (k : Nat) (v : Cluster) : (s.setCluster k v).unanswered = s.unanswered := rfl
@[simp] theorem State.setCluster_slices (s : State) (k : Nat) (v : Cluster) : (s.setCluster k v).slices = s.slices := rfl
@[simp] theorem State.setCluster_bases (s : State) (k : Nat) (v : Cluster) : (s.setCluster k v).bases = s.bases := rfl
@[simp] theorem State.setCluster_settle (s : State) (k : Nat) (v : Cluster) : (s.setCluster k v).settle = s.settle := rfl
@[simp] theorem State.setCluster_ferry (s : State) (k : Nat) (v : Cluster) : (s.setCluster k v).ferry = s.ferry := rfl
@[simp] theorem State.setCluster_ports (s : State) (k : Nat) (v : Cluster) : (s.setCluster k v).ports = s.ports := rfl
@[simp] theorem State.setCluster_drv (s : State) (k : Nat) (v : Cluster) : (s.setCluster k v).drv = s.drv := rfl
@[simp] theorem State.setCluster_health (s : State) (k : Nat) (v : Cluster) : (s.setCluster k v).health = s.health := rfl
@[simp] theorem State.setCluster_savedTiles (s : State) (k : Nat) (v : Cluster) : (s.setCluster k v).savedTiles = s.savedTiles := rfl
@[simp] theorem State.setCluster_slot (s : State) (k : Nat) (v : Cluster) (j : SlotId) : (s.setCluster k v).slot j = s.slot j := rfl
@[simp] theorem State.setCluster_core (s : State) (k : Nat) (v : Cluster) (j : Nat) : (s.setCluster k v).core j = s.core j := rfl
@[simp] theorem State.setCluster_slice (s : State) (k : Nat) (v : Cluster) (j : Nat) : (s.setCluster k v).slice j = s.slice j := rfl
@[simp] theorem State.setCluster_base (s : State) (k : Nat) (v : Cluster) (j : Nat) : (s.setCluster k v).base j = s.base j := rfl
@[simp] theorem State.setCluster_port (s : State) (k : Nat) (v : Cluster) (j : Nat) : (s.setCluster k v).port j = s.port j := rfl
@[simp] theorem State.setCluster_granule (s : State) (k : Nat) (v : Cluster) (j : Nat) : (s.setCluster k v).granule j = s.granule j := rfl

/-! ### State.modCluster -/

@[simp] theorem State.modCluster_grade640S (s : State) (k : Nat) (f : Cluster → Cluster) : (s.modCluster k f).grade640S = s.grade640S := rfl
@[simp] theorem State.modCluster_fuses (s : State) (k : Nat) (f : Cluster → Cluster) : (s.modCluster k f).fuses = s.fuses := rfl
@[simp] theorem State.modCluster_mem (s : State) (k : Nat) (f : Cluster → Cluster) : (s.modCluster k f).mem = s.mem := rfl
@[simp] theorem State.modCluster_gran (s : State) (k : Nat) (f : Cluster → Cluster) : (s.modCluster k f).gran = s.gran := rfl
@[simp] theorem State.modCluster_clock (s : State) (k : Nat) (f : Cluster → Cluster) : (s.modCluster k f).clock = s.clock := rfl
@[simp] theorem State.modCluster_free (s : State) (k : Nat) (f : Cluster → Cluster) : (s.modCluster k f).free = s.free := rfl
@[simp] theorem State.modCluster_agenda (s : State) (k : Nat) (f : Cluster → Cluster) : (s.modCluster k f).agenda = s.agenda := rfl
@[simp] theorem State.modCluster_cur (s : State) (k : Nat) (f : Cluster → Cluster) : (s.modCluster k f).cur = s.cur := rfl
@[simp] theorem State.modCluster_engineTurn (s : State) (k : Nat) (f : Cluster → Cluster) : (s.modCluster k f).engineTurn = s.engineTurn := rfl
@[simp] theorem State.modCluster_ir (s : State) (k : Nat) (f : Cluster → Cluster) : (s.modCluster k f).ir = s.ir := rfl
@[simp] theorem State.modCluster_power (s : State) (k : Nat) (f : Cluster → Cluster) : (s.modCluster k f).power = s.power := rfl
@[simp] theorem State.modCluster_resetAt (s : State) (k : Nat) (f : Cluster → Cluster) : (s.modCluster k f).resetAt = s.resetAt := rfl
@[simp] theorem State.modCluster_slots (s : State) (k : Nat) (f : Cluster → Cluster) : (s.modCluster k f).slots = s.slots := rfl
@[simp] theorem State.modCluster_cores (s : State) (k : Nat) (f : Cluster → Cluster) : (s.modCluster k f).cores = s.cores := rfl
@[simp] theorem State.modCluster_disp (s : State) (k : Nat) (f : Cluster → Cluster) : (s.modCluster k f).disp = s.disp := rfl
@[simp] theorem State.modCluster_ticket (s : State) (k : Nat) (f : Cluster → Cluster) : (s.modCluster k f).ticket = s.ticket := rfl
@[simp] theorem State.modCluster_tokenNext (s : State) (k : Nat) (f : Cluster → Cluster) : (s.modCluster k f).tokenNext = s.tokenNext := rfl
@[simp] theorem State.modCluster_ctxEnable (s : State) (k : Nat) (f : Cluster → Cluster) : (s.modCluster k f).ctxEnable = s.ctxEnable := rfl
@[simp] theorem State.modCluster_ctxBase (s : State) (k : Nat) (f : Cluster → Cluster) : (s.modCluster k f).ctxBase = s.ctxBase := rfl
@[simp] theorem State.modCluster_ctxCache (s : State) (k : Nat) (f : Cluster → Cluster) : (s.modCluster k f).ctxCache = s.ctxCache := rfl
@[simp] theorem State.modCluster_walkCaches (s : State) (k : Nat) (f : Cluster → Cluster) : (s.modCluster k f).walkCaches = s.walkCaches := rfl
@[simp] theorem State.modCluster_walks (s : State) (k : Nat) (f : Cluster → Cluster) : (s.modCluster k f).walks = s.walks := rfl
@[simp] theorem State.modCluster_walkQueue (s : State) (k : Nat) (f : Cluster → Cluster) : (s.modCluster k f).walkQueue = s.walkQueue := rfl
@[simp] theorem State.modCluster_walkTurn (s : State) (k : Nat) (f : Cluster → Cluster) : (s.modCluster k f).walkTurn = s.walkTurn := rfl
@[simp] theorem State.modCluster_watches (s : State) (k : Nat) (f : Cluster → Cluster) : (s.modCluster k f).watches = s.watches := rfl
@[simp] theorem State.modCluster_notices (s : State) (k : Nat) (f : Cluster → Cluster) : (s.modCluster k f).notices = s.notices := rfl
@[simp] theorem State.modCluster_snoops (s : State) (k : Nat) (f : Cluster → Cluster) : (s.modCluster k f).snoops = s.snoops := rfl
@[simp] theorem State.modCluster_regWrites (s : State) (k : Nat) (f : Cluster → Cluster) : (s.modCluster k f).regWrites = s.regWrites := rfl
@[simp] theorem State.modCluster_unanswered (s : State) (k : Nat) (f : Cluster → Cluster) : (s.modCluster k f).unanswered = s.unanswered := rfl
@[simp] theorem State.modCluster_slices (s : State) (k : Nat) (f : Cluster → Cluster) : (s.modCluster k f).slices = s.slices := rfl
@[simp] theorem State.modCluster_bases (s : State) (k : Nat) (f : Cluster → Cluster) : (s.modCluster k f).bases = s.bases := rfl
@[simp] theorem State.modCluster_settle (s : State) (k : Nat) (f : Cluster → Cluster) : (s.modCluster k f).settle = s.settle := rfl
@[simp] theorem State.modCluster_ferry (s : State) (k : Nat) (f : Cluster → Cluster) : (s.modCluster k f).ferry = s.ferry := rfl
@[simp] theorem State.modCluster_ports (s : State) (k : Nat) (f : Cluster → Cluster) : (s.modCluster k f).ports = s.ports := rfl
@[simp] theorem State.modCluster_drv (s : State) (k : Nat) (f : Cluster → Cluster) : (s.modCluster k f).drv = s.drv := rfl
@[simp] theorem State.modCluster_health (s : State) (k : Nat) (f : Cluster → Cluster) : (s.modCluster k f).health = s.health := rfl
@[simp] theorem State.modCluster_savedTiles (s : State) (k : Nat) (f : Cluster → Cluster) : (s.modCluster k f).savedTiles = s.savedTiles := rfl
@[simp] theorem State.modCluster_slot (s : State) (k : Nat) (f : Cluster → Cluster) (j : SlotId) : (s.modCluster k f).slot j = s.slot j := rfl
@[simp] theorem State.modCluster_core (s : State) (k : Nat) (f : Cluster → Cluster) (j : Nat) : (s.modCluster k f).core j = s.core j := rfl
@[simp] theorem State.modCluster_slice (s : State) (k : Nat) (f : Cluster → Cluster) (j : Nat) : (s.modCluster k f).slice j = s.slice j := rfl
@[simp] theorem State.modCluster_base (s : State) (k : Nat) (f : Cluster → Cluster) (j : Nat) : (s.modCluster k f).base j = s.base j := rfl
@[simp] theorem State.modCluster_port (s : State) (k : Nat) (f : Cluster → Cluster) (j : Nat) : (s.modCluster k f).port j = s.port j := rfl
@[simp] theorem State.modCluster_granule (s : State) (k : Nat) (f : Cluster → Cluster) (j : Nat) : (s.modCluster k f).granule j = s.granule j := rfl

/-! ### State.modSlice -/

@[simp] theorem State.modSlice_grade640S (s : State) (i : Nat) (f : Slice → Slice) : (s.modSlice i f).grade640S = s.grade640S := rfl
@[simp] theorem State.modSlice_fuses (s : State) (i : Nat) (f : Slice → Slice) : (s.modSlice i f).fuses = s.fuses := rfl
@[simp] theorem State.modSlice_mem (s : State) (i : Nat) (f : Slice → Slice) : (s.modSlice i f).mem = s.mem := rfl
@[simp] theorem State.modSlice_gran (s : State) (i : Nat) (f : Slice → Slice) : (s.modSlice i f).gran = s.gran := rfl
@[simp] theorem State.modSlice_clock (s : State) (i : Nat) (f : Slice → Slice) : (s.modSlice i f).clock = s.clock := rfl
@[simp] theorem State.modSlice_free (s : State) (i : Nat) (f : Slice → Slice) : (s.modSlice i f).free = s.free := rfl
@[simp] theorem State.modSlice_agenda (s : State) (i : Nat) (f : Slice → Slice) : (s.modSlice i f).agenda = s.agenda := rfl
@[simp] theorem State.modSlice_cur (s : State) (i : Nat) (f : Slice → Slice) : (s.modSlice i f).cur = s.cur := rfl
@[simp] theorem State.modSlice_engineTurn (s : State) (i : Nat) (f : Slice → Slice) : (s.modSlice i f).engineTurn = s.engineTurn := rfl
@[simp] theorem State.modSlice_ir (s : State) (i : Nat) (f : Slice → Slice) : (s.modSlice i f).ir = s.ir := rfl
@[simp] theorem State.modSlice_power (s : State) (i : Nat) (f : Slice → Slice) : (s.modSlice i f).power = s.power := rfl
@[simp] theorem State.modSlice_resetAt (s : State) (i : Nat) (f : Slice → Slice) : (s.modSlice i f).resetAt = s.resetAt := rfl
@[simp] theorem State.modSlice_slots (s : State) (i : Nat) (f : Slice → Slice) : (s.modSlice i f).slots = s.slots := rfl
@[simp] theorem State.modSlice_cores (s : State) (i : Nat) (f : Slice → Slice) : (s.modSlice i f).cores = s.cores := rfl
@[simp] theorem State.modSlice_clusters (s : State) (i : Nat) (f : Slice → Slice) : (s.modSlice i f).clusters = s.clusters := rfl
@[simp] theorem State.modSlice_disp (s : State) (i : Nat) (f : Slice → Slice) : (s.modSlice i f).disp = s.disp := rfl
@[simp] theorem State.modSlice_ticket (s : State) (i : Nat) (f : Slice → Slice) : (s.modSlice i f).ticket = s.ticket := rfl
@[simp] theorem State.modSlice_tokenNext (s : State) (i : Nat) (f : Slice → Slice) : (s.modSlice i f).tokenNext = s.tokenNext := rfl
@[simp] theorem State.modSlice_ctxEnable (s : State) (i : Nat) (f : Slice → Slice) : (s.modSlice i f).ctxEnable = s.ctxEnable := rfl
@[simp] theorem State.modSlice_ctxBase (s : State) (i : Nat) (f : Slice → Slice) : (s.modSlice i f).ctxBase = s.ctxBase := rfl
@[simp] theorem State.modSlice_ctxCache (s : State) (i : Nat) (f : Slice → Slice) : (s.modSlice i f).ctxCache = s.ctxCache := rfl
@[simp] theorem State.modSlice_walkCaches (s : State) (i : Nat) (f : Slice → Slice) : (s.modSlice i f).walkCaches = s.walkCaches := rfl
@[simp] theorem State.modSlice_walks (s : State) (i : Nat) (f : Slice → Slice) : (s.modSlice i f).walks = s.walks := rfl
@[simp] theorem State.modSlice_walkQueue (s : State) (i : Nat) (f : Slice → Slice) : (s.modSlice i f).walkQueue = s.walkQueue := rfl
@[simp] theorem State.modSlice_walkTurn (s : State) (i : Nat) (f : Slice → Slice) : (s.modSlice i f).walkTurn = s.walkTurn := rfl
@[simp] theorem State.modSlice_watches (s : State) (i : Nat) (f : Slice → Slice) : (s.modSlice i f).watches = s.watches := rfl
@[simp] theorem State.modSlice_notices (s : State) (i : Nat) (f : Slice → Slice) : (s.modSlice i f).notices = s.notices := rfl
@[simp] theorem State.modSlice_snoops (s : State) (i : Nat) (f : Slice → Slice) : (s.modSlice i f).snoops = s.snoops := rfl
@[simp] theorem State.modSlice_regWrites (s : State) (i : Nat) (f : Slice → Slice) : (s.modSlice i f).regWrites = s.regWrites := rfl
@[simp] theorem State.modSlice_unanswered (s : State) (i : Nat) (f : Slice → Slice) : (s.modSlice i f).unanswered = s.unanswered := rfl
@[simp] theorem State.modSlice_bases (s : State) (i : Nat) (f : Slice → Slice) : (s.modSlice i f).bases = s.bases := rfl
@[simp] theorem State.modSlice_settle (s : State) (i : Nat) (f : Slice → Slice) : (s.modSlice i f).settle = s.settle := rfl
@[simp] theorem State.modSlice_ferry (s : State) (i : Nat) (f : Slice → Slice) : (s.modSlice i f).ferry = s.ferry := rfl
@[simp] theorem State.modSlice_ports (s : State) (i : Nat) (f : Slice → Slice) : (s.modSlice i f).ports = s.ports := rfl
@[simp] theorem State.modSlice_drv (s : State) (i : Nat) (f : Slice → Slice) : (s.modSlice i f).drv = s.drv := rfl
@[simp] theorem State.modSlice_health (s : State) (i : Nat) (f : Slice → Slice) : (s.modSlice i f).health = s.health := rfl
@[simp] theorem State.modSlice_savedTiles (s : State) (i : Nat) (f : Slice → Slice) : (s.modSlice i f).savedTiles = s.savedTiles := rfl
@[simp] theorem State.modSlice_slot (s : State) (i : Nat) (f : Slice → Slice) (j : SlotId) : (s.modSlice i f).slot j = s.slot j := rfl
@[simp] theorem State.modSlice_core (s : State) (i : Nat) (f : Slice → Slice) (j : Nat) : (s.modSlice i f).core j = s.core j := rfl
@[simp] theorem State.modSlice_cluster (s : State) (i : Nat) (f : Slice → Slice) (j : Nat) : (s.modSlice i f).cluster j = s.cluster j := rfl
@[simp] theorem State.modSlice_base (s : State) (i : Nat) (f : Slice → Slice) (j : Nat) : (s.modSlice i f).base j = s.base j := rfl
@[simp] theorem State.modSlice_port (s : State) (i : Nat) (f : Slice → Slice) (j : Nat) : (s.modSlice i f).port j = s.port j := rfl
@[simp] theorem State.modSlice_granule (s : State) (i : Nat) (f : Slice → Slice) (j : Nat) : (s.modSlice i f).granule j = s.granule j := rfl

/-! ### State.modBase -/

@[simp] theorem State.modBase_grade640S (s : State) (b : Nat) (f : BaseDie → BaseDie) : (s.modBase b f).grade640S = s.grade640S := rfl
@[simp] theorem State.modBase_fuses (s : State) (b : Nat) (f : BaseDie → BaseDie) : (s.modBase b f).fuses = s.fuses := rfl
@[simp] theorem State.modBase_mem (s : State) (b : Nat) (f : BaseDie → BaseDie) : (s.modBase b f).mem = s.mem := rfl
@[simp] theorem State.modBase_gran (s : State) (b : Nat) (f : BaseDie → BaseDie) : (s.modBase b f).gran = s.gran := rfl
@[simp] theorem State.modBase_clock (s : State) (b : Nat) (f : BaseDie → BaseDie) : (s.modBase b f).clock = s.clock := rfl
@[simp] theorem State.modBase_free (s : State) (b : Nat) (f : BaseDie → BaseDie) : (s.modBase b f).free = s.free := rfl
@[simp] theorem State.modBase_agenda (s : State) (b : Nat) (f : BaseDie → BaseDie) : (s.modBase b f).agenda = s.agenda := rfl
@[simp] theorem State.modBase_cur (s : State) (b : Nat) (f : BaseDie → BaseDie) : (s.modBase b f).cur = s.cur := rfl
@[simp] theorem State.modBase_engineTurn (s : State) (b : Nat) (f : BaseDie → BaseDie) : (s.modBase b f).engineTurn = s.engineTurn := rfl
@[simp] theorem State.modBase_ir (s : State) (b : Nat) (f : BaseDie → BaseDie) : (s.modBase b f).ir = s.ir := rfl
@[simp] theorem State.modBase_power (s : State) (b : Nat) (f : BaseDie → BaseDie) : (s.modBase b f).power = s.power := rfl
@[simp] theorem State.modBase_resetAt (s : State) (b : Nat) (f : BaseDie → BaseDie) : (s.modBase b f).resetAt = s.resetAt := rfl
@[simp] theorem State.modBase_slots (s : State) (b : Nat) (f : BaseDie → BaseDie) : (s.modBase b f).slots = s.slots := rfl
@[simp] theorem State.modBase_cores (s : State) (b : Nat) (f : BaseDie → BaseDie) : (s.modBase b f).cores = s.cores := rfl
@[simp] theorem State.modBase_clusters (s : State) (b : Nat) (f : BaseDie → BaseDie) : (s.modBase b f).clusters = s.clusters := rfl
@[simp] theorem State.modBase_disp (s : State) (b : Nat) (f : BaseDie → BaseDie) : (s.modBase b f).disp = s.disp := rfl
@[simp] theorem State.modBase_ticket (s : State) (b : Nat) (f : BaseDie → BaseDie) : (s.modBase b f).ticket = s.ticket := rfl
@[simp] theorem State.modBase_tokenNext (s : State) (b : Nat) (f : BaseDie → BaseDie) : (s.modBase b f).tokenNext = s.tokenNext := rfl
@[simp] theorem State.modBase_ctxEnable (s : State) (b : Nat) (f : BaseDie → BaseDie) : (s.modBase b f).ctxEnable = s.ctxEnable := rfl
@[simp] theorem State.modBase_ctxBase (s : State) (b : Nat) (f : BaseDie → BaseDie) : (s.modBase b f).ctxBase = s.ctxBase := rfl
@[simp] theorem State.modBase_ctxCache (s : State) (b : Nat) (f : BaseDie → BaseDie) : (s.modBase b f).ctxCache = s.ctxCache := rfl
@[simp] theorem State.modBase_walkCaches (s : State) (b : Nat) (f : BaseDie → BaseDie) : (s.modBase b f).walkCaches = s.walkCaches := rfl
@[simp] theorem State.modBase_walks (s : State) (b : Nat) (f : BaseDie → BaseDie) : (s.modBase b f).walks = s.walks := rfl
@[simp] theorem State.modBase_walkQueue (s : State) (b : Nat) (f : BaseDie → BaseDie) : (s.modBase b f).walkQueue = s.walkQueue := rfl
@[simp] theorem State.modBase_walkTurn (s : State) (b : Nat) (f : BaseDie → BaseDie) : (s.modBase b f).walkTurn = s.walkTurn := rfl
@[simp] theorem State.modBase_watches (s : State) (b : Nat) (f : BaseDie → BaseDie) : (s.modBase b f).watches = s.watches := rfl
@[simp] theorem State.modBase_notices (s : State) (b : Nat) (f : BaseDie → BaseDie) : (s.modBase b f).notices = s.notices := rfl
@[simp] theorem State.modBase_snoops (s : State) (b : Nat) (f : BaseDie → BaseDie) : (s.modBase b f).snoops = s.snoops := rfl
@[simp] theorem State.modBase_regWrites (s : State) (b : Nat) (f : BaseDie → BaseDie) : (s.modBase b f).regWrites = s.regWrites := rfl
@[simp] theorem State.modBase_unanswered (s : State) (b : Nat) (f : BaseDie → BaseDie) : (s.modBase b f).unanswered = s.unanswered := rfl
@[simp] theorem State.modBase_slices (s : State) (b : Nat) (f : BaseDie → BaseDie) : (s.modBase b f).slices = s.slices := rfl
@[simp] theorem State.modBase_settle (s : State) (b : Nat) (f : BaseDie → BaseDie) : (s.modBase b f).settle = s.settle := rfl
@[simp] theorem State.modBase_ferry (s : State) (b : Nat) (f : BaseDie → BaseDie) : (s.modBase b f).ferry = s.ferry := rfl
@[simp] theorem State.modBase_ports (s : State) (b : Nat) (f : BaseDie → BaseDie) : (s.modBase b f).ports = s.ports := rfl
@[simp] theorem State.modBase_drv (s : State) (b : Nat) (f : BaseDie → BaseDie) : (s.modBase b f).drv = s.drv := rfl
@[simp] theorem State.modBase_health (s : State) (b : Nat) (f : BaseDie → BaseDie) : (s.modBase b f).health = s.health := rfl
@[simp] theorem State.modBase_savedTiles (s : State) (b : Nat) (f : BaseDie → BaseDie) : (s.modBase b f).savedTiles = s.savedTiles := rfl
@[simp] theorem State.modBase_slot (s : State) (b : Nat) (f : BaseDie → BaseDie) (j : SlotId) : (s.modBase b f).slot j = s.slot j := rfl
@[simp] theorem State.modBase_core (s : State) (b : Nat) (f : BaseDie → BaseDie) (j : Nat) : (s.modBase b f).core j = s.core j := rfl
@[simp] theorem State.modBase_cluster (s : State) (b : Nat) (f : BaseDie → BaseDie) (j : Nat) : (s.modBase b f).cluster j = s.cluster j := rfl
@[simp] theorem State.modBase_slice (s : State) (b : Nat) (f : BaseDie → BaseDie) (j : Nat) : (s.modBase b f).slice j = s.slice j := rfl
@[simp] theorem State.modBase_port (s : State) (b : Nat) (f : BaseDie → BaseDie) (j : Nat) : (s.modBase b f).port j = s.port j := rfl
@[simp] theorem State.modBase_granule (s : State) (b : Nat) (f : BaseDie → BaseDie) (j : Nat) : (s.modBase b f).granule j = s.granule j := rfl

/-! ### State.modPort -/

@[simp] theorem State.modPort_grade640S (s : State) (p : Nat) (f : Port → Port) : (s.modPort p f).grade640S = s.grade640S := rfl
@[simp] theorem State.modPort_fuses (s : State) (p : Nat) (f : Port → Port) : (s.modPort p f).fuses = s.fuses := rfl
@[simp] theorem State.modPort_mem (s : State) (p : Nat) (f : Port → Port) : (s.modPort p f).mem = s.mem := rfl
@[simp] theorem State.modPort_gran (s : State) (p : Nat) (f : Port → Port) : (s.modPort p f).gran = s.gran := rfl
@[simp] theorem State.modPort_clock (s : State) (p : Nat) (f : Port → Port) : (s.modPort p f).clock = s.clock := rfl
@[simp] theorem State.modPort_free (s : State) (p : Nat) (f : Port → Port) : (s.modPort p f).free = s.free := rfl
@[simp] theorem State.modPort_agenda (s : State) (p : Nat) (f : Port → Port) : (s.modPort p f).agenda = s.agenda := rfl
@[simp] theorem State.modPort_cur (s : State) (p : Nat) (f : Port → Port) : (s.modPort p f).cur = s.cur := rfl
@[simp] theorem State.modPort_engineTurn (s : State) (p : Nat) (f : Port → Port) : (s.modPort p f).engineTurn = s.engineTurn := rfl
@[simp] theorem State.modPort_ir (s : State) (p : Nat) (f : Port → Port) : (s.modPort p f).ir = s.ir := rfl
@[simp] theorem State.modPort_power (s : State) (p : Nat) (f : Port → Port) : (s.modPort p f).power = s.power := rfl
@[simp] theorem State.modPort_resetAt (s : State) (p : Nat) (f : Port → Port) : (s.modPort p f).resetAt = s.resetAt := rfl
@[simp] theorem State.modPort_slots (s : State) (p : Nat) (f : Port → Port) : (s.modPort p f).slots = s.slots := rfl
@[simp] theorem State.modPort_cores (s : State) (p : Nat) (f : Port → Port) : (s.modPort p f).cores = s.cores := rfl
@[simp] theorem State.modPort_clusters (s : State) (p : Nat) (f : Port → Port) : (s.modPort p f).clusters = s.clusters := rfl
@[simp] theorem State.modPort_disp (s : State) (p : Nat) (f : Port → Port) : (s.modPort p f).disp = s.disp := rfl
@[simp] theorem State.modPort_ticket (s : State) (p : Nat) (f : Port → Port) : (s.modPort p f).ticket = s.ticket := rfl
@[simp] theorem State.modPort_tokenNext (s : State) (p : Nat) (f : Port → Port) : (s.modPort p f).tokenNext = s.tokenNext := rfl
@[simp] theorem State.modPort_ctxEnable (s : State) (p : Nat) (f : Port → Port) : (s.modPort p f).ctxEnable = s.ctxEnable := rfl
@[simp] theorem State.modPort_ctxBase (s : State) (p : Nat) (f : Port → Port) : (s.modPort p f).ctxBase = s.ctxBase := rfl
@[simp] theorem State.modPort_ctxCache (s : State) (p : Nat) (f : Port → Port) : (s.modPort p f).ctxCache = s.ctxCache := rfl
@[simp] theorem State.modPort_walkCaches (s : State) (p : Nat) (f : Port → Port) : (s.modPort p f).walkCaches = s.walkCaches := rfl
@[simp] theorem State.modPort_walks (s : State) (p : Nat) (f : Port → Port) : (s.modPort p f).walks = s.walks := rfl
@[simp] theorem State.modPort_walkQueue (s : State) (p : Nat) (f : Port → Port) : (s.modPort p f).walkQueue = s.walkQueue := rfl
@[simp] theorem State.modPort_walkTurn (s : State) (p : Nat) (f : Port → Port) : (s.modPort p f).walkTurn = s.walkTurn := rfl
@[simp] theorem State.modPort_watches (s : State) (p : Nat) (f : Port → Port) : (s.modPort p f).watches = s.watches := rfl
@[simp] theorem State.modPort_notices (s : State) (p : Nat) (f : Port → Port) : (s.modPort p f).notices = s.notices := rfl
@[simp] theorem State.modPort_snoops (s : State) (p : Nat) (f : Port → Port) : (s.modPort p f).snoops = s.snoops := rfl
@[simp] theorem State.modPort_regWrites (s : State) (p : Nat) (f : Port → Port) : (s.modPort p f).regWrites = s.regWrites := rfl
@[simp] theorem State.modPort_unanswered (s : State) (p : Nat) (f : Port → Port) : (s.modPort p f).unanswered = s.unanswered := rfl
@[simp] theorem State.modPort_slices (s : State) (p : Nat) (f : Port → Port) : (s.modPort p f).slices = s.slices := rfl
@[simp] theorem State.modPort_bases (s : State) (p : Nat) (f : Port → Port) : (s.modPort p f).bases = s.bases := rfl
@[simp] theorem State.modPort_settle (s : State) (p : Nat) (f : Port → Port) : (s.modPort p f).settle = s.settle := rfl
@[simp] theorem State.modPort_ferry (s : State) (p : Nat) (f : Port → Port) : (s.modPort p f).ferry = s.ferry := rfl
@[simp] theorem State.modPort_drv (s : State) (p : Nat) (f : Port → Port) : (s.modPort p f).drv = s.drv := rfl
@[simp] theorem State.modPort_health (s : State) (p : Nat) (f : Port → Port) : (s.modPort p f).health = s.health := rfl
@[simp] theorem State.modPort_savedTiles (s : State) (p : Nat) (f : Port → Port) : (s.modPort p f).savedTiles = s.savedTiles := rfl
@[simp] theorem State.modPort_slot (s : State) (p : Nat) (f : Port → Port) (j : SlotId) : (s.modPort p f).slot j = s.slot j := rfl
@[simp] theorem State.modPort_core (s : State) (p : Nat) (f : Port → Port) (j : Nat) : (s.modPort p f).core j = s.core j := rfl
@[simp] theorem State.modPort_cluster (s : State) (p : Nat) (f : Port → Port) (j : Nat) : (s.modPort p f).cluster j = s.cluster j := rfl
@[simp] theorem State.modPort_slice (s : State) (p : Nat) (f : Port → Port) (j : Nat) : (s.modPort p f).slice j = s.slice j := rfl
@[simp] theorem State.modPort_base (s : State) (p : Nat) (f : Port → Port) (j : Nat) : (s.modPort p f).base j = s.base j := rfl
@[simp] theorem State.modPort_granule (s : State) (p : Nat) (f : Port → Port) (j : Nat) : (s.modPort p f).granule j = s.granule j := rfl

/-! ### State.modGran -/

@[simp] theorem State.modGran_grade640S (s : State) (g : Nat) (f : Gran → Gran) : (s.modGran g f).grade640S = s.grade640S := rfl
@[simp] theorem State.modGran_fuses (s : State) (g : Nat) (f : Gran → Gran) : (s.modGran g f).fuses = s.fuses := rfl
@[simp] theorem State.modGran_mem (s : State) (g : Nat) (f : Gran → Gran) : (s.modGran g f).mem = s.mem := rfl
@[simp] theorem State.modGran_clock (s : State) (g : Nat) (f : Gran → Gran) : (s.modGran g f).clock = s.clock := rfl
@[simp] theorem State.modGran_free (s : State) (g : Nat) (f : Gran → Gran) : (s.modGran g f).free = s.free := rfl
@[simp] theorem State.modGran_agenda (s : State) (g : Nat) (f : Gran → Gran) : (s.modGran g f).agenda = s.agenda := rfl
@[simp] theorem State.modGran_cur (s : State) (g : Nat) (f : Gran → Gran) : (s.modGran g f).cur = s.cur := rfl
@[simp] theorem State.modGran_engineTurn (s : State) (g : Nat) (f : Gran → Gran) : (s.modGran g f).engineTurn = s.engineTurn := rfl
@[simp] theorem State.modGran_ir (s : State) (g : Nat) (f : Gran → Gran) : (s.modGran g f).ir = s.ir := rfl
@[simp] theorem State.modGran_power (s : State) (g : Nat) (f : Gran → Gran) : (s.modGran g f).power = s.power := rfl
@[simp] theorem State.modGran_resetAt (s : State) (g : Nat) (f : Gran → Gran) : (s.modGran g f).resetAt = s.resetAt := rfl
@[simp] theorem State.modGran_slots (s : State) (g : Nat) (f : Gran → Gran) : (s.modGran g f).slots = s.slots := rfl
@[simp] theorem State.modGran_cores (s : State) (g : Nat) (f : Gran → Gran) : (s.modGran g f).cores = s.cores := rfl
@[simp] theorem State.modGran_clusters (s : State) (g : Nat) (f : Gran → Gran) : (s.modGran g f).clusters = s.clusters := rfl
@[simp] theorem State.modGran_disp (s : State) (g : Nat) (f : Gran → Gran) : (s.modGran g f).disp = s.disp := rfl
@[simp] theorem State.modGran_ticket (s : State) (g : Nat) (f : Gran → Gran) : (s.modGran g f).ticket = s.ticket := rfl
@[simp] theorem State.modGran_tokenNext (s : State) (g : Nat) (f : Gran → Gran) : (s.modGran g f).tokenNext = s.tokenNext := rfl
@[simp] theorem State.modGran_ctxEnable (s : State) (g : Nat) (f : Gran → Gran) : (s.modGran g f).ctxEnable = s.ctxEnable := rfl
@[simp] theorem State.modGran_ctxBase (s : State) (g : Nat) (f : Gran → Gran) : (s.modGran g f).ctxBase = s.ctxBase := rfl
@[simp] theorem State.modGran_ctxCache (s : State) (g : Nat) (f : Gran → Gran) : (s.modGran g f).ctxCache = s.ctxCache := rfl
@[simp] theorem State.modGran_walkCaches (s : State) (g : Nat) (f : Gran → Gran) : (s.modGran g f).walkCaches = s.walkCaches := rfl
@[simp] theorem State.modGran_walks (s : State) (g : Nat) (f : Gran → Gran) : (s.modGran g f).walks = s.walks := rfl
@[simp] theorem State.modGran_walkQueue (s : State) (g : Nat) (f : Gran → Gran) : (s.modGran g f).walkQueue = s.walkQueue := rfl
@[simp] theorem State.modGran_walkTurn (s : State) (g : Nat) (f : Gran → Gran) : (s.modGran g f).walkTurn = s.walkTurn := rfl
@[simp] theorem State.modGran_watches (s : State) (g : Nat) (f : Gran → Gran) : (s.modGran g f).watches = s.watches := rfl
@[simp] theorem State.modGran_notices (s : State) (g : Nat) (f : Gran → Gran) : (s.modGran g f).notices = s.notices := rfl
@[simp] theorem State.modGran_snoops (s : State) (g : Nat) (f : Gran → Gran) : (s.modGran g f).snoops = s.snoops := rfl
@[simp] theorem State.modGran_regWrites (s : State) (g : Nat) (f : Gran → Gran) : (s.modGran g f).regWrites = s.regWrites := rfl
@[simp] theorem State.modGran_unanswered (s : State) (g : Nat) (f : Gran → Gran) : (s.modGran g f).unanswered = s.unanswered := rfl
@[simp] theorem State.modGran_slices (s : State) (g : Nat) (f : Gran → Gran) : (s.modGran g f).slices = s.slices := rfl
@[simp] theorem State.modGran_bases (s : State) (g : Nat) (f : Gran → Gran) : (s.modGran g f).bases = s.bases := rfl
@[simp] theorem State.modGran_settle (s : State) (g : Nat) (f : Gran → Gran) : (s.modGran g f).settle = s.settle := rfl
@[simp] theorem State.modGran_ferry (s : State) (g : Nat) (f : Gran → Gran) : (s.modGran g f).ferry = s.ferry := rfl
@[simp] theorem State.modGran_ports (s : State) (g : Nat) (f : Gran → Gran) : (s.modGran g f).ports = s.ports := rfl
@[simp] theorem State.modGran_drv (s : State) (g : Nat) (f : Gran → Gran) : (s.modGran g f).drv = s.drv := rfl
@[simp] theorem State.modGran_health (s : State) (g : Nat) (f : Gran → Gran) : (s.modGran g f).health = s.health := rfl
@[simp] theorem State.modGran_savedTiles (s : State) (g : Nat) (f : Gran → Gran) : (s.modGran g f).savedTiles = s.savedTiles := rfl
@[simp] theorem State.modGran_slot (s : State) (g : Nat) (f : Gran → Gran) (j : SlotId) : (s.modGran g f).slot j = s.slot j := rfl
@[simp] theorem State.modGran_core (s : State) (g : Nat) (f : Gran → Gran) (j : Nat) : (s.modGran g f).core j = s.core j := rfl
@[simp] theorem State.modGran_cluster (s : State) (g : Nat) (f : Gran → Gran) (j : Nat) : (s.modGran g f).cluster j = s.cluster j := rfl
@[simp] theorem State.modGran_slice (s : State) (g : Nat) (f : Gran → Gran) (j : Nat) : (s.modGran g f).slice j = s.slice j := rfl
@[simp] theorem State.modGran_base (s : State) (g : Nat) (f : Gran → Gran) (j : Nat) : (s.modGran g f).base j = s.base j := rfl
@[simp] theorem State.modGran_port (s : State) (g : Nat) (f : Gran → Gran) (j : Nat) : (s.modGran g f).port j = s.port j := rfl

/-! ### State.setMem -/

@[simp] theorem State.setMem_grade640S (s : State) (m : Memory) : (s.setMem m).grade640S = s.grade640S := rfl
@[simp] theorem State.setMem_fuses (s : State) (m : Memory) : (s.setMem m).fuses = s.fuses := rfl
@[simp] theorem State.setMem_gran (s : State) (m : Memory) : (s.setMem m).gran = s.gran := rfl
@[simp] theorem State.setMem_clock (s : State) (m : Memory) : (s.setMem m).clock = s.clock := rfl
@[simp] theorem State.setMem_free (s : State) (m : Memory) : (s.setMem m).free = s.free := rfl
@[simp] theorem State.setMem_agenda (s : State) (m : Memory) : (s.setMem m).agenda = s.agenda := rfl
@[simp] theorem State.setMem_cur (s : State) (m : Memory) : (s.setMem m).cur = s.cur := rfl
@[simp] theorem State.setMem_engineTurn (s : State) (m : Memory) : (s.setMem m).engineTurn = s.engineTurn := rfl
@[simp] theorem State.setMem_ir (s : State) (m : Memory) : (s.setMem m).ir = s.ir := rfl
@[simp] theorem State.setMem_power (s : State) (m : Memory) : (s.setMem m).power = s.power := rfl
@[simp] theorem State.setMem_resetAt (s : State) (m : Memory) : (s.setMem m).resetAt = s.resetAt := rfl
@[simp] theorem State.setMem_slots (s : State) (m : Memory) : (s.setMem m).slots = s.slots := rfl
@[simp] theorem State.setMem_cores (s : State) (m : Memory) : (s.setMem m).cores = s.cores := rfl
@[simp] theorem State.setMem_clusters (s : State) (m : Memory) : (s.setMem m).clusters = s.clusters := rfl
@[simp] theorem State.setMem_disp (s : State) (m : Memory) : (s.setMem m).disp = s.disp := rfl
@[simp] theorem State.setMem_ticket (s : State) (m : Memory) : (s.setMem m).ticket = s.ticket := rfl
@[simp] theorem State.setMem_tokenNext (s : State) (m : Memory) : (s.setMem m).tokenNext = s.tokenNext := rfl
@[simp] theorem State.setMem_ctxEnable (s : State) (m : Memory) : (s.setMem m).ctxEnable = s.ctxEnable := rfl
@[simp] theorem State.setMem_ctxBase (s : State) (m : Memory) : (s.setMem m).ctxBase = s.ctxBase := rfl
@[simp] theorem State.setMem_ctxCache (s : State) (m : Memory) : (s.setMem m).ctxCache = s.ctxCache := rfl
@[simp] theorem State.setMem_walkCaches (s : State) (m : Memory) : (s.setMem m).walkCaches = s.walkCaches := rfl
@[simp] theorem State.setMem_walks (s : State) (m : Memory) : (s.setMem m).walks = s.walks := rfl
@[simp] theorem State.setMem_walkQueue (s : State) (m : Memory) : (s.setMem m).walkQueue = s.walkQueue := rfl
@[simp] theorem State.setMem_walkTurn (s : State) (m : Memory) : (s.setMem m).walkTurn = s.walkTurn := rfl
@[simp] theorem State.setMem_watches (s : State) (m : Memory) : (s.setMem m).watches = s.watches := rfl
@[simp] theorem State.setMem_notices (s : State) (m : Memory) : (s.setMem m).notices = s.notices := rfl
@[simp] theorem State.setMem_snoops (s : State) (m : Memory) : (s.setMem m).snoops = s.snoops := rfl
@[simp] theorem State.setMem_regWrites (s : State) (m : Memory) : (s.setMem m).regWrites = s.regWrites := rfl
@[simp] theorem State.setMem_unanswered (s : State) (m : Memory) : (s.setMem m).unanswered = s.unanswered := rfl
@[simp] theorem State.setMem_slices (s : State) (m : Memory) : (s.setMem m).slices = s.slices := rfl
@[simp] theorem State.setMem_bases (s : State) (m : Memory) : (s.setMem m).bases = s.bases := rfl
@[simp] theorem State.setMem_settle (s : State) (m : Memory) : (s.setMem m).settle = s.settle := rfl
@[simp] theorem State.setMem_ferry (s : State) (m : Memory) : (s.setMem m).ferry = s.ferry := rfl
@[simp] theorem State.setMem_ports (s : State) (m : Memory) : (s.setMem m).ports = s.ports := rfl
@[simp] theorem State.setMem_drv (s : State) (m : Memory) : (s.setMem m).drv = s.drv := rfl
@[simp] theorem State.setMem_health (s : State) (m : Memory) : (s.setMem m).health = s.health := rfl
@[simp] theorem State.setMem_savedTiles (s : State) (m : Memory) : (s.setMem m).savedTiles = s.savedTiles := rfl
@[simp] theorem State.setMem_slot (s : State) (m : Memory) (j : SlotId) : (s.setMem m).slot j = s.slot j := rfl
@[simp] theorem State.setMem_core (s : State) (m : Memory) (j : Nat) : (s.setMem m).core j = s.core j := rfl
@[simp] theorem State.setMem_cluster (s : State) (m : Memory) (j : Nat) : (s.setMem m).cluster j = s.cluster j := rfl
@[simp] theorem State.setMem_slice (s : State) (m : Memory) (j : Nat) : (s.setMem m).slice j = s.slice j := rfl
@[simp] theorem State.setMem_base (s : State) (m : Memory) (j : Nat) : (s.setMem m).base j = s.base j := rfl
@[simp] theorem State.setMem_port (s : State) (m : Memory) (j : Nat) : (s.setMem m).port j = s.port j := rfl
@[simp] theorem State.setMem_granule (s : State) (m : Memory) (j : Nat) : (s.setMem m).granule j = s.granule j := rfl

/-! ### State.draw -/

@[simp] theorem State.draw_grade640S (s : State) : (s.draw ).grade640S = s.grade640S := rfl
@[simp] theorem State.draw_fuses (s : State) : (s.draw ).fuses = s.fuses := rfl
@[simp] theorem State.draw_mem (s : State) : (s.draw ).mem = s.mem := rfl
@[simp] theorem State.draw_gran (s : State) : (s.draw ).gran = s.gran := rfl
@[simp] theorem State.draw_clock (s : State) : (s.draw ).clock = s.clock := rfl
@[simp] theorem State.draw_agenda (s : State) : (s.draw ).agenda = s.agenda := rfl
@[simp] theorem State.draw_cur (s : State) : (s.draw ).cur = s.cur := rfl
@[simp] theorem State.draw_engineTurn (s : State) : (s.draw ).engineTurn = s.engineTurn := rfl
@[simp] theorem State.draw_ir (s : State) : (s.draw ).ir = s.ir := rfl
@[simp] theorem State.draw_power (s : State) : (s.draw ).power = s.power := rfl
@[simp] theorem State.draw_resetAt (s : State) : (s.draw ).resetAt = s.resetAt := rfl
@[simp] theorem State.draw_slots (s : State) : (s.draw ).slots = s.slots := rfl
@[simp] theorem State.draw_cores (s : State) : (s.draw ).cores = s.cores := rfl
@[simp] theorem State.draw_clusters (s : State) : (s.draw ).clusters = s.clusters := rfl
@[simp] theorem State.draw_disp (s : State) : (s.draw ).disp = s.disp := rfl
@[simp] theorem State.draw_ticket (s : State) : (s.draw ).ticket = s.ticket := rfl
@[simp] theorem State.draw_tokenNext (s : State) : (s.draw ).tokenNext = s.tokenNext := rfl
@[simp] theorem State.draw_ctxEnable (s : State) : (s.draw ).ctxEnable = s.ctxEnable := rfl
@[simp] theorem State.draw_ctxBase (s : State) : (s.draw ).ctxBase = s.ctxBase := rfl
@[simp] theorem State.draw_ctxCache (s : State) : (s.draw ).ctxCache = s.ctxCache := rfl
@[simp] theorem State.draw_walkCaches (s : State) : (s.draw ).walkCaches = s.walkCaches := rfl
@[simp] theorem State.draw_walks (s : State) : (s.draw ).walks = s.walks := rfl
@[simp] theorem State.draw_walkQueue (s : State) : (s.draw ).walkQueue = s.walkQueue := rfl
@[simp] theorem State.draw_walkTurn (s : State) : (s.draw ).walkTurn = s.walkTurn := rfl
@[simp] theorem State.draw_watches (s : State) : (s.draw ).watches = s.watches := rfl
@[simp] theorem State.draw_notices (s : State) : (s.draw ).notices = s.notices := rfl
@[simp] theorem State.draw_snoops (s : State) : (s.draw ).snoops = s.snoops := rfl
@[simp] theorem State.draw_regWrites (s : State) : (s.draw ).regWrites = s.regWrites := rfl
@[simp] theorem State.draw_unanswered (s : State) : (s.draw ).unanswered = s.unanswered := rfl
@[simp] theorem State.draw_slices (s : State) : (s.draw ).slices = s.slices := rfl
@[simp] theorem State.draw_bases (s : State) : (s.draw ).bases = s.bases := rfl
@[simp] theorem State.draw_settle (s : State) : (s.draw ).settle = s.settle := rfl
@[simp] theorem State.draw_ferry (s : State) : (s.draw ).ferry = s.ferry := rfl
@[simp] theorem State.draw_ports (s : State) : (s.draw ).ports = s.ports := rfl
@[simp] theorem State.draw_drv (s : State) : (s.draw ).drv = s.drv := rfl
@[simp] theorem State.draw_health (s : State) : (s.draw ).health = s.health := rfl
@[simp] theorem State.draw_savedTiles (s : State) : (s.draw ).savedTiles = s.savedTiles := rfl
@[simp] theorem State.draw_slot (s : State) (j : SlotId) : (s.draw ).slot j = s.slot j := rfl
@[simp] theorem State.draw_core (s : State) (j : Nat) : (s.draw ).core j = s.core j := rfl
@[simp] theorem State.draw_cluster (s : State) (j : Nat) : (s.draw ).cluster j = s.cluster j := rfl
@[simp] theorem State.draw_slice (s : State) (j : Nat) : (s.draw ).slice j = s.slice j := rfl
@[simp] theorem State.draw_base (s : State) (j : Nat) : (s.draw ).base j = s.base j := rfl
@[simp] theorem State.draw_port (s : State) (j : Nat) : (s.draw ).port j = s.port j := rfl
@[simp] theorem State.draw_granule (s : State) (j : Nat) : (s.draw ).granule j = s.granule j := rfl

/-! ### What an updated part reads as -/

@[simp] theorem State.setSlot_slot_self (s : State) (sl : SlotId) (v : Slot) : (s.setSlot sl v).slot sl = v :=
  Tbl.get_set_self _ _ _ _

theorem State.setSlot_slot_ne (s : State) (a b : SlotId) (v : Slot) (h : a ≠ b) : (s.setSlot a v).slot b = s.slot b :=
  Tbl.get_set_ne _ _ _ _ _ fun e => h (BitVec.eq_of_toNat_eq e)

@[simp] theorem State.modSlot_slot_self (s : State) (sl : SlotId) (f : Slot → Slot) :
    (s.modSlot sl f).slot sl = f (s.slot sl) := Tbl.get_set_self _ _ _ _

theorem State.modSlot_slot_ne (s : State) (a b : SlotId) (f : Slot → Slot) (h : a ≠ b) :
    (s.modSlot a f).slot b = s.slot b := State.setSlot_slot_ne s a b _ h

@[simp] theorem State.setCore_core_self (s : State) (i : Nat) (v : Core) : (s.setCore i v).core i = v :=
  Tbl.get_set_self _ _ _ _

theorem State.setCore_core_ne (s : State) (i j : Nat) (v : Core) (h : i ≠ j) : (s.setCore i v).core j = s.core j :=
  Tbl.get_set_ne _ _ _ _ _ h

@[simp] theorem State.modCore_core_self (s : State) (i : Nat) (f : Core → Core) : (s.modCore i f).core i = f (s.core i) :=
  Tbl.get_set_self _ _ _ _

theorem State.modCore_core_ne (s : State) (i j : Nat) (f : Core → Core) (h : i ≠ j) : (s.modCore i f).core j = s.core j :=
  Tbl.get_set_ne _ _ _ _ _ h

@[simp] theorem State.setCluster_cluster_self (s : State) (i : Nat) (v : Cluster) : (s.setCluster i v).cluster i = v :=
  Tbl.get_set_self _ _ _ _

theorem State.setCluster_cluster_ne (s : State) (i j : Nat) (v : Cluster) (h : i ≠ j) : (s.setCluster i v).cluster j = s.cluster j :=
  Tbl.get_set_ne _ _ _ _ _ h

@[simp] theorem State.modCluster_cluster_self (s : State) (i : Nat) (f : Cluster → Cluster) : (s.modCluster i f).cluster i = f (s.cluster i) :=
  Tbl.get_set_self _ _ _ _

theorem State.modCluster_cluster_ne (s : State) (i j : Nat) (f : Cluster → Cluster) (h : i ≠ j) : (s.modCluster i f).cluster j = s.cluster j :=
  Tbl.get_set_ne _ _ _ _ _ h

@[simp] theorem State.modSlice_slice_self (s : State) (i : Nat) (f : Slice → Slice) : (s.modSlice i f).slice i = f (s.slice i) :=
  Tbl.get_set_self _ _ _ _

theorem State.modSlice_slice_ne (s : State) (i j : Nat) (f : Slice → Slice) (h : i ≠ j) : (s.modSlice i f).slice j = s.slice j :=
  Tbl.get_set_ne _ _ _ _ _ h

@[simp] theorem State.modBase_base_self (s : State) (i : Nat) (f : BaseDie → BaseDie) : (s.modBase i f).base i = f (s.base i) :=
  Tbl.get_set_self _ _ _ _

theorem State.modBase_base_ne (s : State) (i j : Nat) (f : BaseDie → BaseDie) (h : i ≠ j) : (s.modBase i f).base j = s.base j :=
  Tbl.get_set_ne _ _ _ _ _ h

@[simp] theorem State.modPort_port_self (s : State) (i : Nat) (f : Port → Port) : (s.modPort i f).port i = f (s.port i) :=
  Tbl.get_set_self _ _ _ _

theorem State.modPort_port_ne (s : State) (i j : Nat) (f : Port → Port) (h : i ≠ j) : (s.modPort i f).port j = s.port j :=
  Tbl.get_set_ne _ _ _ _ _ h

@[simp] theorem State.modGran_granule_self (s : State) (i : Nat) (f : Gran → Gran) : (s.modGran i f).granule i = f (s.granule i) :=
  Tbl.get_set_self _ _ _ _

theorem State.modGran_granule_ne (s : State) (i j : Nat) (f : Gran → Gran) (h : i ≠ j) : (s.modGran i f).granule j = s.granule j :=
  Tbl.get_set_ne _ _ _ _ _ h

/-! ### Updates of the current hart -/

@[simp] theorem State.setHart_grade640S (s : State) (h : Hart) : (s.setHart h).grade640S = s.grade640S :=
  by unfold State.setHart; split <;> rfl
@[simp] theorem State.setHart_mem (s : State) (h : Hart) : (s.setHart h).mem = s.mem :=
  by unfold State.setHart; split <;> rfl
@[simp] theorem State.setHart_gran (s : State) (h : Hart) : (s.setHart h).gran = s.gran :=
  by unfold State.setHart; split <;> rfl
@[simp] theorem State.setHart_clock (s : State) (h : Hart) : (s.setHart h).clock = s.clock :=
  by unfold State.setHart; split <;> rfl
@[simp] theorem State.setHart_free (s : State) (h : Hart) : (s.setHart h).free = s.free :=
  by unfold State.setHart; split <;> rfl
@[simp] theorem State.setHart_agenda (s : State) (h : Hart) : (s.setHart h).agenda = s.agenda :=
  by unfold State.setHart; split <;> rfl
@[simp] theorem State.setHart_cur (s : State) (h : Hart) : (s.setHart h).cur = s.cur :=
  by unfold State.setHart; split <;> rfl
@[simp] theorem State.setHart_engineTurn (s : State) (h : Hart) : (s.setHart h).engineTurn = s.engineTurn :=
  by unfold State.setHart; split <;> rfl
@[simp] theorem State.setHart_ir (s : State) (h : Hart) : (s.setHart h).ir = s.ir :=
  by unfold State.setHart; split <;> rfl
@[simp] theorem State.setHart_power (s : State) (h : Hart) : (s.setHart h).power = s.power :=
  by unfold State.setHart; split <;> rfl
@[simp] theorem State.setHart_resetAt (s : State) (h : Hart) : (s.setHart h).resetAt = s.resetAt :=
  by unfold State.setHart; split <;> rfl
@[simp] theorem State.setHart_cores (s : State) (h : Hart) : (s.setHart h).cores = s.cores :=
  by unfold State.setHart; split <;> rfl
@[simp] theorem State.setHart_disp (s : State) (h : Hart) : (s.setHart h).disp = s.disp :=
  by unfold State.setHart; split <;> rfl
@[simp] theorem State.setHart_ticket (s : State) (h : Hart) : (s.setHart h).ticket = s.ticket :=
  by unfold State.setHart; split <;> rfl
@[simp] theorem State.setHart_tokenNext (s : State) (h : Hart) : (s.setHart h).tokenNext = s.tokenNext :=
  by unfold State.setHart; split <;> rfl
@[simp] theorem State.setHart_ctxEnable (s : State) (h : Hart) : (s.setHart h).ctxEnable = s.ctxEnable :=
  by unfold State.setHart; split <;> rfl
@[simp] theorem State.setHart_ctxBase (s : State) (h : Hart) : (s.setHart h).ctxBase = s.ctxBase :=
  by unfold State.setHart; split <;> rfl
@[simp] theorem State.setHart_ctxCache (s : State) (h : Hart) : (s.setHart h).ctxCache = s.ctxCache :=
  by unfold State.setHart; split <;> rfl
@[simp] theorem State.setHart_walkCaches (s : State) (h : Hart) : (s.setHart h).walkCaches = s.walkCaches :=
  by unfold State.setHart; split <;> rfl
@[simp] theorem State.setHart_walks (s : State) (h : Hart) : (s.setHart h).walks = s.walks :=
  by unfold State.setHart; split <;> rfl
@[simp] theorem State.setHart_watches (s : State) (h : Hart) : (s.setHart h).watches = s.watches :=
  by unfold State.setHart; split <;> rfl
@[simp] theorem State.setHart_notices (s : State) (h : Hart) : (s.setHart h).notices = s.notices :=
  by unfold State.setHart; split <;> rfl
@[simp] theorem State.setHart_snoops (s : State) (h : Hart) : (s.setHart h).snoops = s.snoops :=
  by unfold State.setHart; split <;> rfl
@[simp] theorem State.setHart_unanswered (s : State) (h : Hart) : (s.setHart h).unanswered = s.unanswered :=
  by unfold State.setHart; split <;> rfl
@[simp] theorem State.setHart_slices (s : State) (h : Hart) : (s.setHart h).slices = s.slices :=
  by unfold State.setHart; split <;> rfl
@[simp] theorem State.setHart_bases (s : State) (h : Hart) : (s.setHart h).bases = s.bases :=
  by unfold State.setHart; split <;> rfl
@[simp] theorem State.setHart_settle (s : State) (h : Hart) : (s.setHart h).settle = s.settle :=
  by unfold State.setHart; split <;> rfl
@[simp] theorem State.setHart_ferry (s : State) (h : Hart) : (s.setHart h).ferry = s.ferry :=
  by unfold State.setHart; split <;> rfl
@[simp] theorem State.setHart_ports (s : State) (h : Hart) : (s.setHart h).ports = s.ports :=
  by unfold State.setHart; split <;> rfl
@[simp] theorem State.setHart_drv (s : State) (h : Hart) : (s.setHart h).drv = s.drv :=
  by unfold State.setHart; split <;> rfl
@[simp] theorem State.setHart_health (s : State) (h : Hart) : (s.setHart h).health = s.health :=
  by unfold State.setHart; split <;> rfl
@[simp] theorem State.setHart_savedTiles (s : State) (h : Hart) : (s.setHart h).savedTiles = s.savedTiles :=
  by unfold State.setHart; split <;> rfl
@[simp] theorem State.setHart_core (s : State) (h : Hart) (j : Nat) : (s.setHart h).core j = s.core j := by
  unfold State.core; simp
@[simp] theorem State.setHart_slice (s : State) (h : Hart) (j : Nat) : (s.setHart h).slice j = s.slice j := by
  unfold State.slice; simp
@[simp] theorem State.setHart_base (s : State) (h : Hart) (j : Nat) : (s.setHart h).base j = s.base j := by
  unfold State.base; simp
@[simp] theorem State.setHart_port (s : State) (h : Hart) (j : Nat) : (s.setHart h).port j = s.port j := by
  unfold State.port; simp
@[simp] theorem State.setHart_granule (s : State) (h : Hart) (j : Nat) : (s.setHart h).granule j = s.granule j := by
  unfold State.granule; simp

@[simp] theorem State.modHart_grade640S (s : State) (f : Hart → Hart) : (s.modHart f).grade640S = s.grade640S :=
  State.setHart_grade640S s _
@[simp] theorem State.modHart_mem (s : State) (f : Hart → Hart) : (s.modHart f).mem = s.mem :=
  State.setHart_mem s _
@[simp] theorem State.modHart_gran (s : State) (f : Hart → Hart) : (s.modHart f).gran = s.gran :=
  State.setHart_gran s _
@[simp] theorem State.modHart_clock (s : State) (f : Hart → Hart) : (s.modHart f).clock = s.clock :=
  State.setHart_clock s _
@[simp] theorem State.modHart_free (s : State) (f : Hart → Hart) : (s.modHart f).free = s.free :=
  State.setHart_free s _
@[simp] theorem State.modHart_agenda (s : State) (f : Hart → Hart) : (s.modHart f).agenda = s.agenda :=
  State.setHart_agenda s _
@[simp] theorem State.modHart_cur (s : State) (f : Hart → Hart) : (s.modHart f).cur = s.cur :=
  State.setHart_cur s _
@[simp] theorem State.modHart_engineTurn (s : State) (f : Hart → Hart) : (s.modHart f).engineTurn = s.engineTurn :=
  State.setHart_engineTurn s _
@[simp] theorem State.modHart_ir (s : State) (f : Hart → Hart) : (s.modHart f).ir = s.ir :=
  State.setHart_ir s _
@[simp] theorem State.modHart_power (s : State) (f : Hart → Hart) : (s.modHart f).power = s.power :=
  State.setHart_power s _
@[simp] theorem State.modHart_resetAt (s : State) (f : Hart → Hart) : (s.modHart f).resetAt = s.resetAt :=
  State.setHart_resetAt s _
@[simp] theorem State.modHart_cores (s : State) (f : Hart → Hart) : (s.modHart f).cores = s.cores :=
  State.setHart_cores s _
@[simp] theorem State.modHart_disp (s : State) (f : Hart → Hart) : (s.modHart f).disp = s.disp :=
  State.setHart_disp s _
@[simp] theorem State.modHart_ticket (s : State) (f : Hart → Hart) : (s.modHart f).ticket = s.ticket :=
  State.setHart_ticket s _
@[simp] theorem State.modHart_tokenNext (s : State) (f : Hart → Hart) : (s.modHart f).tokenNext = s.tokenNext :=
  State.setHart_tokenNext s _
@[simp] theorem State.modHart_ctxEnable (s : State) (f : Hart → Hart) : (s.modHart f).ctxEnable = s.ctxEnable :=
  State.setHart_ctxEnable s _
@[simp] theorem State.modHart_ctxBase (s : State) (f : Hart → Hart) : (s.modHart f).ctxBase = s.ctxBase :=
  State.setHart_ctxBase s _
@[simp] theorem State.modHart_ctxCache (s : State) (f : Hart → Hart) : (s.modHart f).ctxCache = s.ctxCache :=
  State.setHart_ctxCache s _
@[simp] theorem State.modHart_walkCaches (s : State) (f : Hart → Hart) : (s.modHart f).walkCaches = s.walkCaches :=
  State.setHart_walkCaches s _
@[simp] theorem State.modHart_walks (s : State) (f : Hart → Hart) : (s.modHart f).walks = s.walks :=
  State.setHart_walks s _
@[simp] theorem State.modHart_watches (s : State) (f : Hart → Hart) : (s.modHart f).watches = s.watches :=
  State.setHart_watches s _
@[simp] theorem State.modHart_notices (s : State) (f : Hart → Hart) : (s.modHart f).notices = s.notices :=
  State.setHart_notices s _
@[simp] theorem State.modHart_snoops (s : State) (f : Hart → Hart) : (s.modHart f).snoops = s.snoops :=
  State.setHart_snoops s _
@[simp] theorem State.modHart_unanswered (s : State) (f : Hart → Hart) : (s.modHart f).unanswered = s.unanswered :=
  State.setHart_unanswered s _
@[simp] theorem State.modHart_slices (s : State) (f : Hart → Hart) : (s.modHart f).slices = s.slices :=
  State.setHart_slices s _
@[simp] theorem State.modHart_bases (s : State) (f : Hart → Hart) : (s.modHart f).bases = s.bases :=
  State.setHart_bases s _
@[simp] theorem State.modHart_settle (s : State) (f : Hart → Hart) : (s.modHart f).settle = s.settle :=
  State.setHart_settle s _
@[simp] theorem State.modHart_ferry (s : State) (f : Hart → Hart) : (s.modHart f).ferry = s.ferry :=
  State.setHart_ferry s _
@[simp] theorem State.modHart_ports (s : State) (f : Hart → Hart) : (s.modHart f).ports = s.ports :=
  State.setHart_ports s _
@[simp] theorem State.modHart_drv (s : State) (f : Hart → Hart) : (s.modHart f).drv = s.drv :=
  State.setHart_drv s _
@[simp] theorem State.modHart_health (s : State) (f : Hart → Hart) : (s.modHart f).health = s.health :=
  State.setHart_health s _
@[simp] theorem State.modHart_savedTiles (s : State) (f : Hart → Hart) : (s.modHart f).savedTiles = s.savedTiles :=
  State.setHart_savedTiles s _
@[simp] theorem State.modHart_core (s : State) (f : Hart → Hart) (j : Nat) : (s.modHart f).core j = s.core j := by
  unfold State.core; simp
@[simp] theorem State.modHart_slice (s : State) (f : Hart → Hart) (j : Nat) : (s.modHart f).slice j = s.slice j := by
  unfold State.slice; simp
@[simp] theorem State.modHart_base (s : State) (f : Hart → Hart) (j : Nat) : (s.modHart f).base j = s.base j := by
  unfold State.base; simp
@[simp] theorem State.modHart_port (s : State) (f : Hart → Hart) (j : Nat) : (s.modHart f).port j = s.port j := by
  unfold State.port; simp
@[simp] theorem State.modHart_granule (s : State) (f : Hart → Hart) (j : Nat) : (s.modHart f).granule j = s.granule j := by
  unfold State.granule; simp

@[simp] theorem State.setPc_grade640S (s : State) (v : Word) : (s.setPc v).grade640S = s.grade640S :=
  by unfold State.setPc; (repeat' split) <;> simp
@[simp] theorem State.setPc_mem (s : State) (v : Word) : (s.setPc v).mem = s.mem :=
  by unfold State.setPc; (repeat' split) <;> simp
@[simp] theorem State.setPc_gran (s : State) (v : Word) : (s.setPc v).gran = s.gran :=
  by unfold State.setPc; (repeat' split) <;> simp
@[simp] theorem State.setPc_clock (s : State) (v : Word) : (s.setPc v).clock = s.clock :=
  by unfold State.setPc; (repeat' split) <;> simp
@[simp] theorem State.setPc_free (s : State) (v : Word) : (s.setPc v).free = s.free :=
  by unfold State.setPc; (repeat' split) <;> simp
@[simp] theorem State.setPc_agenda (s : State) (v : Word) : (s.setPc v).agenda = s.agenda :=
  by unfold State.setPc; (repeat' split) <;> simp
@[simp] theorem State.setPc_cur (s : State) (v : Word) : (s.setPc v).cur = s.cur :=
  by unfold State.setPc; (repeat' split) <;> simp
@[simp] theorem State.setPc_engineTurn (s : State) (v : Word) : (s.setPc v).engineTurn = s.engineTurn :=
  by unfold State.setPc; (repeat' split) <;> simp
@[simp] theorem State.setPc_ir (s : State) (v : Word) : (s.setPc v).ir = s.ir :=
  by unfold State.setPc; (repeat' split) <;> simp
@[simp] theorem State.setPc_power (s : State) (v : Word) : (s.setPc v).power = s.power :=
  by unfold State.setPc; (repeat' split) <;> simp
@[simp] theorem State.setPc_resetAt (s : State) (v : Word) : (s.setPc v).resetAt = s.resetAt :=
  by unfold State.setPc; (repeat' split) <;> simp
@[simp] theorem State.setPc_cores (s : State) (v : Word) : (s.setPc v).cores = s.cores :=
  by unfold State.setPc; (repeat' split) <;> simp
@[simp] theorem State.setPc_disp (s : State) (v : Word) : (s.setPc v).disp = s.disp :=
  by unfold State.setPc; (repeat' split) <;> simp
@[simp] theorem State.setPc_ticket (s : State) (v : Word) : (s.setPc v).ticket = s.ticket :=
  by unfold State.setPc; (repeat' split) <;> simp
@[simp] theorem State.setPc_tokenNext (s : State) (v : Word) : (s.setPc v).tokenNext = s.tokenNext :=
  by unfold State.setPc; (repeat' split) <;> simp
@[simp] theorem State.setPc_ctxEnable (s : State) (v : Word) : (s.setPc v).ctxEnable = s.ctxEnable :=
  by unfold State.setPc; (repeat' split) <;> simp
@[simp] theorem State.setPc_ctxBase (s : State) (v : Word) : (s.setPc v).ctxBase = s.ctxBase :=
  by unfold State.setPc; (repeat' split) <;> simp
@[simp] theorem State.setPc_ctxCache (s : State) (v : Word) : (s.setPc v).ctxCache = s.ctxCache :=
  by unfold State.setPc; (repeat' split) <;> simp
@[simp] theorem State.setPc_walkCaches (s : State) (v : Word) : (s.setPc v).walkCaches = s.walkCaches :=
  by unfold State.setPc; (repeat' split) <;> simp
@[simp] theorem State.setPc_walks (s : State) (v : Word) : (s.setPc v).walks = s.walks :=
  by unfold State.setPc; (repeat' split) <;> simp
@[simp] theorem State.setPc_watches (s : State) (v : Word) : (s.setPc v).watches = s.watches :=
  by unfold State.setPc; (repeat' split) <;> simp
@[simp] theorem State.setPc_notices (s : State) (v : Word) : (s.setPc v).notices = s.notices :=
  by unfold State.setPc; (repeat' split) <;> simp
@[simp] theorem State.setPc_snoops (s : State) (v : Word) : (s.setPc v).snoops = s.snoops :=
  by unfold State.setPc; (repeat' split) <;> simp
@[simp] theorem State.setPc_unanswered (s : State) (v : Word) : (s.setPc v).unanswered = s.unanswered :=
  by unfold State.setPc; (repeat' split) <;> simp
@[simp] theorem State.setPc_slices (s : State) (v : Word) : (s.setPc v).slices = s.slices :=
  by unfold State.setPc; (repeat' split) <;> simp
@[simp] theorem State.setPc_bases (s : State) (v : Word) : (s.setPc v).bases = s.bases :=
  by unfold State.setPc; (repeat' split) <;> simp
@[simp] theorem State.setPc_settle (s : State) (v : Word) : (s.setPc v).settle = s.settle :=
  by unfold State.setPc; (repeat' split) <;> simp
@[simp] theorem State.setPc_ferry (s : State) (v : Word) : (s.setPc v).ferry = s.ferry :=
  by unfold State.setPc; (repeat' split) <;> simp
@[simp] theorem State.setPc_ports (s : State) (v : Word) : (s.setPc v).ports = s.ports :=
  by unfold State.setPc; (repeat' split) <;> simp
@[simp] theorem State.setPc_drv (s : State) (v : Word) : (s.setPc v).drv = s.drv :=
  by unfold State.setPc; (repeat' split) <;> simp
@[simp] theorem State.setPc_health (s : State) (v : Word) : (s.setPc v).health = s.health :=
  by unfold State.setPc; (repeat' split) <;> simp
@[simp] theorem State.setPc_savedTiles (s : State) (v : Word) : (s.setPc v).savedTiles = s.savedTiles :=
  by unfold State.setPc; (repeat' split) <;> simp
@[simp] theorem State.setPc_core (s : State) (v : Word) (j : Nat) : (s.setPc v).core j = s.core j := by
  unfold State.core; simp
@[simp] theorem State.setPc_slice (s : State) (v : Word) (j : Nat) : (s.setPc v).slice j = s.slice j := by
  unfold State.slice; simp
@[simp] theorem State.setPc_base (s : State) (v : Word) (j : Nat) : (s.setPc v).base j = s.base j := by
  unfold State.base; simp
@[simp] theorem State.setPc_port (s : State) (v : Word) (j : Nat) : (s.setPc v).port j = s.port j := by
  unfold State.port; simp
@[simp] theorem State.setPc_granule (s : State) (v : Word) (j : Nat) : (s.setPc v).granule j = s.granule j := by
  unfold State.granule; simp

@[simp] theorem State.setX_grade640S (s : State) (r : Reg) (v : Word) : (s.setX r v).grade640S = s.grade640S :=
  by unfold State.setX; (repeat' split) <;> simp
@[simp] theorem State.setX_mem (s : State) (r : Reg) (v : Word) : (s.setX r v).mem = s.mem :=
  by unfold State.setX; (repeat' split) <;> simp
@[simp] theorem State.setX_gran (s : State) (r : Reg) (v : Word) : (s.setX r v).gran = s.gran :=
  by unfold State.setX; (repeat' split) <;> simp
@[simp] theorem State.setX_clock (s : State) (r : Reg) (v : Word) : (s.setX r v).clock = s.clock :=
  by unfold State.setX; (repeat' split) <;> simp
@[simp] theorem State.setX_free (s : State) (r : Reg) (v : Word) : (s.setX r v).free = s.free :=
  by unfold State.setX; (repeat' split) <;> simp
@[simp] theorem State.setX_agenda (s : State) (r : Reg) (v : Word) : (s.setX r v).agenda = s.agenda :=
  by unfold State.setX; (repeat' split) <;> simp
@[simp] theorem State.setX_cur (s : State) (r : Reg) (v : Word) : (s.setX r v).cur = s.cur :=
  by unfold State.setX; (repeat' split) <;> simp
@[simp] theorem State.setX_engineTurn (s : State) (r : Reg) (v : Word) : (s.setX r v).engineTurn = s.engineTurn :=
  by unfold State.setX; (repeat' split) <;> simp
@[simp] theorem State.setX_ir (s : State) (r : Reg) (v : Word) : (s.setX r v).ir = s.ir :=
  by unfold State.setX; (repeat' split) <;> simp
@[simp] theorem State.setX_power (s : State) (r : Reg) (v : Word) : (s.setX r v).power = s.power :=
  by unfold State.setX; (repeat' split) <;> simp
@[simp] theorem State.setX_resetAt (s : State) (r : Reg) (v : Word) : (s.setX r v).resetAt = s.resetAt :=
  by unfold State.setX; (repeat' split) <;> simp
@[simp] theorem State.setX_cores (s : State) (r : Reg) (v : Word) : (s.setX r v).cores = s.cores :=
  by unfold State.setX; (repeat' split) <;> simp
@[simp] theorem State.setX_disp (s : State) (r : Reg) (v : Word) : (s.setX r v).disp = s.disp :=
  by unfold State.setX; (repeat' split) <;> simp
@[simp] theorem State.setX_ticket (s : State) (r : Reg) (v : Word) : (s.setX r v).ticket = s.ticket :=
  by unfold State.setX; (repeat' split) <;> simp
@[simp] theorem State.setX_tokenNext (s : State) (r : Reg) (v : Word) : (s.setX r v).tokenNext = s.tokenNext :=
  by unfold State.setX; (repeat' split) <;> simp
@[simp] theorem State.setX_ctxEnable (s : State) (r : Reg) (v : Word) : (s.setX r v).ctxEnable = s.ctxEnable :=
  by unfold State.setX; (repeat' split) <;> simp
@[simp] theorem State.setX_ctxBase (s : State) (r : Reg) (v : Word) : (s.setX r v).ctxBase = s.ctxBase :=
  by unfold State.setX; (repeat' split) <;> simp
@[simp] theorem State.setX_ctxCache (s : State) (r : Reg) (v : Word) : (s.setX r v).ctxCache = s.ctxCache :=
  by unfold State.setX; (repeat' split) <;> simp
@[simp] theorem State.setX_walkCaches (s : State) (r : Reg) (v : Word) : (s.setX r v).walkCaches = s.walkCaches :=
  by unfold State.setX; (repeat' split) <;> simp
@[simp] theorem State.setX_walks (s : State) (r : Reg) (v : Word) : (s.setX r v).walks = s.walks :=
  by unfold State.setX; (repeat' split) <;> simp
@[simp] theorem State.setX_watches (s : State) (r : Reg) (v : Word) : (s.setX r v).watches = s.watches :=
  by unfold State.setX; (repeat' split) <;> simp
@[simp] theorem State.setX_notices (s : State) (r : Reg) (v : Word) : (s.setX r v).notices = s.notices :=
  by unfold State.setX; (repeat' split) <;> simp
@[simp] theorem State.setX_snoops (s : State) (r : Reg) (v : Word) : (s.setX r v).snoops = s.snoops :=
  by unfold State.setX; (repeat' split) <;> simp
@[simp] theorem State.setX_unanswered (s : State) (r : Reg) (v : Word) : (s.setX r v).unanswered = s.unanswered :=
  by unfold State.setX; (repeat' split) <;> simp
@[simp] theorem State.setX_slices (s : State) (r : Reg) (v : Word) : (s.setX r v).slices = s.slices :=
  by unfold State.setX; (repeat' split) <;> simp
@[simp] theorem State.setX_bases (s : State) (r : Reg) (v : Word) : (s.setX r v).bases = s.bases :=
  by unfold State.setX; (repeat' split) <;> simp
@[simp] theorem State.setX_settle (s : State) (r : Reg) (v : Word) : (s.setX r v).settle = s.settle :=
  by unfold State.setX; (repeat' split) <;> simp
@[simp] theorem State.setX_ferry (s : State) (r : Reg) (v : Word) : (s.setX r v).ferry = s.ferry :=
  by unfold State.setX; (repeat' split) <;> simp
@[simp] theorem State.setX_ports (s : State) (r : Reg) (v : Word) : (s.setX r v).ports = s.ports :=
  by unfold State.setX; (repeat' split) <;> simp
@[simp] theorem State.setX_drv (s : State) (r : Reg) (v : Word) : (s.setX r v).drv = s.drv :=
  by unfold State.setX; (repeat' split) <;> simp
@[simp] theorem State.setX_health (s : State) (r : Reg) (v : Word) : (s.setX r v).health = s.health :=
  by unfold State.setX; (repeat' split) <;> simp
@[simp] theorem State.setX_savedTiles (s : State) (r : Reg) (v : Word) : (s.setX r v).savedTiles = s.savedTiles :=
  by unfold State.setX; (repeat' split) <;> simp
@[simp] theorem State.setX_core (s : State) (r : Reg) (v : Word) (j : Nat) : (s.setX r v).core j = s.core j := by
  unfold State.core; simp
@[simp] theorem State.setX_slice (s : State) (r : Reg) (v : Word) (j : Nat) : (s.setX r v).slice j = s.slice j := by
  unfold State.slice; simp
@[simp] theorem State.setX_base (s : State) (r : Reg) (v : Word) (j : Nat) : (s.setX r v).base j = s.base j := by
  unfold State.base; simp
@[simp] theorem State.setX_port (s : State) (r : Reg) (v : Word) (j : Nat) : (s.setX r v).port j = s.port j := by
  unfold State.port; simp
@[simp] theorem State.setX_granule (s : State) (r : Reg) (v : Word) (j : Nat) : (s.setX r v).granule j = s.granule j := by
  unfold State.granule; simp

@[simp] theorem State.count_grade640S (s : State) : (s.count).grade640S = s.grade640S :=
  State.modHart_grade640S s _
@[simp] theorem State.count_mem (s : State) : (s.count).mem = s.mem :=
  State.modHart_mem s _
@[simp] theorem State.count_gran (s : State) : (s.count).gran = s.gran :=
  State.modHart_gran s _
@[simp] theorem State.count_clock (s : State) : (s.count).clock = s.clock :=
  State.modHart_clock s _
@[simp] theorem State.count_free (s : State) : (s.count).free = s.free :=
  State.modHart_free s _
@[simp] theorem State.count_agenda (s : State) : (s.count).agenda = s.agenda :=
  State.modHart_agenda s _
@[simp] theorem State.count_cur (s : State) : (s.count).cur = s.cur :=
  State.modHart_cur s _
@[simp] theorem State.count_engineTurn (s : State) : (s.count).engineTurn = s.engineTurn :=
  State.modHart_engineTurn s _
@[simp] theorem State.count_ir (s : State) : (s.count).ir = s.ir :=
  State.modHart_ir s _
@[simp] theorem State.count_power (s : State) : (s.count).power = s.power :=
  State.modHart_power s _
@[simp] theorem State.count_resetAt (s : State) : (s.count).resetAt = s.resetAt :=
  State.modHart_resetAt s _
@[simp] theorem State.count_cores (s : State) : (s.count).cores = s.cores :=
  State.modHart_cores s _
@[simp] theorem State.count_disp (s : State) : (s.count).disp = s.disp :=
  State.modHart_disp s _
@[simp] theorem State.count_ticket (s : State) : (s.count).ticket = s.ticket :=
  State.modHart_ticket s _
@[simp] theorem State.count_tokenNext (s : State) : (s.count).tokenNext = s.tokenNext :=
  State.modHart_tokenNext s _
@[simp] theorem State.count_ctxEnable (s : State) : (s.count).ctxEnable = s.ctxEnable :=
  State.modHart_ctxEnable s _
@[simp] theorem State.count_ctxBase (s : State) : (s.count).ctxBase = s.ctxBase :=
  State.modHart_ctxBase s _
@[simp] theorem State.count_ctxCache (s : State) : (s.count).ctxCache = s.ctxCache :=
  State.modHart_ctxCache s _
@[simp] theorem State.count_walkCaches (s : State) : (s.count).walkCaches = s.walkCaches :=
  State.modHart_walkCaches s _
@[simp] theorem State.count_walks (s : State) : (s.count).walks = s.walks :=
  State.modHart_walks s _
@[simp] theorem State.count_watches (s : State) : (s.count).watches = s.watches :=
  State.modHart_watches s _
@[simp] theorem State.count_notices (s : State) : (s.count).notices = s.notices :=
  State.modHart_notices s _
@[simp] theorem State.count_snoops (s : State) : (s.count).snoops = s.snoops :=
  State.modHart_snoops s _
@[simp] theorem State.count_unanswered (s : State) : (s.count).unanswered = s.unanswered :=
  State.modHart_unanswered s _
@[simp] theorem State.count_slices (s : State) : (s.count).slices = s.slices :=
  State.modHart_slices s _
@[simp] theorem State.count_bases (s : State) : (s.count).bases = s.bases :=
  State.modHart_bases s _
@[simp] theorem State.count_settle (s : State) : (s.count).settle = s.settle :=
  State.modHart_settle s _
@[simp] theorem State.count_ferry (s : State) : (s.count).ferry = s.ferry :=
  State.modHart_ferry s _
@[simp] theorem State.count_ports (s : State) : (s.count).ports = s.ports :=
  State.modHart_ports s _
@[simp] theorem State.count_drv (s : State) : (s.count).drv = s.drv :=
  State.modHart_drv s _
@[simp] theorem State.count_health (s : State) : (s.count).health = s.health :=
  State.modHart_health s _
@[simp] theorem State.count_savedTiles (s : State) : (s.count).savedTiles = s.savedTiles :=
  State.modHart_savedTiles s _
@[simp] theorem State.count_core (s : State)  (j : Nat) : (s.count).core j = s.core j := by
  unfold State.core; simp
@[simp] theorem State.count_slice (s : State)  (j : Nat) : (s.count).slice j = s.slice j := by
  unfold State.slice; simp
@[simp] theorem State.count_base (s : State)  (j : Nat) : (s.count).base j = s.base j := by
  unfold State.base; simp
@[simp] theorem State.count_port (s : State)  (j : Nat) : (s.count).port j = s.port j := by
  unfold State.port; simp
@[simp] theorem State.count_granule (s : State)  (j : Nat) : (s.count).granule j = s.granule j := by
  unfold State.granule; simp

@[simp] theorem State.retire_grade640S (s : State) (d : Word) : (s.retire d).grade640S = s.grade640S :=
  (State.count_grade640S _).trans (State.setPc_grade640S s d)
@[simp] theorem State.retire_mem (s : State) (d : Word) : (s.retire d).mem = s.mem :=
  (State.count_mem _).trans (State.setPc_mem s d)
@[simp] theorem State.retire_gran (s : State) (d : Word) : (s.retire d).gran = s.gran :=
  (State.count_gran _).trans (State.setPc_gran s d)
@[simp] theorem State.retire_clock (s : State) (d : Word) : (s.retire d).clock = s.clock :=
  (State.count_clock _).trans (State.setPc_clock s d)
@[simp] theorem State.retire_free (s : State) (d : Word) : (s.retire d).free = s.free :=
  (State.count_free _).trans (State.setPc_free s d)
@[simp] theorem State.retire_agenda (s : State) (d : Word) : (s.retire d).agenda = s.agenda :=
  (State.count_agenda _).trans (State.setPc_agenda s d)
@[simp] theorem State.retire_cur (s : State) (d : Word) : (s.retire d).cur = s.cur :=
  (State.count_cur _).trans (State.setPc_cur s d)
@[simp] theorem State.retire_engineTurn (s : State) (d : Word) : (s.retire d).engineTurn = s.engineTurn :=
  (State.count_engineTurn _).trans (State.setPc_engineTurn s d)
@[simp] theorem State.retire_ir (s : State) (d : Word) : (s.retire d).ir = s.ir :=
  (State.count_ir _).trans (State.setPc_ir s d)
@[simp] theorem State.retire_power (s : State) (d : Word) : (s.retire d).power = s.power :=
  (State.count_power _).trans (State.setPc_power s d)
@[simp] theorem State.retire_resetAt (s : State) (d : Word) : (s.retire d).resetAt = s.resetAt :=
  (State.count_resetAt _).trans (State.setPc_resetAt s d)
@[simp] theorem State.retire_cores (s : State) (d : Word) : (s.retire d).cores = s.cores :=
  (State.count_cores _).trans (State.setPc_cores s d)
@[simp] theorem State.retire_disp (s : State) (d : Word) : (s.retire d).disp = s.disp :=
  (State.count_disp _).trans (State.setPc_disp s d)
@[simp] theorem State.retire_ticket (s : State) (d : Word) : (s.retire d).ticket = s.ticket :=
  (State.count_ticket _).trans (State.setPc_ticket s d)
@[simp] theorem State.retire_tokenNext (s : State) (d : Word) : (s.retire d).tokenNext = s.tokenNext :=
  (State.count_tokenNext _).trans (State.setPc_tokenNext s d)
@[simp] theorem State.retire_ctxEnable (s : State) (d : Word) : (s.retire d).ctxEnable = s.ctxEnable :=
  (State.count_ctxEnable _).trans (State.setPc_ctxEnable s d)
@[simp] theorem State.retire_ctxBase (s : State) (d : Word) : (s.retire d).ctxBase = s.ctxBase :=
  (State.count_ctxBase _).trans (State.setPc_ctxBase s d)
@[simp] theorem State.retire_ctxCache (s : State) (d : Word) : (s.retire d).ctxCache = s.ctxCache :=
  (State.count_ctxCache _).trans (State.setPc_ctxCache s d)
@[simp] theorem State.retire_walkCaches (s : State) (d : Word) : (s.retire d).walkCaches = s.walkCaches :=
  (State.count_walkCaches _).trans (State.setPc_walkCaches s d)
@[simp] theorem State.retire_walks (s : State) (d : Word) : (s.retire d).walks = s.walks :=
  (State.count_walks _).trans (State.setPc_walks s d)
@[simp] theorem State.retire_watches (s : State) (d : Word) : (s.retire d).watches = s.watches :=
  (State.count_watches _).trans (State.setPc_watches s d)
@[simp] theorem State.retire_notices (s : State) (d : Word) : (s.retire d).notices = s.notices :=
  (State.count_notices _).trans (State.setPc_notices s d)
@[simp] theorem State.retire_snoops (s : State) (d : Word) : (s.retire d).snoops = s.snoops :=
  (State.count_snoops _).trans (State.setPc_snoops s d)
@[simp] theorem State.retire_unanswered (s : State) (d : Word) : (s.retire d).unanswered = s.unanswered :=
  (State.count_unanswered _).trans (State.setPc_unanswered s d)
@[simp] theorem State.retire_slices (s : State) (d : Word) : (s.retire d).slices = s.slices :=
  (State.count_slices _).trans (State.setPc_slices s d)
@[simp] theorem State.retire_bases (s : State) (d : Word) : (s.retire d).bases = s.bases :=
  (State.count_bases _).trans (State.setPc_bases s d)
@[simp] theorem State.retire_settle (s : State) (d : Word) : (s.retire d).settle = s.settle :=
  (State.count_settle _).trans (State.setPc_settle s d)
@[simp] theorem State.retire_ferry (s : State) (d : Word) : (s.retire d).ferry = s.ferry :=
  (State.count_ferry _).trans (State.setPc_ferry s d)
@[simp] theorem State.retire_ports (s : State) (d : Word) : (s.retire d).ports = s.ports :=
  (State.count_ports _).trans (State.setPc_ports s d)
@[simp] theorem State.retire_drv (s : State) (d : Word) : (s.retire d).drv = s.drv :=
  (State.count_drv _).trans (State.setPc_drv s d)
@[simp] theorem State.retire_health (s : State) (d : Word) : (s.retire d).health = s.health :=
  (State.count_health _).trans (State.setPc_health s d)
@[simp] theorem State.retire_savedTiles (s : State) (d : Word) : (s.retire d).savedTiles = s.savedTiles :=
  (State.count_savedTiles _).trans (State.setPc_savedTiles s d)
@[simp] theorem State.retire_core (s : State) (d : Word) (j : Nat) : (s.retire d).core j = s.core j := by
  unfold State.core; simp
@[simp] theorem State.retire_slice (s : State) (d : Word) (j : Nat) : (s.retire d).slice j = s.slice j := by
  unfold State.slice; simp
@[simp] theorem State.retire_base (s : State) (d : Word) (j : Nat) : (s.retire d).base j = s.base j := by
  unfold State.base; simp
@[simp] theorem State.retire_port (s : State) (d : Word) (j : Nat) : (s.retire d).port j = s.port j := by
  unfold State.port; simp
@[simp] theorem State.retire_granule (s : State) (d : Word) (j : Nat) : (s.retire d).granule j = s.granule j := by
  unfold State.granule; simp

@[simp] theorem State.setHart_hart (s : State) (h : Hart) : (s.setHart h).hart = h := by
  unfold State.setHart State.hart
  cases hc : s.cur <;> simp [hc]

@[simp] theorem State.modHart_hart (s : State) (f : Hart → Hart) : (s.modHart f).hart = f s.hart := State.setHart_hart s _

@[simp] theorem State.count_hart (s : State) : s.count.hart = { s.hart with instret := s.hart.instret + 1 } :=
  State.modHart_hart s _

/-- A hart update changes only the hart of the current block's slot. -/
theorem State.setHart_block (s : State) (sl : SlotId) (h : Hart) (hc : s.cur = .block sl) :
    s.setHart h = s.modSlot sl fun x => { x with hart := h } := by unfold State.setHart; rw [hc]

/-- A hart update changes only the hart of the current Steward. -/
theorem State.setHart_steward (s : State) (k : ClusterId) (h : Hart) (hc : s.cur = .steward k) :
    s.setHart h = s.modCluster k.toNat fun c => { c with steward := { c.steward with hart := h } } := by
  unfold State.setHart; rw [hc]

/-- x0 discards what is written to it (R99, R190). -/
@[simp] theorem State.setX_zero (s : State) (v : Word) : s.setX 0 v = s := rfl
/-- x0 reads 0 (R99). -/
@[simp] theorem State.getX_zero (s : State) : s.getX 0 = 0 := rfl

end Sys2Proof.Machine
end

