-- ==== Sys2Proof/Laws/Run.lean ====
section
/-! SUPPORT. What running an instruction can do: computations over the state step by step, and one lemma for each way an
instruction is run. -/
namespace Sys2Proof.Machine

/-! ### Computations over the state -/

theorem M.bind_ok {α β : Type} {m : M α} {f : α → M β} {s t : State} {a : α} (h : m s = .ok a t) : (m >>= f) s = f a t := by
  show EStateM.bind m f s = f a t
  unfold EStateM.bind; rw [h]

theorem M.bind_error {α β : Type} {m : M α} {f : α → M β} {s t : State} {e : Exc} (h : m s = .error e t) :
    (m >>= f) s = .error e t := by
  show EStateM.bind m f s = .error e t
  unfold EStateM.bind; rw [h]

@[simp] theorem M.bind_get {α : Type} (f : State → M α) (s : State) : (get >>= f) s = f s s := rfl
@[simp] theorem M.bind_modify {α : Type} (g : State → State) (f : Unit → M α) (s : State) :
    ((modify g : M Unit) >>= f) s = f () (g s) := rfl
@[simp] theorem M.bind_set {α : Type} (t : State) (f : PUnit → M α) (s : State) : ((set t : M PUnit) >>= f) s = f ⟨⟩ t := rfl
@[simp] theorem M.bind_pure' {α β : Type} (a : α) (f : α → M β) (s : State) : ((pure a : M α) >>= f) s = f a s := rfl
@[simp] theorem M.bind_readX {α : Type} (r : Reg) (f : Word → M α) (s : State) : (readX r >>= f) s = f (s.getX r) s := rfl
@[simp] theorem M.bind_writeX {α : Type} (r : Reg) (v : Word) (f : Unit → M α) (s : State) :
    (writeX r v >>= f) s = f () (s.setX r v) := rfl
@[simp] theorem M.pure_apply {α : Type} (a : α) (s : State) : (pure a : M α) s = .ok a s := rfl
@[simp] theorem M.modify_apply (g : State → State) (s : State) : (modify g : M Unit) s = .ok () (g s) := rfl
@[simp] theorem M.set_apply (t s : State) : (set t : M PUnit) s = .ok ⟨⟩ t := rfl
@[simp] theorem M.writeX_apply (r : Reg) (v : Word) (s : State) : writeX r v s = .ok () (s.setX r v) := rfl
@[simp] theorem M.readX_apply (r : Reg) (s : State) : readX r s = .ok (s.getX r) s := rfl
@[simp] theorem M.get_apply (s : State) : (get : M State) s = .ok s s := rfl
@[simp] theorem M.bind_trap {α β : Type} (t : Trap) (f : α → M β) (s : State) : (trap t >>= f) s = .error (.trap t) s := rfl
@[simp] theorem M.trap_apply {α : Type} (t : Trap) (s : State) : (trap t : M α) s = .error (.trap t) s := rfl
@[simp] theorem M.bind_stall {α β : Type} (f : α → M β) (s : State) : (stall >>= f) s = .error .stall s := rfl
@[simp] theorem M.stall_apply {α : Type} (s : State) : (stall : M α) s = .error .stall s := rfl
@[simp] theorem M.bind_illegal {α β : Type} (f : α → M β) (s : State) :
    (illegal >>= f) s = .error (.trap (illegalTrap s.ir)) s := rfl
@[simp] theorem M.illegal_apply {α : Type} (s : State) : (illegal : M α) s = .error (.trap (illegalTrap s.ir)) s := rfl

/-! ### Gates -/

theorem scalarGate_ok {s : State} {rs : List Reg} {rd : Reg} (h : scalarRegsOk s rs rd = true) : scalarGate rs rd s = .ok () s := by
  unfold scalarGate; simp [h]

theorem scalarGate_no {s : State} {rs : List Reg} {rd : Reg} (h : scalarRegsOk s rs rd = false) :
    scalarGate rs rd s = .error (.trap { cause := .illreg }) s := by
  unfold scalarGate illreg; simp [h]

theorem noLane_ok {s : State} (h : s.lane = none) : noLane s = .ok () s := by unfold noLane; simp [h]

theorem noLane_no {s : State} (h : s.lane ≠ none) : noLane s = .error (.trap (illegalTrap s.ir)) s := by
  unfold noLane; simp [Option.isSome_iff_ne_none, h]

/-! ### Running -/

theorem runInstr_ok {len : Nat} {m : M Unit} {s t : State} (hp : s.power = .on) (h : m s = .ok () t) :
    runInstr len m s = .next (t.retire (t.pc + BitVec.ofNat 64 len)) := by
  unfold runInstr; rw [if_neg (by simp [hp])]
  show finish ((m >>= fun _ => modify fun (t : State) => t.retire (t.pc + BitVec.ofNat 64 len)) s) = _
  rw [M.bind_ok h]; rfl

theorem runInstr_trap {len : Nat} {m : M Unit} {s t : State} {x : Trap} (hp : s.power = .on)
    (h : m s = .error (.trap x) t) : runInstr len m s = .next (t.takeTrap x) := by
  unfold runInstr; rw [if_neg (by simp [hp])]
  show finish ((m >>= fun _ => modify fun (t : State) => t.retire (t.pc + BitVec.ofNat 64 len)) s) = _
  rw [M.bind_error h]; rfl

theorem runInstr_stall {len : Nat} {m : M Unit} {s t : State} (hp : s.power = .on) (h : m s = .error .stall t) :
    runInstr len m s = .next t := by
  unfold runInstr; rw [if_neg (by simp [hp])]
  show finish ((m >>= fun _ => modify fun (t : State) => t.retire (t.pc + BitVec.ofNat 64 len)) s) = _
  rw [M.bind_error h]; rfl

/-- Power off: nothing runs. -/
theorem runInstr_off {len : Nat} {m : M Unit} {s : State} (hp : s.power = .off) : runInstr len m s = .fault .poweredOff := by
  unfold runInstr; rw [if_pos hp]

theorem finish_next (r : EStateM.Result Exc State Unit) : ∃ t, finish r = .next t := by
  unfold finish; split <;> exact ⟨_, rfl⟩

/-- Power on: an instruction answers a next state, whatever it is. -/
theorem runInstr_next (len : Nat) (m : M Unit) {s : State} (hp : s.power = .on) : ∃ t, runInstr len m s = .next t := by
  unfold runInstr; rw [if_neg (by simp [hp])]; exact finish_next _

theorem runJump_ok {m : M Word} {s t : State} {d : Word} (hp : s.power = .on) (h : m s = .ok d t) :
    runJump m s = .next (t.retire d) := by
  unfold runJump; rw [if_neg (by simp [hp])]
  show finish ((m >>= fun d => modify fun (t : State) => t.retire d) s) = _
  rw [M.bind_ok h]; rfl

theorem runJump_trap {m : M Word} {s t : State} {x : Trap} (hp : s.power = .on) (h : m s = .error (.trap x) t) :
    runJump m s = .next (t.takeTrap x) := by
  unfold runJump; rw [if_neg (by simp [hp])]
  show finish ((m >>= fun d => modify fun (t : State) => t.retire d) s) = _
  rw [M.bind_error h]; rfl

theorem runJump_off {m : M Word} {s : State} (hp : s.power = .off) : runJump m s = .fault .poweredOff := by
  unfold runJump; rw [if_pos hp]

theorem runJump_next (m : M Word) {s : State} (hp : s.power = .on) : ∃ t, runJump m s = .next t := by
  unfold runJump; rw [if_neg (by simp [hp])]; exact finish_next _

theorem runStep_on (f : State → State) {s : State} (hp : s.power = .on) : runStep f s = .next (f s) := by
  unfold runStep; rw [if_neg (by simp [hp])]

theorem runStep_off (f : State → State) {s : State} (hp : s.power = .off) : runStep f s = .fault .poweredOff := by
  unfold runStep; rw [if_pos hp]

/-! ### Where the PC is -/

@[simp] theorem State.setX_pc (s : State) (r : Reg) (v : Word) : (s.setX r v).pc = s.pc := by
  unfold State.setX
  split
  · rfl
  · split
    · next i sl hl hc => simp [State.pc, State.hart, hc]
    · unfold State.modHart State.setHart
      split
      · next sl hc => simp [State.pc, State.hart, hc]
      · next k hc => simp [State.pc, State.hart, hc]

@[simp] theorem State.modHart_pc (s : State) (f : Hart → Hart) (h : ∀ x, (f x).pc = x.pc) : (s.modHart f).pc = s.pc := by
  unfold State.modHart State.setHart
  split
  · next sl hc => simp [State.pc, State.hart, hc, h]
  · next k hc => simp [State.pc, State.hart, hc, h]

@[simp] theorem State.accrue_pc (s : State) (fl : Nat) : (s.accrue fl).pc = s.pc :=
  State.modHart_pc s _ fun _ => rfl

/-! ### Integer and floating register operations -/

/-- rd := f rs1 rs2, and nothing else but the PC and the count. -/
theorem alu2_ok {f : Word → Word → Word} {rd ra rb : Reg} {s : State} (hp : s.power = .on)
    (hr : scalarRegsOk s [rd, ra, rb] rd = true) :
    alu2 f rd ra rb s = .next ((s.setX rd (f (s.getX ra) (s.getX rb))).retire (s.pc + 4)) := by
  refine (runInstr_ok (t := s.setX rd (f (s.getX ra) (s.getX rb))) hp ?_).trans (by simp)
  rw [M.bind_ok (scalarGate_ok hr)]; rfl

/-- A register that a lane thread has not: ILLREG (R340). -/
theorem alu2_no {f : Word → Word → Word} {rd ra rb : Reg} {s : State} (hp : s.power = .on)
    (hr : scalarRegsOk s [rd, ra, rb] rd = false) : alu2 f rd ra rb s = .next (s.takeTrap { cause := .illreg }) :=
  runInstr_trap hp (by rw [M.bind_error (scalarGate_no hr)])

theorem alu1_ok {f : Word → Word} {rd ra : Reg} {s : State} (hp : s.power = .on) (hr : scalarRegsOk s [rd, ra] rd = true) :
    alu1 f rd ra s = .next ((s.setX rd (f (s.getX ra))).retire (s.pc + 4)) := by
  refine (runInstr_ok (t := s.setX rd (f (s.getX ra))) hp ?_).trans (by simp)
  rw [M.bind_ok (scalarGate_ok hr)]; rfl

theorem alu1_no {f : Word → Word} {rd ra : Reg} {s : State} (hp : s.power = .on) (hr : scalarRegsOk s [rd, ra] rd = false) :
    alu1 f rd ra s = .next (s.takeTrap { cause := .illreg }) :=
  runInstr_trap hp (by rw [M.bind_error (scalarGate_no hr)])

/-- A branch goes where its condition says; nothing else changes but the counts. -/
theorem branch_ok {test : Word → Word → Bool} {ra rb : Reg} {off : BitVec 13} {s : State} (hp : s.power = .on)
    (hl : s.lane = none) :
    branch test ra rb off s = .next ((s.branchResync [ra, rb]).retire
      (if test (s.getX ra) (s.getX rb) then wordsFrom s.pc off else s.pc + 4)) := by
  refine runJump_ok hp ?_
  rw [M.bind_ok (noLane_ok hl)]; rfl

/-- Flags that are not enabled accrue and do not trap. -/
theorem raiseFlags_ok {fl : Nat} {s : State} (h : (s.accrue fl).trapping fl = false) :
    raiseFlags fl s = .ok () (s.accrue fl) := by
  unfold raiseFlags; simp [h]

/-- A rounding instruction writes its boxed result and accrues its flags. -/
theorem fpRound_ok {rm : Rm} {f : Fl} {rd : Reg} {rs : List Reg} {op : Rnd → List Nat → Nat × Nat} {s : State} {r : Rnd}
    (hp : s.power = .on) (hm : rndField s rm = some r) (hr : scalarRegsOk s (rd :: rs) rd = true)
    (ht : (s.accrue (op r (rs.map fun x => unbox f (s.getX x))).2).trapping (op r (rs.map fun x => unbox f (s.getX x))).2 = false) :
    fpRound rm f rd rs op s = .next (((s.accrue (op r (rs.map fun x => unbox f (s.getX x))).2).setX rd
      (box f (op r (rs.map fun x => unbox f (s.getX x))).1)).retire (s.pc + 4)) := by
  refine (runInstr_ok (t := (s.accrue (op r (rs.map fun x => unbox f (s.getX x))).2).setX rd
      (box f (op r (rs.map fun x => unbox f (s.getX x))).1)) hp ?_).trans ?_
  · simp only [M.bind_get, hm]
    rw [M.bind_ok (scalarGate_ok hr)]
    simp only [M.bind_get]
    rw [M.bind_ok (raiseFlags_ok ht)]; rfl
  · rw [State.setX_pc, State.accrue_pc]; rfl

theorem fpPlain_ok {f : Fl} {rd ra rb : Reg} {op : Nat → Nat → Word × Nat} {s : State}
    (hp : s.power = .on) (hr : scalarRegsOk s [rd, ra, rb] rd = true)
    (ht : (s.accrue (op (unbox f (s.getX ra)) (unbox f (s.getX rb))).2).trapping (op (unbox f (s.getX ra)) (unbox f (s.getX rb))).2 = false) :
    fpPlain f rd ra rb op s = .next (((s.accrue (op (unbox f (s.getX ra)) (unbox f (s.getX rb))).2).setX rd
      (op (unbox f (s.getX ra)) (unbox f (s.getX rb))).1).retire (s.pc + 4)) := by
  refine (runInstr_ok (t := (s.accrue (op (unbox f (s.getX ra)) (unbox f (s.getX rb))).2).setX rd
      (op (unbox f (s.getX ra)) (unbox f (s.getX rb))).1) hp ?_).trans ?_
  · rw [M.bind_ok (scalarGate_ok hr)]
    simp only [M.bind_readX]
    rw [M.bind_ok (raiseFlags_ok ht)]; rfl
  · rw [State.setX_pc, State.accrue_pc]; rfl

end Sys2Proof.Machine
end

