-- ==== Sys2Proof/Laws/Access.lean ====
section
/-! SUPPORT. What an access at its ordering point does to memory, and what a load and a store do as a whole. -/
namespace Sys2Proof.Machine

/-! ### Memory under the bookkeeping of an access -/

theorem State.foldl_keeps {α β : Type} (P : State → β) (f : State → α → State) (h : ∀ s a, P (f s a) = P s) (l : List α) (s : State) :
    P (l.foldl f s) = P s := by
  induction l generalizing s with
  | nil => rfl
  | cons a l ih => rw [List.foldl_cons, ih, h]

theorem State.foldl_mem {α : Type} (f : State → α → State) (h : ∀ s a, (f s a).mem = s.mem) (l : List α) (s : State) :
    (l.foldl f s).mem = s.mem := State.foldl_keeps State.mem f h l s

theorem ite_keeps {β : Type} (P : State → β) {p : Prop} [Decidable p] {a b : State} {m : β} (ha : P a = m) (hb : P b = m) :
    P (if p then a else b) = m := by split <;> assumption

/-- What an access does to a slice's array and its base die reaches nothing that slices, base dies, granules' marks and free
choices are not part of. -/
theorem State.sliceTouch_keeps {β : Type} (P : State → β) (hS : ∀ s i f, P (State.modSlice s i f) = P s)
    (hB : ∀ s b f, P (State.modBase s b f) = P s) (hG : ∀ s g f, P (State.modGran s g f) = P s)
    (hD : ∀ s, P (State.draw s) = P s) (s : State) (pa : Nat) (hint : Hint)
    (w whole h : Bool) : P (s.sliceTouch pa hint w whole h) = P s := by
  have hc : ∀ (s : State) pa h, P (s.baseCount pa h) = P s := fun s pa h => hB ..
  have hs : ∀ (s : State) pa h, P (s.baseStore pa h) = P s := fun s pa h => by rw [State.baseStore.eq_def, State.overDecode.eq_def]; exact (hB ..).trans (hc ..)
  have hf : ∀ (s : State) l h, P (s.fillReads l h) = P s := fun s l h => State.foldl_keeps P _ (fun s g => hc s g h) _ _
  have hw : ∀ (s : State) i l, P (s.writeBack i l) = P s := fun s i l => by
    rw [State.writeBack.eq_def, hS]
    exact State.foldl_keeps P _ (fun s g => (hG ..).trans (hs s g _)) _ _
  have he : ∀ (s : State) (i l n : Nat) (b h : Bool) (f : Slice → Slice) (v : State → Nat) (g : Nat → Slice → Slice),
      P (let s := if b then s else s.fillReads l h
         let s := s.modSlice i f
         if (s.slice i).resident.length ≤ n then s
         else
           let w := v s
           let s := if (s.slice i).dirty.contains w then s.writeBack i w else s
           s.draw.modSlice i (g w)) = P s := by
    intro s i l n b h f v g
    have h1 : P (if b then s else s.fillReads l h) = P s := ite_keeps P rfl (hf ..)
    refine ite_keeps P ((hS ..).trans h1) ((hS ..).trans ((hD _).trans ?_))
    exact ite_keeps P ((hw ..).trans ((hS ..).trans h1)) ((hS ..).trans h1)
  rw [State.sliceTouch.eq_def]
  refine ite_keeps P (ite_keeps P (hs ..) (hc ..)) (ite_keeps P ?_ ?_)
  · cases hint
    · exact hS ..
    · exact ite_keeps P (hS ..) rfl
    · exact ite_keeps P (ite_keeps P (hS ..) rfl) ((hS ..).trans (ite_keeps P (hs ..) rfl))
  · cases hint
    · exact he s (sliceOf pa) (lineOf pa) 65536 (w && whole) h _
        (fun t => (t.slice (sliceOf pa)).resident.getD (Config.choice t.free % 65536) (lineOf pa))
        (fun v x => { x with resident := x.resident.filter (· != v) })
    · exact ite_keeps P (hs ..) (hc ..)
    · exact ite_keeps P (hs ..) (hc ..)

@[simp] theorem State.baseCount_mem (s : State) (pa : Nat) (h : Bool) : (s.baseCount pa h).mem = s.mem := rfl
@[simp] theorem State.baseStore_mem (s : State) (pa : Nat) (h : Bool) : (s.baseStore pa h).mem = s.mem := rfl
@[simp] theorem State.traceAck_mem (s : State) (i src : Nat) (seq tag : BitVec 16) (d : Bool) (pa : Nat) :
    (s.traceAck i src seq tag d pa).mem = s.mem := by
  unfold State.traceAck
  generalize (s.health.traceOn && _) = b
  cases b <;> rfl
@[simp] theorem State.notify_mem (s : State) (g : Nat) : (s.notify g).mem = s.mem := rfl
@[simp] theorem State.fillReads_mem (s : State) (l : Nat) (h : Bool) : (s.fillReads l h).mem = s.mem :=
  State.foldl_mem (fun s g => s.baseCount g h) (fun s g => State.baseCount_mem s g h) _ _
@[simp] theorem State.writeBack_mem (s : State) (i l : Nat) : (s.writeBack i l).mem = s.mem := by
  rw [State.writeBack.eq_def]
  exact State.foldl_mem (fun s g => (s.baseStore g _).modGran (g / 32) fun x => { x with below := none }) (fun s g => rfl) _ _
@[simp] theorem State.snoopDone_mem (s : State) (pa : Nat) : (s.snoopDone pa).mem = s.mem := rfl

@[simp] theorem State.sliceTouch_mem (s : State) (pa : Nat) (hint : Hint) (w whole h : Bool) :
    (s.sliceTouch pa hint w whole h).mem = s.mem :=
  State.sliceTouch_keeps State.mem State.modSlice_mem State.modBase_mem State.modGran_mem State.draw_mem s pa hint w whole h

/-- The state of the harts and of what runs them. -/
def State.runners (s : State) : Tbl Slot × Tbl Core × Tbl Cluster × HartId × Disp := (s.slots, s.cores, s.clusters, s.cur, s.disp)

/-- A write of HBM changes no hart, core, cluster or queue. -/
theorem State.performWrite_runners (s : State) (src : Source) (home pa : Nat) (hint : Hint) (bs : List Byte) {d : Nat}
    (h : regionOf pa = .hbm d) : (s.performWrite src home pa hint bs).runners = s.runners := by
  have ht : ∀ (s : State) i src seq tag b pa, (s.traceAck i src seq tag b pa).runners = s.runners := by
    intro s i src seq tag b pa
    unfold State.traceAck
    generalize (s.health.traceOn && _) = c
    cases c <;> rfl
  have hn : ∀ (s : State) g, (s.notify g).runners = s.runners := fun _ _ => rfl
  rw [State.performWrite, h]
  have hk : ∀ (s : State) pa o, (s.keepBelow pa o).runners = s.runners := fun s pa o => by
    unfold State.keepBelow; split <;> rfl
  refine (hn ..).trans ((ht ..).trans ((hk ..).trans ?_))
  exact (State.sliceTouch_keeps State.runners (fun _ _ _ => rfl) (fun _ _ _ => rfl) (fun _ _ _ => rfl) (fun _ => rfl) _ pa hint
    true _ _).trans rfl

@[simp] theorem State.settKillChunk_mem (s : State) (c n : Nat) : (s.settKillChunk c n).mem = s.mem := by
  unfold State.settKillChunk
  simp only
  split
  · rfl
  · refine (State.foldl_mem (fun s e => s.modSlot _ _) (fun s e => State.modSlot_mem s _ _) _ _).trans ?_
    simp

@[simp] theorem State.notifyRange_mem (s : State) (pa n : Nat) : (s.notifyRange pa n).mem = s.mem := rfl
@[simp] theorem State.dropLine_mem (s : State) (p line : Nat) : (s.dropLine p line).mem = s.mem := by
  unfold State.dropLine
  split <;> rfl

@[simp] theorem State.hostCount_mem (s : State) (p pa : Nat) (w : Bool) : (s.hostCount p pa w).mem = s.mem := rfl
@[simp] theorem State.hostCtr_mem (s : State) (home pa : Nat) : (s.hostCtr home pa).mem = s.mem := rfl
@[simp] theorem State.keepBelow_mem (s : State) (pa : Nat) (o : List Byte × Bool) : (s.keepBelow pa o).mem = s.mem := by
  unfold State.keepBelow; split <;> rfl

@[simp] theorem State.trimLines_mem (s : State) (p : Nat) : (s.trimLines p).mem = s.mem := by
  unfold State.trimLines
  repeat' split
  all_goals simp

@[simp] theorem State.otherPort_mem (s : State) (p line : Nat) (own : Bool) : (s.otherPort p line own).mem = s.mem := by
  unfold State.otherPort
  simp only
  repeat' split
  all_goals simp

@[simp] theorem State.hostTouch_mem (s : State) (home pa : Nat) (w : Bool) : (s.hostTouch home pa w).mem = s.mem := by
  unfold State.hostTouch
  simp only
  repeat' split
  all_goals simp

@[simp] theorem State.didRead_mem (s : State) (src : Source) (home pa : Nat) (hint : Hint) :
    (s.didRead src home pa hint).mem = s.mem := by
  unfold State.didRead
  split
  · simp [State.nextSeq, State.modSlice]
  · simp
  · rfl

/-- A write at its ordering point stores its bytes and changes no other byte. -/
@[simp] theorem State.performWrite_mem (s : State) (src : Source) (home pa : Nat) (hint : Hint) (bs : List Byte) :
    (s.performWrite src home pa hint bs).mem = Memory.putAll s.mem pa bs := by
  unfold State.performWrite
  split
  · simp [State.nextSeq, State.sliceWrite, State.putGranule, State.modSlice, State.modGran, State.setMem]
  · simp [State.setMem]
  · simp only [State.notify_mem]
    split
    · simp [State.putGranule, State.modGran, State.setMem]
    · rfl
  · rfl

theorem State.performWrite_wf (s : State) (src : Source) (home pa : Nat) (hint : Hint) (bs : List Byte)
    (h : Memory.wf s.mem = true) : Memory.wf (s.performWrite src home pa hint bs).mem = true := by
  rw [State.performWrite_mem]; exact Memory.wf_putAll bs _ _ h

/-- Memory after reset is in its canonical form. -/
theorem State.reset_mem_wf : Memory.wf State.reset.mem = true := rfl

/-! ### Loads and stores as a whole -/

/-- The snoop gate lets an access that nothing holds go on at once. -/
theorem snoopGate_free {src : Source} {pa : Nat} {inv : Bool} {s : State} (h : s.gateOpen src pa = true) :
    snoopGate src pa inv s = .ok none s := by
  simp only [State.gateOpen, Bool.and_eq_true, Bool.not_eq_true', Option.isNone_iff_eq_none] at h
  obtain ⟨⟨hq, hf⟩, ho⟩ := h
  have hs : snoopFor src pa inv s = .ok none s := by simp [snoopFor, hf, ho]
  simp [snoopGate, hq, hs]

/-- An access that nothing holds, of data that can be read and lies on no compressed page, passes the
checks of its data. -/
theorem dataCheck_ok {src : Source} {u : Use} {va : Word} {l : Loc} {s : State} (ho : s.gateOpen src l.pa = true)
    (hd : u.reads = true → pteCmp l.pte = false ∧ s.corrupt l.pa = false) : dataCheck src u va l s = .ok () s := by
  rw [dataCheck, M.bind_ok (snoopGate_free ho)]
  cases hr : u.reads with
  | false => rfl
  | true => simp [hd hr]

/-- A part that follows no outstanding access and whose data can be had is settled at once. -/
theorem settlePart_ok {u : Use} {p : Part} {s : State}
    (hw : ∀ sl, s.cur = .block sl → s.mustWait sl p u.inv = false ∧ (u.vector && s.anyHeld sl fun h => h.sv.isSome) = false)
    (ho : s.gateOpen (s.src p.loc.pa) p.loc.pa = true) (hd : u.reads = true → pteCmp p.loc.pte = false ∧ s.corrupt p.loc.pa = false) :
    settlePart u p s = .ok () s := by
  have hf : followPart u p s = .ok () s := by
    rw [followPart]
    simp only [M.bind_get]
    cases hc : s.cur with
    | block sl =>
      obtain ⟨h1, h2⟩ := hw sl hc
      simp only [h1, h2, Bool.or_self, Bool.false_eq_true, if_false]
      rfl
    | steward k => rfl
  rw [settlePart, M.bind_ok hf, M.bind_get]
  exact dataCheck_ok ho hd

theorem locateEach_nil {u : Use} {s : State} : locateEach u [] s = .ok [] s := rfl

theorem locateEach_cons {u : Use} {va : Word} {n : Nat} {rest : List (Word × Nat)} {l : Loc} {ps : List Part} {s t r v : State}
    (hl : hartLoc va u s = .ok l t) (hs : settlePart u ⟨va, l, n⟩ t = .ok () r) (hr : locateEach u rest r = .ok ps v) :
    locateEach u ((va, n) :: rest) s = .ok (⟨va, l, n⟩ :: ps) v := by
  rw [locateEach, M.bind_ok hl, M.bind_ok hs, M.bind_ok hr]; rfl

/-- An access of one part is of its page's ordering kind (R416). -/
theorem sameKind_one {u : Use} {ps : List Part} {s : State} (h : ps.length < 2) : sameKind u ps s = .ok ps s := by
  rw [sameKind, if_pos h]; rfl

/-- An access within one granule is located where its address goes. -/
theorem locate_one {u : Use} {va : Word} {n : Nat} {l : Loc} {s t r : State}
    (hl : hartLoc va u s = .ok l t) (hs : settlePart u ⟨va, l, n⟩ t = .ok () r) :
    locate u [(va, n)] s = .ok [⟨va, l, n⟩] r := by
  rw [locate, M.bind_ok (locateEach_cons hl hs locateEach_nil)]
  exact sameKind_one (Nat.lt_succ_self 1)

/-- A fault of a part ends the access before any of it is performed (R204). -/
theorem locate_error {u : Use} {l : List (Word × Nat)} {e : Exc} {s t : State} (h : locateEach u l s = .error e t) :
    locate u l s = .error e t := by
  rw [locate, M.bind_error h]

/-- A fault of the translation of a part ends the access before any of it is performed (R204, R205). -/
theorem locate_trap {u : Use} {va : Word} {n : Nat} {rest : List (Word × Nat)} {x : Trap} {s t : State}
    (hl : hartLoc va u s = .error (.trap x) t) : locate u ((va, n) :: rest) s = .error (.trap x) t :=
  locate_error (by rw [locateEach, M.bind_error hl])

/-- A fault of a part's data ends the access before a later part is translated (R204, R205). -/
theorem locate_settle_trap {u : Use} {va : Word} {n : Nat} {rest : List (Word × Nat)} {l : Loc} {x : Trap} {s t r : State}
    (hl : hartLoc va u s = .ok l t) (hs : settlePart u ⟨va, l, n⟩ t = .error (.trap x) r) :
    locate u ((va, n) :: rest) s = .error (.trap x) r :=
  locate_error (by rw [locateEach, M.bind_ok hl, M.bind_error hs])

theorem loadBytes_ok {va : Word} {n : Nat} {u : Use} {hint : Hint} {ps : List Part} {bs : List Byte} {s t w : State}
    (hl : locate u (cutGranules 3 va n) s = .ok ps t) (hr : readParts hint ps t = .ok bs w) :
    loadBytes va n u hint s = .ok bs w := by
  rw [loadBytes, M.bind_ok hl, hr]

theorem storeBytes_ok {va : Word} {bs : List Byte} {u : Use} {hint : Hint} {ps : List Part} {s t : State}
    (hl : locate u (cutGranules 3 va bs.length) s = .ok ps t) :
    storeBytes va bs u hint s = .ok () (t.writeParts hint ps bs none) := by
  rw [storeBytes, M.bind_ok hl]; rfl

end Sys2Proof.Machine
end

