-- ==== Sys2Proof/Laws/Lane.lean ====
section
/-! SUPPORT. What the frame of a vector or matrix instruction does: its gate, its word with and without active elements, and
the writing of its elements. -/
namespace Sys2Proof.Machine

/-! ### Gates and pops -/

theorem vecGate_ok {s : State} {sl : SlotId} (hc : s.cur = .block sl) (ht : (s.slot sl).threads = none) :
    vecGate s = .ok sl s := by
  have hl : s.lane = none := by unfold State.lane; simp [hc, ht]
  unfold vecGate; simp [hc, hl]

theorem vecGate_steward {s : State} {k : ClusterId} (hc : s.cur = .steward k) :
    vecGate s = .error (.trap (illegalTrap s.ir)) s := by
  unfold vecGate; simp [hc]

theorem vecGate_lane {s : State} {sl : SlotId} (hc : s.cur = .block sl) (hl : s.lane.isSome = true) :
    vecGate s = .error (.trap (illegalTrap s.ir)) s := by
  unfold vecGate; simp [hc, hl]

theorem popped_none {x : Slot} (h : x.streamsHere = []) (srcs : List VOpnd) : popped x srcs = [] := by
  unfold popped; rw [h]; rfl

theorem streamsOk_none {x : Slot} (h : x.streamsHere = []) (dst : Option VOpnd) (srcs : List VOpnd) :
    streamsOk x dst srcs = true := by
  unfold streamsOk; rw [h]; rfl

theorem withPops_none {c : VCtx} {srcs : List VOpnd} {k : VCtx → M Unit} {s : State} (h : (s.slot c.sl).streamsHere = []) :
    withPops c srcs k s = k c s := by
  unfold withPops
  simp [popped_none h]

/-! ### A word of the lane engine -/

/-- A word with an active element, whose checks pass, whose frame binds no stream and whose slot has no lane group lent, is
its own work. -/
theorem vecWith_ok {vm : Bool} {rs : Reg} {active : VCtx → List Nat} {bad : VCtx → Bool} {dst : VCtx → Option VOpnd}
    {srcs : VCtx → List VOpnd} {idle : State → State} {k : VCtx → List Nat → M Unit} {s : State} {sl : SlotId}
    (hc : s.cur = .block sl) (ht : (s.slot sl).threads = none) (ha : active (s.vctx sl vm rs) ≠ [])
    (hb : bad (s.vctx sl vm rs) = false) (hg : groupsOk s.nvreg vm (dst (s.vctx sl vm rs)) (srcs (s.vctx sl vm rs)) = true)
    (hs : (s.slot sl).streamsHere = []) (hl : s.ownLent sl = false) :
    vecWith vm rs active bad dst srcs idle k s = k (s.vctx sl vm rs) (active (s.vctx sl vm rs)) s := by
  unfold vecWith
  rw [M.bind_ok (vecGate_ok hc ht)]
  have he : (active (s.vctx sl vm rs)).isEmpty = false := by simpa [List.isEmpty_iff] using ha
  simp only [M.bind_get, he, hb, hg, streamsOk_none hs, hl, Bool.false_eq_true, if_false, Bool.not_true, Bool.or_self]
  exact withPops_none (c := s.vctx sl vm rs) hs

/-- A word with no active element is a no-operation that sets ctl.vstart to 0 (R95). -/
theorem vecWith_idle {vm : Bool} {rs : Reg} {active : VCtx → List Nat} {bad : VCtx → Bool} {dst : VCtx → Option VOpnd}
    {srcs : VCtx → List VOpnd} {idle : State → State} {k : VCtx → List Nat → M Unit} {s : State} {sl : SlotId}
    (hc : s.cur = .block sl) (ht : (s.slot sl).threads = none) (ha : active (s.vctx sl vm rs) = []) :
    vecWith vm rs active bad dst srcs idle k s = .ok () (idle s.endVector) := by
  unfold vecWith
  rw [M.bind_ok (vecGate_ok hc ht)]
  simp [ha]

/-- A word whose groups R96 refuses raises ILLREG. -/
theorem vecWith_illreg {vm : Bool} {rs : Reg} {active : VCtx → List Nat} {bad : VCtx → Bool} {dst : VCtx → Option VOpnd}
    {srcs : VCtx → List VOpnd} {idle : State → State} {k : VCtx → List Nat → M Unit} {s : State} {sl : SlotId}
    (hc : s.cur = .block sl) (ht : (s.slot sl).threads = none) (ha : active (s.vctx sl vm rs) ≠ [])
    (hb : bad (s.vctx sl vm rs) = false) (hg : groupsOk s.nvreg vm (dst (s.vctx sl vm rs)) (srcs (s.vctx sl vm rs)) = false) :
    vecWith vm rs active bad dst srcs idle k s = .error (.trap { cause := .illreg }) s := by
  unfold vecWith
  rw [M.bind_ok (vecGate_ok hc ht)]
  have he : (active (s.vctx sl vm rs)).isEmpty = false := by simpa [List.isEmpty_iff] using ha
  simp only [M.bind_get, he, hb, hg, illreg, Bool.false_eq_true, if_false, Bool.not_false, Bool.true_or, if_true]
  rfl

/-! ### Elements -/

/-- With no element that raises an enabled flag all are written and every flag accrues. -/
theorem cutElems_quiet (fte : Nat) (es : List VElem) (h : ∀ e ∈ es, e.2.2 &&& fte = 0) :
    cutElems fte es = (es, es.foldr (fun e f => e.2.2 ||| f) 0, none) := by
  induction es with
  | nil => rfl
  | cons e es ih =>
    have h1 := h e (List.mem_cons_self ..)
    rw [cutElems, if_neg (by simpa using h1), ih fun e he => h e (List.mem_cons_of_mem _ he)]
    rfl

theorem putElemwise_ok {c : VCtx} {d : VOpnd} {trapAt : Nat → Nat} {es : List VElem} {s : State}
    (h : ∀ e ∈ es, e.2.2 &&& fcsrFte s.hart.fcsr = 0) :
    putElemwise c d trapAt es s = .ok (es.foldr (fun e f => e.2.2 ||| f) 0)
      (((s.putElems c d es).accrueV (es.foldr (fun e f => e.2.2 ||| f) 0)).endVector) := by
  unfold putElemwise
  simp only [M.bind_get, cutElems_quiet _ _ h, M.bind_modify]
  rfl

theorem putReduction_ok {c : VCtx} {d : VOpnd} {es : List VElem} {s : State}
    (h : es.foldl (fun f e => f ||| e.2.2) 0 &&& fcsrFte (s.accrueV (es.foldl (fun f e => f ||| e.2.2) 0)).hart.fcsr = 0) :
    putReduction c d es s = .ok (es.foldl (fun f e => f ||| e.2.2) 0)
      (((s.accrueV (es.foldl (fun f e => f ||| e.2.2) 0)).putElems c d es).endVector) := by
  unfold putReduction
  simp only [M.bind_modify, M.bind_get, h, ne_eq, not_true_eq_false, if_false]
  rfl

/-- An element-wise word executes its elements: no lookup, no enabled flag raised. -/
theorem VSpec.run_ok {sp : VSpec} {v : VInst} {s : State} {sl : SlotId} (hp : s.power = .on) (hc : s.cur = .block sl)
    (ht : (s.slot sl).threads = none) (ha : sp.active (s.vctx sl v.vm v.scalar) ≠ [])
    (hb : sp.bad (s.vctx sl v.vm v.scalar) = false)
    (hg : groupsOk s.nvreg v.vm (some (sp.dst (s.vctx sl v.vm v.scalar))) (sp.srcs (s.vctx sl v.vm v.scalar)) = true)
    (hs : (s.slot sl).streamsHere = []) (hl : s.ownLent sl = false) (hr : sp.reduction = false) (hset : s.hart.sett.getLsbD 0 = false)
    (h : ∀ e ∈ sp.elems (s.vctx sl v.vm v.scalar) (sp.active (s.vctx sl v.vm v.scalar)), e.2.2 &&& fcsrFte s.hart.fcsr = 0) :
    let c := s.vctx sl v.vm v.scalar
    let es := sp.elems c (sp.active c)
    let t := ((s.putElems c (sp.dst c) es).accrueV (es.foldr (fun e f => e.2.2 ||| f) 0)).endVector
    sp.run v s = .next (t.retire (t.pc + 4)) := by
  intro c es t
  refine runInstr_ok hp ?_
  rw [vecWith_ok hc ht ha hb hg hs hl]
  have hl : sp.looksUp (s.vctx sl v.vm v.scalar) s = false := by
    unfold VSpec.looksUp; simp only [hset, Bool.and_false, Bool.false_and]
  unfold VSpec.issue VSpec.perform
  simp only [M.bind_get, hl, Bool.not_false, if_true, hr, Bool.false_eq_true, if_false]
  rw [M.bind_ok (putElemwise_ok h)]
  rfl

/-- A forcing word writes its scalar register (R40). -/
theorem forceOp_ok {vm : Bool} {rd : Reg} {active : VCtx → List Nat} {srcs : VCtx → List VOpnd} {f : VCtx → List Nat → Word}
    {s : State} {sl : SlotId} (hp : s.power = .on) (hc : s.cur = .block sl) (ht : (s.slot sl).threads = none)
    (ha : active (s.vctx sl vm 0) ≠ []) (hg : groupsOk s.nvreg vm none (srcs (s.vctx sl vm 0)) = true)
    (hs : (s.slot sl).streamsHere = []) (hl : s.ownLent sl = false) :
    let c := s.vctx sl vm 0
    let t := ((s.setForced rd (f c (active c))).endVector).resync
    forceOp vm rd active srcs f s = .next (t.retire (t.pc + 4)) := by
  intro c t
  refine runInstr_ok hp ?_
  rw [vecWith_ok hc ht ha rfl hg hs hl]
  rfl

end Sys2Proof.Machine
end

