-- ==== Sys2Proof/Laws/PerInstr.lean ====
section
/-! SUPPORT. One lemma per constructor of Instr: the length of its encoding (R67, R69). -/
namespace Sys2Proof.Laws.Form

/-- A well-formed instruction takes one word or two. -/
def Statement (i : Instr) : Prop := i.wf = true → i.length = 4 ∨ i.length = 8

theorem add (rd : Reg) (rs1 : Reg) (rs2 : Reg) : Statement (.add rd rs1 rs2) := fun _ => .inl rfl
theorem sub (rd : Reg) (rs1 : Reg) (rs2 : Reg) : Statement (.sub rd rs1 rs2) := fun _ => .inl rfl
theorem and (rd : Reg) (rs1 : Reg) (rs2 : Reg) : Statement (.and rd rs1 rs2) := fun _ => .inl rfl
theorem or (rd : Reg) (rs1 : Reg) (rs2 : Reg) : Statement (.or rd rs1 rs2) := fun _ => .inl rfl
theorem xor (rd : Reg) (rs1 : Reg) (rs2 : Reg) : Statement (.xor rd rs1 rs2) := fun _ => .inl rfl
theorem andn (rd : Reg) (rs1 : Reg) (rs2 : Reg) : Statement (.andn rd rs1 rs2) := fun _ => .inl rfl
theorem orn (rd : Reg) (rs1 : Reg) (rs2 : Reg) : Statement (.orn rd rs1 rs2) := fun _ => .inl rfl
theorem sll (rd : Reg) (rs1 : Reg) (rs2 : Reg) : Statement (.sll rd rs1 rs2) := fun _ => .inl rfl
theorem srl (rd : Reg) (rs1 : Reg) (rs2 : Reg) : Statement (.srl rd rs1 rs2) := fun _ => .inl rfl
theorem sra (rd : Reg) (rs1 : Reg) (rs2 : Reg) : Statement (.sra rd rs1 rs2) := fun _ => .inl rfl
theorem rol (rd : Reg) (rs1 : Reg) (rs2 : Reg) : Statement (.rol rd rs1 rs2) := fun _ => .inl rfl
theorem ror (rd : Reg) (rs1 : Reg) (rs2 : Reg) : Statement (.ror rd rs1 rs2) := fun _ => .inl rfl
theorem slt (rd : Reg) (rs1 : Reg) (rs2 : Reg) : Statement (.slt rd rs1 rs2) := fun _ => .inl rfl
theorem sltn (rd : Reg) (rs1 : Reg) (rs2 : Reg) : Statement (.sltn rd rs1 rs2) := fun _ => .inl rfl
theorem min (rd : Reg) (rs1 : Reg) (rs2 : Reg) : Statement (.min rd rs1 rs2) := fun _ => .inl rfl
theorem max (rd : Reg) (rs1 : Reg) (rs2 : Reg) : Statement (.max rd rs1 rs2) := fun _ => .inl rfl
theorem minn (rd : Reg) (rs1 : Reg) (rs2 : Reg) : Statement (.minn rd rs1 rs2) := fun _ => .inl rfl
theorem maxn (rd : Reg) (rs1 : Reg) (rs2 : Reg) : Statement (.maxn rd rs1 rs2) := fun _ => .inl rfl
theorem czeq (rd : Reg) (rs1 : Reg) (rs2 : Reg) : Statement (.czeq rd rs1 rs2) := fun _ => .inl rfl
theorem czne (rd : Reg) (rs1 : Reg) (rs2 : Reg) : Statement (.czne rd rs1 rs2) := fun _ => .inl rfl
theorem clz (rd : Reg) (rs1 : Reg) : Statement (.clz rd rs1) := fun _ => .inl rfl
theorem ctz (rd : Reg) (rs1 : Reg) : Statement (.ctz rd rs1) := fun _ => .inl rfl
theorem popc (rd : Reg) (rs1 : Reg) : Statement (.popc rd rs1) := fun _ => .inl rfl
theorem bswap (rd : Reg) (rs1 : Reg) : Statement (.bswap rd rs1) := fun _ => .inl rfl
theorem sextb (rd : Reg) (rs1 : Reg) : Statement (.sextb rd rs1) := fun _ => .inl rfl
theorem sexth (rd : Reg) (rs1 : Reg) : Statement (.sexth rd rs1) := fun _ => .inl rfl
theorem sextw (rd : Reg) (rs1 : Reg) : Statement (.sextw rd rs1) := fun _ => .inl rfl
theorem zextw (rd : Reg) (rs1 : Reg) : Statement (.zextw rd rs1) := fun _ => .inl rfl
theorem addw (rd : Reg) (rs1 : Reg) (rs2 : Reg) : Statement (.addw rd rs1 rs2) := fun _ => .inl rfl
theorem subw (rd : Reg) (rs1 : Reg) (rs2 : Reg) : Statement (.subw rd rs1 rs2) := fun _ => .inl rfl
theorem sllw (rd : Reg) (rs1 : Reg) (rs2 : Reg) : Statement (.sllw rd rs1 rs2) := fun _ => .inl rfl
theorem srlw (rd : Reg) (rs1 : Reg) (rs2 : Reg) : Statement (.srlw rd rs1 rs2) := fun _ => .inl rfl
theorem sraw (rd : Reg) (rs1 : Reg) (rs2 : Reg) : Statement (.sraw rd rs1 rs2) := fun _ => .inl rfl
theorem addi (rd : Reg) (rs1 : Reg) (imm : BitVec 16) : Statement (.addi rd rs1 imm) := fun _ => .inl rfl
theorem andi (rd : Reg) (rs1 : Reg) (imm : BitVec 16) : Statement (.andi rd rs1 imm) := fun _ => .inl rfl
theorem ori (rd : Reg) (rs1 : Reg) (imm : BitVec 16) : Statement (.ori rd rs1 imm) := fun _ => .inl rfl
theorem xori (rd : Reg) (rs1 : Reg) (imm : BitVec 16) : Statement (.xori rd rs1 imm) := fun _ => .inl rfl
theorem slli (rd : Reg) (rs1 : Reg) (sh : BitVec 6) : Statement (.slli rd rs1 sh) := fun _ => .inl rfl
theorem srli (rd : Reg) (rs1 : Reg) (sh : BitVec 6) : Statement (.srli rd rs1 sh) := fun _ => .inl rfl
theorem srai (rd : Reg) (rs1 : Reg) (sh : BitVec 6) : Statement (.srai rd rs1 sh) := fun _ => .inl rfl
theorem addwi (rd : Reg) (rs1 : Reg) (imm : BitVec 12) : Statement (.addwi rd rs1 imm) := fun _ => .inl rfl
theorem slti (rd : Reg) (rs1 : Reg) (imm : BitVec 15) : Statement (.slti rd rs1 imm) := fun _ => .inl rfl
theorem sltni (rd : Reg) (rs1 : Reg) (imm : BitVec 15) : Statement (.sltni rd rs1 imm) := fun _ => .inl rfl
theorem lui (rd : Reg) (imm : BitVec 21) : Statement (.lui rd imm) := fun _ => .inl rfl
theorem auipc (rd : Reg) (imm : BitVec 21) : Statement (.auipc rd imm) := fun _ => .inl rfl
theorem fadd (fmt : FFmt) (rm : Rm) (rd : Reg) (rs1 : Reg) (rs2 : Reg) : Statement (.fadd fmt rm rd rs1 rs2) := fun _ => .inl rfl
theorem fsub (fmt : FFmt) (rm : Rm) (rd : Reg) (rs1 : Reg) (rs2 : Reg) : Statement (.fsub fmt rm rd rs1 rs2) := fun _ => .inl rfl
theorem fmul (fmt : FFmt) (rm : Rm) (rd : Reg) (rs1 : Reg) (rs2 : Reg) : Statement (.fmul fmt rm rd rs1 rs2) := fun _ => .inl rfl
theorem fdiv (fmt : FFmt) (rm : Rm) (rd : Reg) (rs1 : Reg) (rs2 : Reg) : Statement (.fdiv fmt rm rd rs1 rs2) := fun _ => .inl rfl
theorem fsqrt (fmt : FFmt) (rm : Rm) (rd : Reg) (rs1 : Reg) : Statement (.fsqrt fmt rm rd rs1) := fun _ => .inl rfl
theorem fma (fmt : FFmt) (rm : Rm) (rd : Reg) (rs1 : Reg) (rs2 : Reg) : Statement (.fma fmt rm rd rs1 rs2) := fun _ => .inl rfl
theorem fms (fmt : FFmt) (rm : Rm) (rd : Reg) (rs1 : Reg) (rs2 : Reg) : Statement (.fms fmt rm rd rs1 rs2) := fun _ => .inl rfl
theorem fnma (fmt : FFmt) (rm : Rm) (rd : Reg) (rs1 : Reg) (rs2 : Reg) : Statement (.fnma fmt rm rd rs1 rs2) := fun _ => .inl rfl
theorem fnms (fmt : FFmt) (rm : Rm) (rd : Reg) (rs1 : Reg) (rs2 : Reg) : Statement (.fnms fmt rm rd rs1 rs2) := fun _ => .inl rfl
theorem fmin (fmt : FFmt) (rd : Reg) (rs1 : Reg) (rs2 : Reg) : Statement (.fmin fmt rd rs1 rs2) := fun _ => .inl rfl
theorem fmax (fmt : FFmt) (rd : Reg) (rs1 : Reg) (rs2 : Reg) : Statement (.fmax fmt rd rs1 rs2) := fun _ => .inl rfl
theorem feq (fmt : FFmt) (rd : Reg) (rs1 : Reg) (rs2 : Reg) : Statement (.feq fmt rd rs1 rs2) := fun _ => .inl rfl
theorem flt (fmt : FFmt) (rd : Reg) (rs1 : Reg) (rs2 : Reg) : Statement (.flt fmt rd rs1 rs2) := fun _ => .inl rfl
theorem fle (fmt : FFmt) (rd : Reg) (rs1 : Reg) (rs2 : Reg) : Statement (.fle fmt rd rs1 rs2) := fun _ => .inl rfl
theorem fclass (fmt : FFmt) (rd : Reg) (rs1 : Reg) : Statement (.fclass fmt rd rs1) := fun _ => .inl rfl
theorem fsgnj (fmt : FFmt) (rd : Reg) (rs1 : Reg) (rs2 : Reg) : Statement (.fsgnj fmt rd rs1 rs2) := fun _ => .inl rfl
theorem fsgnjn (fmt : FFmt) (rd : Reg) (rs1 : Reg) (rs2 : Reg) : Statement (.fsgnjn fmt rd rs1 rs2) := fun _ => .inl rfl
theorem fsgnjx (fmt : FFmt) (rd : Reg) (rs1 : Reg) (rs2 : Reg) : Statement (.fsgnjx fmt rd rs1 rs2) := fun _ => .inl rfl
theorem fcvtToFloat (fmt : FFmt) (rm : Rm) (src : Ty) (rd : Reg) (rs1 : Reg) : Statement (.fcvtToFloat fmt rm src rd rs1) := fun _ => .inl rfl
theorem fcvtToInt (fmt : FFmt) (rm : Rm) (dst : Ty) (rd : Reg) (rs1 : Reg) : Statement (.fcvtToInt fmt rm dst rd rs1) := fun _ => .inl rfl
theorem mul (rd : Reg) (rs1 : Reg) (rs2 : Reg) : Statement (.mul rd rs1 rs2) := fun _ => .inl rfl
theorem mulh (rd : Reg) (rs1 : Reg) (rs2 : Reg) : Statement (.mulh rd rs1 rs2) := fun _ => .inl rfl
theorem mulhn (rd : Reg) (rs1 : Reg) (rs2 : Reg) : Statement (.mulhn rd rs1 rs2) := fun _ => .inl rfl
theorem mulhsn (rd : Reg) (rs1 : Reg) (rs2 : Reg) : Statement (.mulhsn rd rs1 rs2) := fun _ => .inl rfl
theorem mulw (rd : Reg) (rs1 : Reg) (rs2 : Reg) : Statement (.mulw rd rs1 rs2) := fun _ => .inl rfl
theorem div (rd : Reg) (rs1 : Reg) (rs2 : Reg) : Statement (.div rd rs1 rs2) := fun _ => .inl rfl
theorem divn (rd : Reg) (rs1 : Reg) (rs2 : Reg) : Statement (.divn rd rs1 rs2) := fun _ => .inl rfl
theorem rem (rd : Reg) (rs1 : Reg) (rs2 : Reg) : Statement (.rem rd rs1 rs2) := fun _ => .inl rfl
theorem remn (rd : Reg) (rs1 : Reg) (rs2 : Reg) : Statement (.remn rd rs1 rs2) := fun _ => .inl rfl
theorem divw (rd : Reg) (rs1 : Reg) (rs2 : Reg) : Statement (.divw rd rs1 rs2) := fun _ => .inl rfl
theorem ld (size : LdSize) (rd : Reg) (rs1 : Reg) (imm : BitVec 13) : Statement (.ld size rd rs1 imm) := fun _ => .inl rfl
theorem st (size : StSize) (rs2 : Reg) (rs1 : Reg) (imm : BitVec 13) : Statement (.st size rs2 rs1 imm) := fun _ => .inl rfl
theorem amo (op : AmoOp) (order : Order) (width : AWidth) (scope : Scope) (rd : Reg) (rs1 : Reg) (rs2 : Reg) : Statement (.amo op order width scope rd rs1 rs2) := fun _ => .inl rfl
theorem cas (order : Order) (width : AWidth) (scope : Scope) (rd : Reg) (rs1 : Reg) (rs2 : Reg) : Statement (.cas order width scope rd rs1 rs2) := fun _ => .inl rfl
theorem cas2 (order : Order) (scope : Scope) (rd : Reg) (rs1 : Reg) (rs2 : Reg) : Statement (.cas2 order scope rd rs1 rs2) := fun _ => .inl rfl
theorem ldaq (width : AWidth) (scope : Scope) (rd : Reg) (rs1 : Reg) : Statement (.ldaq width scope rd rs1) := fun _ => .inl rfl
theorem strl (width : AWidth) (scope : Scope) (rs1 : Reg) (rs2 : Reg) : Statement (.strl width scope rs1 rs2) := fun _ => .inl rfl
theorem fence (kind : FenceKind) (scope : Scope) : Statement (.fence kind scope) := fun _ => .inl rfl
theorem fenceSv : Statement .fenceSv := fun _ => .inl rfl
theorem fenceVs : Statement .fenceVs := fun _ => .inl rfl
theorem fenceI : Statement .fenceI := fun _ => .inl rfl
theorem ipref (rs1 : Reg) (imm : BitVec 12) : Statement (.ipref rs1 imm) := fun _ => .inl rfl
theorem dpref (rs1 : Reg) (imm : BitVec 12) : Statement (.dpref rs1 imm) := fun _ => .inl rfl
theorem beq (rs1 : Reg) (rs2 : Reg) (off : BitVec 13) : Statement (.beq rs1 rs2 off) := fun _ => .inl rfl
theorem bne (rs1 : Reg) (rs2 : Reg) (off : BitVec 13) : Statement (.bne rs1 rs2 off) := fun _ => .inl rfl
theorem blt (rs1 : Reg) (rs2 : Reg) (off : BitVec 13) : Statement (.blt rs1 rs2 off) := fun _ => .inl rfl
theorem bge (rs1 : Reg) (rs2 : Reg) (off : BitVec 13) : Statement (.bge rs1 rs2 off) := fun _ => .inl rfl
theorem bltn (rs1 : Reg) (rs2 : Reg) (off : BitVec 13) : Statement (.bltn rs1 rs2 off) := fun _ => .inl rfl
theorem bgen (rs1 : Reg) (rs2 : Reg) (off : BitVec 13) : Statement (.bgen rs1 rs2 off) := fun _ => .inl rfl
theorem jal (rd : Reg) (imm : BitVec 21) : Statement (.jal rd imm) := fun _ => .inl rfl
theorem jalr (rd : Reg) (rs1 : Reg) (imm : BitVec 16) : Statement (.jalr rd rs1 imm) := fun _ => .inl rfl
theorem jtW (xi : Reg) (xn : Reg) (size : BitVec 13) : Statement (.jtW xi xn size) := fun _ => .inl rfl
theorem jtD (xi : Reg) (xn : Reg) (size : BitVec 13) : Statement (.jtD xi xn size) := fun _ => .inl rfl
theorem bstrip (rs1 : Reg) (rs2 : Reg) (off : BitVec 13) : Statement (.bstrip rs1 rs2 off) := fun _ => .inl rfl
theorem ecall : Statement .ecall := fun _ => .inl rfl
theorem ebreak : Statement .ebreak := fun _ => .inl rfl
theorem trapret : Statement .trapret := fun _ => .inl rfl
theorem yield : Statement .yield := fun _ => .inl rfl
theorem widf (rd : Reg) (rs1 : Reg) (level : BitVec 5) : Statement (.widf rd rs1 level) := fun _ => .inl rfl
theorem ctlr (rd : Reg) (addr : BitVec 12) : Statement (.ctlr rd addr) := fun _ => .inl rfl
theorem ctlw (rd : Reg) (rs1 : Reg) (addr : BitVec 12) : Statement (.ctlw rd rs1 addr) := fun _ => .inl rfl
theorem ctls (rd : Reg) (rs1 : Reg) (addr : BitVec 12) : Statement (.ctls rd rs1 addr) := fun _ => .inl rfl
theorem ctlc (rd : Reg) (rs1 : Reg) (addr : BitVec 12) : Statement (.ctlc rd rs1 addr) := fun _ => .inl rfl
theorem evpop (rd : Reg) (rs1 : Reg) : Statement (.evpop rd rs1) := fun _ => .inl rfl
theorem evwait (rd : Reg) (rs1 : Reg) : Statement (.evwait rd rs1) := fun _ => .inl rfl
theorem slotassign (rd : Reg) (rs1 : Reg) : Statement (.slotassign rd rs1) := fun _ => .inl rfl
theorem slotevict (rd : Reg) (rs1 : Reg) (rs2 : Reg) : Statement (.slotevict rd rs1 rs2) := fun _ => .inl rfl
theorem cqpush (rd : Reg) (rs1 : Reg) : Statement (.cqpush rd rs1) := fun _ => .inl rfl
theorem tlbinv (rs1 : Reg) (rs2 : Reg) : Statement (.tlbinv rs1 rs2) := fun _ => .inl rfl
theorem vsetvli (rd : Reg) (rs1 : Reg) (vtype : BitVec 6) : Statement (.vsetvli rd rs1 vtype) := fun _ => .inl rfl
theorem vsetvl (rd : Reg) (rs1 : Reg) (rs2 : Reg) : Statement (.vsetvl rd rs1 rs2) := fun _ => .inl rfl
theorem msetmvl (rd : Reg) (rs1 : Reg) : Statement (.msetmvl rd rs1) := fun _ => .inl rfl
theorem vstream (vd : Reg) (rs1 : Reg) (k : BitVec 3) : Statement (.vstream vd rs1 k) := fun _ => .inl rfl
theorem vunstream (k : BitVec 3) : Statement (.vunstream k) := fun _ => .inl rfl
theorem vadd (k : VKind) (vm : Bool) (vd : Reg) (s1 : Reg) (vs2 : Reg) : Statement (.vadd k vm vd s1 vs2) := fun _ => .inl rfl
theorem vsub (k : VKind) (vm : Bool) (vd : Reg) (s1 : Reg) (vs2 : Reg) : Statement (.vsub k vm vd s1 vs2) := fun _ => .inl rfl
theorem vrsub (k : VKind) (vm : Bool) (vd : Reg) (s1 : Reg) (vs2 : Reg) : Statement (.vrsub k vm vd s1 vs2) := fun _ => .inl rfl
theorem vmul (k : VKind) (vm : Bool) (vd : Reg) (s1 : Reg) (vs2 : Reg) : Statement (.vmul k vm vd s1 vs2) := fun _ => .inl rfl
theorem vmulh (k : VKind) (vm : Bool) (vd : Reg) (s1 : Reg) (vs2 : Reg) : Statement (.vmulh k vm vd s1 vs2) := fun _ => .inl rfl
theorem vmulhn (k : VKind) (vm : Bool) (vd : Reg) (s1 : Reg) (vs2 : Reg) : Statement (.vmulhn k vm vd s1 vs2) := fun _ => .inl rfl
theorem vdiv (k : VKind) (vm : Bool) (vd : Reg) (s1 : Reg) (vs2 : Reg) : Statement (.vdiv k vm vd s1 vs2) := fun _ => .inl rfl
theorem vdivn (k : VKind) (vm : Bool) (vd : Reg) (s1 : Reg) (vs2 : Reg) : Statement (.vdivn k vm vd s1 vs2) := fun _ => .inl rfl
theorem vrem (k : VKind) (vm : Bool) (vd : Reg) (s1 : Reg) (vs2 : Reg) : Statement (.vrem k vm vd s1 vs2) := fun _ => .inl rfl
theorem vremn (k : VKind) (vm : Bool) (vd : Reg) (s1 : Reg) (vs2 : Reg) : Statement (.vremn k vm vd s1 vs2) := fun _ => .inl rfl
theorem vmin (k : VKind) (vm : Bool) (vd : Reg) (s1 : Reg) (vs2 : Reg) : Statement (.vmin k vm vd s1 vs2) := fun _ => .inl rfl
theorem vmax (k : VKind) (vm : Bool) (vd : Reg) (s1 : Reg) (vs2 : Reg) : Statement (.vmax k vm vd s1 vs2) := fun _ => .inl rfl
theorem vminn (k : VKind) (vm : Bool) (vd : Reg) (s1 : Reg) (vs2 : Reg) : Statement (.vminn k vm vd s1 vs2) := fun _ => .inl rfl
theorem vmaxn (k : VKind) (vm : Bool) (vd : Reg) (s1 : Reg) (vs2 : Reg) : Statement (.vmaxn k vm vd s1 vs2) := fun _ => .inl rfl
theorem vand (k : VKind) (vm : Bool) (vd : Reg) (s1 : Reg) (vs2 : Reg) : Statement (.vand k vm vd s1 vs2) := fun _ => .inl rfl
theorem vor (k : VKind) (vm : Bool) (vd : Reg) (s1 : Reg) (vs2 : Reg) : Statement (.vor k vm vd s1 vs2) := fun _ => .inl rfl
theorem vxor (k : VKind) (vm : Bool) (vd : Reg) (s1 : Reg) (vs2 : Reg) : Statement (.vxor k vm vd s1 vs2) := fun _ => .inl rfl
theorem vsll (k : VKind) (vm : Bool) (vd : Reg) (s1 : Reg) (vs2 : Reg) : Statement (.vsll k vm vd s1 vs2) := fun _ => .inl rfl
theorem vsrl (k : VKind) (vm : Bool) (vd : Reg) (s1 : Reg) (vs2 : Reg) : Statement (.vsrl k vm vd s1 vs2) := fun _ => .inl rfl
theorem vsra (k : VKind) (vm : Bool) (vd : Reg) (s1 : Reg) (vs2 : Reg) : Statement (.vsra k vm vd s1 vs2) := fun _ => .inl rfl
theorem vnsrl (k : VKind) (vm : Bool) (vd : Reg) (s1 : Reg) (vs2 : Reg) : Statement (.vnsrl k vm vd s1 vs2) := fun _ => .inl rfl
theorem vnsra (k : VKind) (vm : Bool) (vd : Reg) (s1 : Reg) (vs2 : Reg) : Statement (.vnsra k vm vd s1 vs2) := fun _ => .inl rfl
theorem vwadd (k : VKind) (vm : Bool) (vd : Reg) (s1 : Reg) (vs2 : Reg) : Statement (.vwadd k vm vd s1 vs2) := fun _ => .inl rfl
theorem vwaddn (k : VKind) (vm : Bool) (vd : Reg) (s1 : Reg) (vs2 : Reg) : Statement (.vwaddn k vm vd s1 vs2) := fun _ => .inl rfl
theorem vwmul (k : VKind) (vm : Bool) (vd : Reg) (s1 : Reg) (vs2 : Reg) : Statement (.vwmul k vm vd s1 vs2) := fun _ => .inl rfl
theorem vwmuln (k : VKind) (vm : Bool) (vd : Reg) (s1 : Reg) (vs2 : Reg) : Statement (.vwmuln k vm vd s1 vs2) := fun _ => .inl rfl
theorem vsadd (k : VKind) (vm : Bool) (vd : Reg) (s1 : Reg) (vs2 : Reg) : Statement (.vsadd k vm vd s1 vs2) := fun _ => .inl rfl
theorem vsaddn (k : VKind) (vm : Bool) (vd : Reg) (s1 : Reg) (vs2 : Reg) : Statement (.vsaddn k vm vd s1 vs2) := fun _ => .inl rfl
theorem vssub (k : VKind) (vm : Bool) (vd : Reg) (s1 : Reg) (vs2 : Reg) : Statement (.vssub k vm vd s1 vs2) := fun _ => .inl rfl
theorem vssubn (k : VKind) (vm : Bool) (vd : Reg) (s1 : Reg) (vs2 : Reg) : Statement (.vssubn k vm vd s1 vs2) := fun _ => .inl rfl
theorem vmacc (k : VKind) (vm : Bool) (vd : Reg) (s1 : Reg) (vs2 : Reg) : Statement (.vmacc k vm vd s1 vs2) := fun _ => .inl rfl
theorem vnmsac (k : VKind) (vm : Bool) (vd : Reg) (s1 : Reg) (vs2 : Reg) : Statement (.vnmsac k vm vd s1 vs2) := fun _ => .inl rfl
theorem vmerge (k : VKind) (vd : Reg) (s1 : Reg) (vs2 : Reg) : Statement (.vmerge k vd s1 vs2) := fun _ => .inl rfl
theorem vmv (k : VKind) (vd : Reg) (s1 : Reg) : Statement (.vmv k vd s1) := fun _ => .inl rfl
theorem vcmp (c : VCond) (k : VKind) (vm : Bool) (vd : Reg) (s1 : Reg) (vs2 : Reg) : Statement (.vcmp c k vm vd s1 vs2) := fun _ => .inl rfl
theorem vfadd (k : VKind) (alt : Bool) (vm : Bool) (vd : Reg) (s1 : Reg) (vs2 : Reg) : Statement (.vfadd k alt vm vd s1 vs2) := fun _ => .inl rfl
theorem vfsub (k : VKind) (alt : Bool) (vm : Bool) (vd : Reg) (s1 : Reg) (vs2 : Reg) : Statement (.vfsub k alt vm vd s1 vs2) := fun _ => .inl rfl
theorem vfrsub (k : VKind) (alt : Bool) (vm : Bool) (vd : Reg) (s1 : Reg) (vs2 : Reg) : Statement (.vfrsub k alt vm vd s1 vs2) := fun _ => .inl rfl
theorem vfmul (k : VKind) (alt : Bool) (vm : Bool) (vd : Reg) (s1 : Reg) (vs2 : Reg) : Statement (.vfmul k alt vm vd s1 vs2) := fun _ => .inl rfl
theorem vfdiv (k : VKind) (alt : Bool) (vm : Bool) (vd : Reg) (s1 : Reg) (vs2 : Reg) : Statement (.vfdiv k alt vm vd s1 vs2) := fun _ => .inl rfl
theorem vfrdiv (k : VKind) (alt : Bool) (vm : Bool) (vd : Reg) (s1 : Reg) (vs2 : Reg) : Statement (.vfrdiv k alt vm vd s1 vs2) := fun _ => .inl rfl
theorem vfsqrt (alt : Bool) (vm : Bool) (vd : Reg) (vs2 : Reg) : Statement (.vfsqrt alt vm vd vs2) := fun _ => .inl rfl
theorem vfrece (alt : Bool) (vm : Bool) (vd : Reg) (vs2 : Reg) : Statement (.vfrece alt vm vd vs2) := fun _ => .inl rfl
theorem vfrsqe (alt : Bool) (vm : Bool) (vd : Reg) (vs2 : Reg) : Statement (.vfrsqe alt vm vd vs2) := fun _ => .inl rfl
theorem vfexp2 (alt : Bool) (vm : Bool) (vd : Reg) (vs2 : Reg) : Statement (.vfexp2 alt vm vd vs2) := fun _ => .inl rfl
theorem vflog2 (alt : Bool) (vm : Bool) (vd : Reg) (vs2 : Reg) : Statement (.vflog2 alt vm vd vs2) := fun _ => .inl rfl
theorem vfmacc (k : VKind) (alt : Bool) (vm : Bool) (vd : Reg) (s1 : Reg) (vs2 : Reg) : Statement (.vfmacc k alt vm vd s1 vs2) := fun _ => .inl rfl
theorem vfnmacc (k : VKind) (alt : Bool) (vm : Bool) (vd : Reg) (s1 : Reg) (vs2 : Reg) : Statement (.vfnmacc k alt vm vd s1 vs2) := fun _ => .inl rfl
theorem vfmsac (k : VKind) (alt : Bool) (vm : Bool) (vd : Reg) (s1 : Reg) (vs2 : Reg) : Statement (.vfmsac k alt vm vd s1 vs2) := fun _ => .inl rfl
theorem vfnmsac (k : VKind) (alt : Bool) (vm : Bool) (vd : Reg) (s1 : Reg) (vs2 : Reg) : Statement (.vfnmsac k alt vm vd s1 vs2) := fun _ => .inl rfl
theorem vfmin (k : VKind) (alt : Bool) (vm : Bool) (vd : Reg) (s1 : Reg) (vs2 : Reg) : Statement (.vfmin k alt vm vd s1 vs2) := fun _ => .inl rfl
theorem vfmax (k : VKind) (alt : Bool) (vm : Bool) (vd : Reg) (s1 : Reg) (vs2 : Reg) : Statement (.vfmax k alt vm vd s1 vs2) := fun _ => .inl rfl
theorem vfsgnj (k : VKind) (alt : Bool) (vm : Bool) (vd : Reg) (s1 : Reg) (vs2 : Reg) : Statement (.vfsgnj k alt vm vd s1 vs2) := fun _ => .inl rfl
theorem vfclass (alt : Bool) (vm : Bool) (vd : Reg) (vs2 : Reg) : Statement (.vfclass alt vm vd vs2) := fun _ => .inl rfl
theorem vfcvt (code : BitVec 3) (salt : Bool) (dalt : Bool) (vm : Bool) (vd : Reg) (vs2 : Reg) : Statement (.vfcvt code salt dalt vm vd vs2) := fun _ => .inl rfl
theorem vfsgnjN (k : VKind) (alt : Bool) (vm : Bool) (vd : Reg) (s1 : Reg) (vs2 : Reg) : Statement (.vfsgnjN k alt vm vd s1 vs2) := fun _ => .inl rfl
theorem vfsgnjX (k : VKind) (alt : Bool) (vm : Bool) (vd : Reg) (s1 : Reg) (vs2 : Reg) : Statement (.vfsgnjX k alt vm vd s1 vs2) := fun _ => .inl rfl
theorem vfcmp (c : FCond) (k : VKind) (alt : Bool) (vm : Bool) (vd : Reg) (s1 : Reg) (vs2 : Reg) : Statement (.vfcmp c k alt vm vd s1 vs2) := fun _ => .inl rfl
theorem vlmul (vm : Bool) (vd : Reg) (vs1 : Reg) (vs2 : Reg) : Statement (.vlmul vm vd vs1 vs2) := fun _ => .inl rfl
theorem vldot (vm : Bool) (vd : Reg) (vs1 : Reg) (vs2 : Reg) : Statement (.vldot vm vd vs1 vs2) := fun _ => .inl rfl
theorem vlcvt (fromLg : Bool) (alt : Bool) (vm : Bool) (vd : Reg) (vs2 : Reg) : Statement (.vlcvt fromLg alt vm vd vs2) := fun _ => .inl rfl
theorem vlscale (k : VKind) (vm : Bool) (vd : Reg) (s1 : Reg) (vs2 : Reg) : Statement (.vlscale k vm vd s1 vs2) := fun _ => .inl rfl
theorem vredsum (vm : Bool) (vd : Reg) (vs1 : Reg) (vs2 : Reg) : Statement (.vredsum vm vd vs1 vs2) := fun _ => .inl rfl
theorem vredmin (vm : Bool) (vd : Reg) (vs1 : Reg) (vs2 : Reg) : Statement (.vredmin vm vd vs1 vs2) := fun _ => .inl rfl
theorem vredmax (vm : Bool) (vd : Reg) (vs1 : Reg) (vs2 : Reg) : Statement (.vredmax vm vd vs1 vs2) := fun _ => .inl rfl
theorem vredminn (vm : Bool) (vd : Reg) (vs1 : Reg) (vs2 : Reg) : Statement (.vredminn vm vd vs1 vs2) := fun _ => .inl rfl
theorem vredmaxn (vm : Bool) (vd : Reg) (vs1 : Reg) (vs2 : Reg) : Statement (.vredmaxn vm vd vs1 vs2) := fun _ => .inl rfl
theorem vredand (vm : Bool) (vd : Reg) (vs1 : Reg) (vs2 : Reg) : Statement (.vredand vm vd vs1 vs2) := fun _ => .inl rfl
theorem vredor (vm : Bool) (vd : Reg) (vs1 : Reg) (vs2 : Reg) : Statement (.vredor vm vd vs1 vs2) := fun _ => .inl rfl
theorem vredxor (vm : Bool) (vd : Reg) (vs1 : Reg) (vs2 : Reg) : Statement (.vredxor vm vd vs1 vs2) := fun _ => .inl rfl
theorem vfredsum (alt : Bool) (vm : Bool) (vd : Reg) (vs1 : Reg) (vs2 : Reg) : Statement (.vfredsum alt vm vd vs1 vs2) := fun _ => .inl rfl
theorem vfredosum (alt : Bool) (vm : Bool) (vd : Reg) (vs1 : Reg) (vs2 : Reg) : Statement (.vfredosum alt vm vd vs1 vs2) := fun _ => .inl rfl
theorem vfredmin (alt : Bool) (vm : Bool) (vd : Reg) (vs1 : Reg) (vs2 : Reg) : Statement (.vfredmin alt vm vd vs1 vs2) := fun _ => .inl rfl
theorem vfredmax (alt : Bool) (vm : Bool) (vd : Reg) (vs1 : Reg) (vs2 : Reg) : Statement (.vfredmax alt vm vd vs1 vs2) := fun _ => .inl rfl
theorem vslideup (k : VKind) (vm : Bool) (vd : Reg) (s1 : Reg) (vs2 : Reg) : Statement (.vslideup k vm vd s1 vs2) := fun _ => .inl rfl
theorem vslidedn (k : VKind) (vm : Bool) (vd : Reg) (s1 : Reg) (vs2 : Reg) : Statement (.vslidedn k vm vd s1 vs2) := fun _ => .inl rfl
theorem vslide1up (k : VKind) (vm : Bool) (vd : Reg) (s1 : Reg) (vs2 : Reg) : Statement (.vslide1up k vm vd s1 vs2) := fun _ => .inl rfl
theorem vslide1dn (k : VKind) (vm : Bool) (vd : Reg) (s1 : Reg) (vs2 : Reg) : Statement (.vslide1dn k vm vd s1 vs2) := fun _ => .inl rfl
theorem vgather (k : VKind) (vm : Bool) (vd : Reg) (s1 : Reg) (vs2 : Reg) : Statement (.vgather k vm vd s1 vs2) := fun _ => .inl rfl
theorem vcompress (vd : Reg) (vs1 : Reg) (vs2 : Reg) : Statement (.vcompress vd vs1 vs2) := fun _ => .inl rfl
theorem vrotl (k : VKind) (vm : Bool) (vd : Reg) (s1 : Reg) (vs2 : Reg) : Statement (.vrotl k vm vd s1 vs2) := fun _ => .inl rfl
theorem vmvxs (vm : Bool) (rd : Reg) (vs2 : Reg) : Statement (.vmvxs vm rd vs2) := fun _ => .inl rfl
theorem vmvsx (vm : Bool) (vd : Reg) (rs1 : Reg) : Statement (.vmvsx vm vd rs1) := fun _ => .inl rfl
theorem vxq (vm : Bool) (vd : Reg) (vs2 : Reg) : Statement (.vxq vm vd vs2) := fun _ => .inl rfl
theorem vxqw (vm : Bool) (vs1 : Reg) (vs2 : Reg) : Statement (.vxqw vm vs1 vs2) := fun _ => .inl rfl
theorem vscan (op : ScanOp) (vm : Bool) (vd : Reg) (vs1 : Reg) (vs2 : Reg) : Statement (.vscan op vm vd vs1 vs2) := fun _ => .inl rfl
theorem vmand (vd : Reg) (vs1 : Reg) (vs2 : Reg) : Statement (.vmand vd vs1 vs2) := fun _ => .inl rfl
theorem vmor (vd : Reg) (vs1 : Reg) (vs2 : Reg) : Statement (.vmor vd vs1 vs2) := fun _ => .inl rfl
theorem vmxor (vd : Reg) (vs1 : Reg) (vs2 : Reg) : Statement (.vmxor vd vs1 vs2) := fun _ => .inl rfl
theorem vmandn (vd : Reg) (vs1 : Reg) (vs2 : Reg) : Statement (.vmandn vd vs1 vs2) := fun _ => .inl rfl
theorem vmnand (vd : Reg) (vs1 : Reg) (vs2 : Reg) : Statement (.vmnand vd vs1 vs2) := fun _ => .inl rfl
theorem vmpop (vm : Bool) (rd : Reg) (vs2 : Reg) : Statement (.vmpop vm rd vs2) := fun _ => .inl rfl
theorem vmfirst (vm : Bool) (rd : Reg) (vs2 : Reg) : Statement (.vmfirst vm rd vs2) := fun _ => .inl rfl
theorem viota (vm : Bool) (vd : Reg) (vs2 : Reg) : Statement (.viota vm vd vs2) := fun _ => .inl rfl
theorem vid (vm : Bool) (vd : Reg) : Statement (.vid vm vd) := fun _ => .inl rfl
theorem vle (eew : Eew) (hint : Hint) (vm : Bool) (vd : Reg) (rs1 : Reg) : Statement (.vle eew hint vm vd rs1) := fun _ => .inl rfl
theorem vlse (eew : Eew) (hint : Hint) (vm : Bool) (vd : Reg) (rs1 : Reg) (rs2 : Reg) : Statement (.vlse eew hint vm vd rs1 rs2) := fun _ => .inl rfl
theorem vlxe (eew : Eew) (hint : Hint) (vm : Bool) (vd : Reg) (rs1 : Reg) (vs2 : Reg) : Statement (.vlxe eew hint vm vd rs1 vs2) := fun _ => .inl rfl
theorem vleff (eew : Eew) (hint : Hint) (vm : Bool) (vd : Reg) (rs1 : Reg) : Statement (.vleff eew hint vm vd rs1) := fun _ => .inl rfl
theorem vlsc (eew : Eew) (hint : Hint) (vm : Bool) (vd : Reg) (rs1 : Reg) (rs2 : Reg) : Statement (.vlsc eew hint vm vd rs1 rs2) := fun _ => .inl rfl
theorem vse (eew : Eew) (hint : Hint) (vm : Bool) (vs3 : Reg) (rs1 : Reg) : Statement (.vse eew hint vm vs3 rs1) := fun _ => .inl rfl
theorem vsse (eew : Eew) (hint : Hint) (vm : Bool) (vs3 : Reg) (rs1 : Reg) (rs2 : Reg) : Statement (.vsse eew hint vm vs3 rs1 rs2) := fun _ => .inl rfl
theorem vsxe (eew : Eew) (hint : Hint) (vm : Bool) (vs3 : Reg) (rs1 : Reg) (vs2 : Reg) : Statement (.vsxe eew hint vm vs3 rs1 vs2) := fun _ => .inl rfl
theorem vssc (eew : Eew) (hint : Hint) (vm : Bool) (vs3 : Reg) (rs1 : Reg) (rs2 : Reg) : Statement (.vssc eew hint vm vs3 rs1 rs2) := fun _ => .inl rfl
theorem vamo (op : AmoOp) (order : Order) (width : AWidth) (vm : Bool) (vd : Reg) (rs1 : Reg) (vs2 : Reg) : Statement (.vamo op order width vm vd rs1 vs2) := fun _ => .inl rfl
theorem vwait (c : WCond) (order : Order) (width : AWidth) (vm : Bool) (vd : Reg) (rs1 : Reg) (vs2 : Reg) : Statement (.vwait c order width vm vd rs1 vs2) := fun _ => .inl rfl
theorem vrrs (op : RrsOp) (order : Order) (width : AWidth) (vm : Bool) (vd : Reg) (rs1 : Reg) (vs2 : Reg) : Statement (.vrrs op order width vm vd rs1 vs2) := fun _ => .inl rfl
theorem lbr (c : LCond) (ra : Reg) (rb : Reg) (off : BitVec 13) : Statement (.lbr c ra rb off) := fun _ => .inl rfl
theorem vsplit (va : Reg) (off : BitVec 13) : Statement (.vsplit va off) := fun _ => .inl rfl
theorem vjoin : Statement .vjoin := fun _ => .inl rfl
theorem mzero (ac : Acc) : Statement (.mzero ac) := fun _ => .inl rfl
theorem mhold (ty : Ty) (vm : Bool) (vs1 : Reg) (vs2 : Reg) : Statement (.mhold ty vm vs1 vs2) := fun _ => .inl rfl
theorem mop (ty : Ty) (vm : Bool) (ac : Acc) (vs1 : Reg) (vs2 : Reg) : Statement (.mop ty vm ac vs1 vs2) := fun _ => .inl rfl
theorem mops (ty : Ty) (vm : Bool) (ac : Acc) (vs1 : Reg) (vs2 : Reg) : Statement (.mops ty vm ac vs1 vs2) := fun _ => .inl rfl
theorem mhmul (ty : Ty) (vm : Bool) (ac : Acc) (vs1 : Reg) : Statement (.mhmul ty vm ac vs1) := fun _ => .inl rfl
theorem mrd (vm : Bool) (ac : Acc) (vd : Reg) (rs1 : Reg) : Statement (.mrd vm ac vd rs1) := fun _ => .inl rfl
theorem mwr (vm : Bool) (ac : Acc) (vd : Reg) (rs1 : Reg) : Statement (.mwr vm ac vd rs1) := fun _ => .inl rfl
theorem tdef (tn : TName) (ra : Reg) : Statement (.tdef tn ra) := fun _ => .inl rfl
theorem tshape (ra : Reg) : Statement (.tshape ra) := fun _ => .inl rfl
theorem tfree (tn : TName) : Statement (.tfree tn) := fun _ => .inl rfl
theorem twait (tn : TName) (ra : Reg) (g : BitVec 2) : Statement (.twait tn ra g) := fun _ => .inl rfl
theorem tchk (tn : TName) (ra : Reg) (g : BitVec 2) : Statement (.tchk tn ra g) := fun _ => .inl rfl
theorem tacq (tn : TName) (va : Reg) : Statement (.tacq tn va) := fun _ => .inl rfl
theorem tsignal (ra : Reg) (rb : Reg) : Statement (.tsignal ra rb) := fun _ => .inl rfl
theorem tsignalAdd (ra : Reg) (rb : Reg) : Statement (.tsignalAdd ra rb) := fun _ => .inl rfl
theorem tbar (ra : Reg) (b : BitVec 4) : Statement (.tbar ra b) := fun _ => .inl rfl
theorem tend : Statement .tend := fun _ => .inl rfl
theorem tlaunch (ra : Reg) (rb : Reg) : Statement (.tlaunch ra rb) := fun _ => .inl rfl
theorem tld (hint : Hint) (ev : Bool) (ty : Ty) (td : TName) (ra : Reg) (rb : Reg) : Statement (.tld hint ev ty td ra rb) := fun _ => .inr rfl
theorem tldPb (hint : Hint) (ev : Bool) (td : TName) (ra : Reg) (gen : BitVec 16) : Statement (.tldPb hint ev td ra gen) := fun _ => .inr rfl
theorem tst (hint : Hint) (ev : Bool) (ty : Ty) (ta : TName) (ra : Reg) (rb : Reg) : Statement (.tst hint ev ty ta ra rb) := fun _ => .inr rfl
theorem tstPb (hint : Hint) (ev : Bool) (ta : TName) (ra : Reg) (gen : BitVec 16) : Statement (.tstPb hint ev ta ra gen) := fun _ => .inr rfl
theorem tcpy (ev : Bool) (td : TName) (ta : TName) : Statement (.tcpy ev td ta) := fun _ => .inr rfl
theorem tcpyPb (hint : Hint) (ev : Bool) (ra : Reg) (gen : BitVec 16) : Statement (.tcpyPb hint ev ra gen) := fun _ => .inr rfl
theorem tzero (ev : Bool) (td : TName) : Statement (.tzero ev td) := fun _ => .inr rfl
theorem tcoll (hint : Hint) (ev : Bool) (op : CollOp) (td : TName) (ta : TName) (ra : Reg) (rb : Reg) : Statement (.tcoll hint ev op td ta ra rb) := fun _ => .inr rfl
theorem tmma (z : Bool) (out : Bool) (ac : Acc) (td : TName) (ta : TName) (tb : TName) : Statement (.tmma z out ac td ta tb) := fun _ => .inr rfl
theorem tmmas (z : Bool) (out : Bool) (ac : Acc) (td : TName) (ta : TName) (tb : TName) : Statement (.tmmas z out ac td ta tb) := fun _ => .inr rfl
theorem tmmv (z : Bool) (out : Bool) (ac : Acc) (td : TName) (ta : TName) (tb : TName) : Statement (.tmmv z out ac td ta tb) := fun _ => .inr rfl
theorem tmap (len : BitVec 8) (two : Bool) (td : TName) (ta : TName) (tb : TName) (ra : Reg) (rb : Reg) : Statement (.tmap len two td ta tb ra rb) := fun _ => .inr rfl
theorem tred (len : BitVec 8) (two : Bool) (td : TName) (ta : TName) (tb : TName) (ra : Reg) (rb : Reg) : Statement (.tred len two td ta tb ra rb) := fun _ => .inr rfl
theorem tsend (ta : TName) (ra : Reg) (rb : Reg) (c : BitVec 4) : Statement (.tsend ta ra rb c) := fun _ => .inr rfl
theorem trecv (td : TName) (ra : Reg) (c : BitVec 4) : Statement (.trecv td ra c) := fun _ => .inr rfl
theorem tdiscard (ra : Reg) (rb : Reg) : Statement (.tdiscard ra rb) := fun _ => .inr rfl
theorem fbias (flush : Bool) (ra : Reg) (rb : Reg) (tag : BitVec 16) : Statement (.fbias flush ra rb tag) := fun _ => .inr rfl
theorem fstat (ra : Reg) (sel : BitVec 2) : Statement (.fstat ra sel) := fun _ => .inr rfl
theorem launchQueueEnable (q : QId) : Statement (.launchQueueEnable q) := fun h => Bool.noConfusion h
theorem launchQueueDisable (q : QId) : Statement (.launchQueueDisable q) := fun h => Bool.noConfusion h
theorem tailWordNotice (q : QId) : Statement (.tailWordNotice q) := fun h => Bool.noConfusion h
theorem launchRecordConsume (q : QId) : Statement (.launchRecordConsume q) := fun h => Bool.noConfusion h
theorem launchCompletion (q : QId) : Statement (.launchCompletion q) := fun h => Bool.noConfusion h
theorem completionHeadAdvance (q : QId) (head : Word) : Statement (.completionHeadAdvance q head) := fun h => Bool.noConfusion h
theorem dispatchPlace (q : QId) (number : BitVec 32) (k : ClusterId) : Statement (.dispatchPlace q number k) := fun h => Bool.noConfusion h
theorem agingTick (t : AgeTarget) : Statement (.agingTick t) := fun h => Bool.noConfusion h
theorem preemptSend (q : QId) (number : BitVec 32) : Statement (.preemptSend q number) := fun h => Bool.noConfusion h
theorem eventRecordPost (k : ClusterId) : Statement (.eventRecordPost k) := fun h => Bool.noConfusion h
theorem stewardPlacement (k : ClusterId) : Statement (.stewardPlacement k) := fun h => Bool.noConfusion h
theorem stewardPreempt (k : ClusterId) : Statement (.stewardPreempt k) := fun h => Bool.noConfusion h
theorem parkTimeout (sl : SlotId) : Statement (.parkTimeout sl) := fun h => Bool.noConfusion h
theorem stewardReplay (k : ClusterId) : Statement (.stewardReplay k) := fun h => Bool.noConfusion h
theorem stewardTlaunch (k : ClusterId) : Statement (.stewardTlaunch k) := fun h => Bool.noConfusion h
theorem stewardFence (k : ClusterId) : Statement (.stewardFence k) := fun h => Bool.noConfusion h
theorem evictionComplete (sl : SlotId) : Statement (.evictionComplete sl) := fun h => Bool.noConfusion h
theorem evwaitTimeout (k : ClusterId) : Statement (.evwaitTimeout k) := fun h => Bool.noConfusion h
theorem vwaitTimeout (sl : SlotId) : Statement (.vwaitTimeout sl) := fun h => Bool.noConfusion h
theorem tileCommit (sl : SlotId) : Statement (.tileCommit sl) := fun h => Bool.noConfusion h
theorem roomAllocate (sl : SlotId) : Statement (.roomAllocate sl) := fun h => Bool.noConfusion h
theorem instanceRelease (sl : SlotId) : Statement (.instanceRelease sl) := fun h => Bool.noConfusion h
theorem branchMispredictSquash (sl : SlotId) : Statement (.branchMispredictSquash sl) := fun h => Bool.noConfusion h
theorem microOpIssue (core : CoreId) (eng : Engine) : Statement (.microOpIssue core eng) := fun h => Bool.noConfusion h
theorem chunkComplete (k : ClusterId) (cmd : Nat) (chunk : Nat) : Statement (.chunkComplete k cmd chunk) := fun h => Bool.noConfusion h
theorem failedWriteRecord (sl : SlotId) (f : FailedWrite) : Statement (.failedWriteRecord sl f) := fun h => Bool.noConfusion h
theorem storeAck (slice : SliceId) : Statement (.storeAck slice) := fun h => Bool.noConfusion h
theorem loadReply (slice : SliceId) : Statement (.loadReply slice) := fun h => Bool.noConfusion h
theorem requestResend (slice : SliceId) (src : Nat) (seq : BitVec 16) : Statement (.requestResend slice src seq) := fun h => Bool.noConfusion h
theorem pathReport (slice : SliceId) (src : Nat) (seq : BitVec 16) (failed : Option UnitCode) : Statement (.pathReport slice src seq failed) := fun h => Bool.noConfusion h
theorem sliceRequestAdmit (slice : SliceId) (r : Request) : Statement (.sliceRequestAdmit slice r) := fun h => Bool.noConfusion h
theorem columnLineFill (slice : SliceId) (line : Nat) : Statement (.columnLineFill slice line) := fun h => Bool.noConfusion h
theorem watchNotice : Statement .watchNotice := fun h => absurd h (by decide)
theorem watchPoll (w : Watcher) : Statement (.watchPoll w) := fun h => Bool.noConfusion h
theorem windowPortAccess (a : WinAccess) : Statement (.windowPortAccess a) := fun h => Bool.noConfusion h
theorem denNaming (sl : SlotId) (v : Reg) : Statement (.denNaming sl v) := fun h => Bool.noConfusion h
theorem bisnpResponse (line : Nat) (data : Option (BitVec 512)) : Statement (.bisnpResponse line data) := fun h => Bool.noConfusion h
theorem snoopTimeout (line : Nat) : Statement (.snoopTimeout line) := fun h => Bool.noConfusion h
theorem hostMemRequest (p : Bool) (r : HostReq) : Statement (.hostMemRequest p r) := fun h => Bool.noConfusion h
theorem hostCacheSnoop (p : Bool) (line : Nat) : Statement (.hostCacheSnoop p line) := fun h => Bool.noConfusion h
theorem hostLineGrant (p : Bool) (line : Nat) (grant : LineGrant) : Statement (.hostLineGrant p line grant) := fun h => Bool.noConfusion h
theorem baseRead (b : BaseId) (r : BaseReq) : Statement (.baseRead b r) := fun h => Bool.noConfusion h
theorem baseWrite (b : BaseId) (r : BaseReq) : Statement (.baseWrite b r) := fun h => Bool.noConfusion h
theorem baseDiscard (b : BaseId) (r : BaseReq) : Statement (.baseDiscard b r) := fun h => Bool.noConfusion h
theorem baseSector (b : BaseId) (tag : Nat) (stripe : Nat) (col : BitVec 4) : Statement (.baseSector b tag stripe col) := fun h => Bool.noConfusion h
theorem baseCompletion (b : BaseId) : Statement (.baseCompletion b) := fun h => Bool.noConfusion h
theorem sectorDecodeDone (b : BaseId) : Statement (.sectorDecodeDone b) := fun h => Bool.noConfusion h
theorem settleGo (die : Bool) (v : Word) : Statement (.settleGo die v) := fun h => Bool.noConfusion h
theorem settleComplete (die : Bool) : Statement (.settleComplete die) := fun h => Bool.noConfusion h
theorem acctlClear (b : BaseId) : Statement (.acctlClear b) := fun h => Bool.noConfusion h
theorem acdumpGo (b : BaseId) : Statement (.acdumpGo b) := fun h => Bool.noConfusion h
theorem acdumpComplete (b : BaseId) : Statement (.acdumpComplete b) := fun h => Bool.noConfusion h
theorem hacctlClear (p : Bool) : Statement (.hacctlClear p) := fun h => Bool.noConfusion h
theorem hacdumpGo (p : Bool) : Statement (.hacdumpGo p) := fun h => Bool.noConfusion h
theorem hacdumpComplete (p : Bool) : Statement (.hacdumpComplete p) := fun h => Bool.noConfusion h
theorem fctlWrite (v : Word) : Statement (.fctlWrite v) := fun h => Bool.noConfusion h
theorem ferryTurnStart : Statement .ferryTurnStart := fun h => absurd h (by decide)
theorem ferryDrainEnd : Statement .ferryDrainEnd := fun h => absurd h (by decide)
theorem ferryQuietEnd : Statement .ferryQuietEnd := fun h => absurd h (by decide)
theorem ferryCheckEnd (ok : Bool) : Statement (.ferryCheckEnd ok) := fun h => Bool.noConfusion h
theorem planEntryExpire : Statement .planEntryExpire := fun h => absurd h (by decide)
theorem flitReceive (c : XingId) (f : Flit) : Statement (.flitReceive c f) := fun h => Bool.noConfusion h
theorem flitReplayTimeout (c : XingId) : Statement (.flitReplayTimeout c) := fun h => Bool.noConfusion h
theorem laneLockLoss (c : XingId) : Statement (.laneLockLoss c) := fun h => Bool.noConfusion h
theorem drainTimeout : Statement .drainTimeout := fun h => absurd h (by decide)
theorem retrainEnd (c : XingId) (bad : Nat) : Statement (.retrainEnd c bad) := fun h => Bool.noConfusion h
theorem crossroadsSlot (k : ClusterId) : Statement (.crossroadsSlot k) := fun h => Bool.noConfusion h
theorem remoteChunkRequest (k : ClusterId) (r : RemoteReq) : Statement (.remoteChunkRequest k r) := fun h => Bool.noConfusion h
theorem porterCommandStart (k : ClusterId) (cmd : Nat) : Statement (.porterCommandStart k cmd) := fun h => Bool.noConfusion h
theorem copyComplete (k : ClusterId) (cmd : Nat) : Statement (.copyComplete k cmd) := fun h => Bool.noConfusion h
theorem streamRefill (sl : SlotId) (kq : BitVec 3) : Statement (.streamRefill sl kq) := fun h => Bool.noConfusion h
theorem streamInboundWrite (a : WinAccess) : Statement (.streamInboundWrite a) := fun h => Bool.noConfusion h
theorem pctlWrite (k : ClusterId) (v : Word) : Statement (.pctlWrite k v) := fun h => Bool.noConfusion h
theorem porterWatchdog (k : ClusterId) : Statement (.porterWatchdog k) := fun h => Bool.noConfusion h
theorem porterFirmwareTrap (k : ClusterId) : Statement (.porterFirmwareTrap k) := fun h => Bool.noConfusion h
theorem icacheFill (core : CoreId) (f : LineFill) : Statement (.icacheFill core f) := fun h => Bool.noConfusion h
theorem pageWalkStart (die : Bool) (w : WalkReq) : Statement (.pageWalkStart die w) := fun h => Bool.noConfusion h
theorem pageWalkEntryRead (die : Bool) (n : Nat) : Statement (.pageWalkEntryRead die n) := fun h => Bool.noConfusion h
theorem bar0Access (p : Bool) (r : HostReq) : Statement (.bar0Access p r) := fun h => Bool.noConfusion h
theorem driverQueueEnable (d : DriverQ) : Statement (.driverQueueEnable d) := fun h => Bool.noConfusion h
theorem faultQueueHeadAdvance (head : Word) : Statement (.faultQueueHeadAdvance head) := fun h => Bool.noConfusion h
theorem replayCommandRetry : Statement .replayCommandRetry := fun h => absurd h (by decide)
theorem replayCommandAbort : Statement .replayCommandAbort := fun h => absurd h (by decide)
theorem invalidationCommand : Statement .invalidationCommand := fun h => absurd h (by decide)
theorem invalidationDone (k : ClusterId) : Statement (.invalidationDone k) := fun h => Bool.noConfusion h
theorem hostLinkRetrain (p : Bool) : Statement (.hostLinkRetrain p) := fun h => Bool.noConfusion h
theorem hostLinkDown (p : Bool) : Statement (.hostLinkDown p) := fun h => Bool.noConfusion h
theorem linkDownTimeout (p : Bool) : Statement (.linkDownTimeout p) := fun h => Bool.noConfusion h
theorem stewardServiceTimeout (k : ClusterId) : Statement (.stewardServiceTimeout k) := fun h => Bool.noConfusion h
theorem unitFence (u : UnitCode) (why : BitVec 8) : Statement (.unitFence u why) := fun h => Bool.noConfusion h
theorem hresetWarm : Statement .hresetWarm := fun h => absurd h (by decide)
theorem functionLevelReset : Statement .functionLevelReset := fun h => absurd h (by decide)
theorem warmResetComplete : Statement .warmResetComplete := fun h => absurd h (by decide)
theorem coldReset (boot : Bundle) : Statement (.coldReset boot) := fun h => Bool.noConfusion h
theorem hretireWrite (v : Word) : Statement (.hretireWrite v) := fun h => Bool.noConfusion h
theorem healthLogEnable : Statement .healthLogEnable := fun h => absurd h (by decide)
theorem thermalThrottle (junction : BitVec 8) (watts : BitVec 11) : Statement (.thermalThrottle junction watts) := fun h => Bool.noConfusion h
theorem thermalShutdown : Statement .thermalShutdown := fun h => absurd h (by decide)
theorem spdmGetMeasurements : Statement .spdmGetMeasurements := fun h => absurd h (by decide)
theorem registerWrite (off : BitVec 21) (v : Word) : Statement (.registerWrite off v) := fun h => Bool.noConfusion h
theorem reservedEncoding (w : BitVec 32) (w2 : BitVec 32) : Statement (.reservedEncoding w w2) := fun h => Bool.noConfusion h
theorem hostLinkUp (p : Bool) (rate : BitVec 2) (width : BitVec 2) : Statement (.hostLinkUp p rate width) := fun h => Bool.noConfusion h
theorem powerLoss : Statement .powerLoss := fun h => absurd h (by decide)
theorem dispatcherOrHealthFault : Statement .dispatcherOrHealthFault := fun h => absurd h (by decide)
theorem porterDatapathPrimitive (k : ClusterId) (cmd : Nat) (prim : Primitive) : Statement (.porterDatapathPrimitive k cmd prim) := fun h => Bool.noConfusion h
theorem thermalThrottleEnd (junction : BitVec 8) (watts : BitVec 11) : Statement (.thermalThrottleEnd junction watts) := fun h => Bool.noConfusion h

end Sys2Proof.Laws.Form
end

