-- ==== Sys2Proof/Laws/Schedule.lean ====
section
/-! SUPPORT. What follows every step: the launch journal writes where a step has changed what it keeps, and nowhere else. -/
namespace Sys2Proof.Machine

/-- With no journal nothing is written (R500). -/
theorem State.journal_off {s was : State} (h : s.health.jValid = false) : s.journal was = s := by simp [State.journal, h]

/-- A step that has changed nothing the journal keeps writes nothing (R500). -/
theorem State.journal_same {s was : State} (h : s.journaled = was.journaled) : s.journal was = s := by
  simp [State.journal, h]

/-- A step is followed by what follows every step, and ends as it ends. -/
theorem thenNext_next {was s : State} : thenNext was (.next s) = .next (s.afterStep was) := rfl

end Sys2Proof.Machine
end

