-- ==== Sys2Proof/Tests/Slice0.lean ====
section
/-! SUPPORT. Tests: words written out from the encodings of the spec and what they decode to, ill-formed terms that
WellFormed refuses, single steps whose results were worked out by hand from the rules, and for every obligation with
hypotheses a state and operands that meet them (witness_*). -/
namespace Sys2Proof.Tests
open Sys2Proof Sys2Proof.Machine
-- One theorem after another: many at once ask for more memory than a check has.
set_option Elab.async false

/-- A readable and writable page of die E: 0x2000 at 0x200000. -/
def dataEntry : TlbEntry :=
  { ctx := 0, base := 0x2000, size := 12, pa := 0x200000, pte := 0x00C000000000005B, ptePA := 0, level := 1 }

/-- A block in slot 0 of core 0 at 0x1000, with a data page and the given x registers and context of its slot. -/
def blk (xs : List (Fin 32 × Word)) (f : Slot → Slot := id) : State :=
  let s := (State.reset.withFetchWord 32 0).modCore 0 fun c => { c with dtlb := [dataEntry] }
  s.modSlot 0 fun x => f { x with hart := { x.hart with x := xs.foldl (fun v e => v.set e.1 e.2) x.hart.x, sett := 0 } }

/-- What a run of the model answers. -/
def okWith {ε α : Type} (r : EStateM.Result ε State α) (p : α → State → Bool) : Bool :=
  match r with
  | .ok a t => p a t
  | .error .. => false

/-! ### Which terms have an encoding: one ill-formed term per condition of the tables -/

theorem smoke_fcvt_from_its_own_format : (Instr.fcvtToFloat .f32 .dyn .f32 1 2).wf = false := by decide
theorem smoke_fcvt_from_a_narrow_integer : (Instr.fcvtToFloat .f32 .dyn .n8 1 2).wf = false := by decide
theorem smoke_fcvt_to_a_narrow_integer : (Instr.fcvtToInt .f32 .dyn .i16 1 2).wf = false := by decide
theorem smoke_scope_without_an_order : (Instr.amo .add .none .w64 .dev 1 2 3).wf = false := by decide
theorem smoke_cas_scope_without_an_order : (Instr.cas .none .w64 .sys 1 2 3).wf = false := by decide
theorem smoke_cas2_scope_without_an_order : (Instr.cas2 .none .clu 2 3 4).wf = false := by decide
theorem smoke_jump_table_of_no_words : (Instr.jtW 1 2 0).wf = false := by decide
theorem smoke_jump_table_too_long : (Instr.jtW 1 2 4096).wf = false ∧ (Instr.jtW 1 2 4095).wf = true := by decide
theorem smoke_odd_table_of_doublewords : (Instr.jtD 1 2 3).wf = false := by decide
theorem smoke_widf_level : (Instr.widf 1 2 6).wf = false ∧ (Instr.widf 1 2 5).wf = true := by decide
theorem smoke_reserved_vtype : (Instr.vsetvli 1 2 0x04).wf = false ∧ (Instr.vsetvli 1 2 0x20).wf = false := by decide
theorem smoke_vadd_kind : (Instr.vadd .vf false 1 2 3).wf = false := by decide
theorem smoke_vsub_kind : (Instr.vsub .vi false 1 2 3).wf = false := by decide
theorem smoke_vrsub_kind : (Instr.vrsub .vv false 1 2 3).wf = false := by decide
theorem smoke_vfadd_kind : (Instr.vfadd .vx false false 1 2 3).wf = false := by decide
theorem smoke_slide1_kind : (Instr.vslide1up .vi false 1 2 3).wf = false := by decide
theorem smoke_mop_type : (Instr.mop .i8 false 0 1 2).wf = false := by decide
theorem smoke_mops_of_lg6 : (Instr.mops .lg6 false 0 1 2).wf = false := by decide
theorem smoke_mhold_scales : (Instr.mhold .f16 false 1 2).wf = false ∧ (Instr.mhold .f16 false 1 0).wf = true := by decide
theorem smoke_twait_group : (Instr.twait 1 0 2).wf = false := by decide
theorem smoke_tmma_without_destination : (Instr.tmma false false 0 1 2 3).wf = false := by decide
theorem smoke_tmap_of_one_operand : (Instr.tmap 8 false 1 2 3 4 5).wf = false := by decide
theorem smoke_step_of_an_agent : Instr.ferryTurnStart.wf = false := by decide

/-! ### Decoding: words written out field by field from spec/03_formats_opcode_map.md, major first -/

-- R: rd 3, rs1 4, rs2 5, func11 1 (SUB)
theorem test_decode_integer : decodeWords 0b000001_00011_00100_00101_00000000001 0 = .ok (.sub 3 4 5) := by rfl
-- I: rd 0, rs1 0, imm16 0 (ADDI)
theorem test_decode_immediate : decodeWords 0b000010_00000_00000_0000000000000000 0 = .ok (.addi 0 0 0) := by rfl
-- I: rd 7, rs1 8, operation 2 (SRAI), shamt 63
theorem test_decode_shift : decodeWords 0b000110_00111_01000_0010_000000_111111 0 = .ok (.srai 7 8 63) := by rfl
-- U: rd 31, imm21 -1
theorem test_decode_lui : decodeWords 0b001000_11111_111111111111111111111 0 = .ok (.lui 31 (-1)) := by rfl
-- R: fop 3 (FDIV), rm 7 (dynamic), fmt 3 (f64)
theorem test_decode_float : decodeWords 0b001010_00001_00010_00011_00011_111_011 0 = .ok (.fdiv .f64 .dyn 1 2 3) := by rfl
-- R: func11 0x00B (REMN)
theorem test_decode_divide : decodeWords 0b001011_00001_00010_00011_00000001011 0 = .ok (.remn 1 2 3) := by rfl
-- M: rd 5, rs1 2, size 6 (32-bit, zero-extended), imm13 -8
theorem test_decode_load : decodeWords 0b001100_00101_00010_110_1111111111000 0 = .ok (.ld .n32 5 2 (-8)) := by rfl
-- M: data register 9, rs1 2, size 3, imm13 16
theorem test_decode_store : decodeWords 0b001101_01001_00010_011_0000000010000 0 = .ok (.st .b64 9 2 16) := by rfl
-- R: aop 9 (CAS), order 3 (ar), width 1 (64-bit), scope 5 (sys)
theorem test_decode_atomic : decodeWords 0b001110_00001_00010_00011_1001_11_01_101 0 = .ok (.cas .ar .w64 .sys 1 2 3) := by rfl
-- I: operation 0 (FENCE), kind 2 (rel), scope 2 (clu)
theorem test_decode_fence : decodeWords 0b001111_00000_00000_0000_10_010_0000000 0 = .ok (.fence .rel .clu) := by rfl
-- B: rs1 1, rs2 2, cond 5 (BGEN), offset13 -1
theorem test_decode_branch : decodeWords 0b010000_00001_00010_101_1111111111111 0 = .ok (.bgen 1 2 (-1)) := by rfl
-- J: rd 1, imm21 2
theorem test_decode_jump : decodeWords 0b010001_00001_000000000000000000010 0 = .ok (.jal 1 2) := by rfl
-- B: count 10, step 11, cond 0, offset13 -8 (BSTRIP)
theorem test_decode_strip : decodeWords 0b010100_01010_01011_000_1111111111000 0 = .ok (.bstrip 10 11 (-8)) := by rfl
-- R: func11 4 (WIDF), level 5
theorem test_decode_system : decodeWords 0b010101_00001_00010_00101_00000000100 0 = .ok (.widf 1 2 5) := by rfl
-- I: operation 1 (CTLW), control register 0x030
theorem test_decode_control : decodeWords 0b010110_00101_00110_01_00_000000110000 0 = .ok (.ctlw 5 6 0x30) := by rfl
-- R: func11 3 (SLOTEVICT)
theorem test_decode_steward : decodeWords 0b010111_00001_00010_00011_00000000011 0 = .ok (.slotevict 1 2 3) := by rfl
-- VC: rd 5, rs1 10, cop 0, vtype: vlmul 1, vsew 2
theorem test_decode_vsetvli : decodeWords 0b011100_00101_01010_00_00000000_010_001 0 = .ok (.vsetvli 5 10 0x11) := by rfl
-- V: vd 8, vs1 24, vs2 16, vm 0, funct6 0, kind vv, sub 0 (VADD under the mask)
theorem test_decode_vector : decodeWords 0b011101_01000_11000_10000_0_000000_00_00 0 = .ok (.vadd .vv false 8 24 16) := by rfl
-- V: vm 1, funct6 0x0B (VFMACC), kind vf, sub 1 (bf16)
theorem test_decode_vector_float :
    decodeWords 0b011110_01000_00111_10000_1_001011_11_01 0 = .ok (.vfmacc .vf true true 8 7 16) := by rfl
-- V: funct6 1 (VLDOT)
theorem test_decode_log : decodeWords 0b011111_01000_00100_10000_1_000001_00_00 0 = .ok (.vldot true 8 4 16) := by rfl
-- V: funct6 0x1E (VSCAN), sub 3 (integer minimum)
theorem test_decode_chain :
    decodeWords 0b100000_01000_00100_10000_1_011110_00_11 0 = .ok (.vscan .min true 8 4 16) := by rfl
-- V: funct6 0x0A (VIOTA), vs1 0
theorem test_decode_mask : decodeWords 0b100001_01000_00000_10000_0_001010_00_00 0 = .ok (.viota false 8 16) := by rfl
-- V: stride register 12, mop 1, eew 2, hint 1 (VLSE)
theorem test_decode_vector_load :
    decodeWords 0b100010_01000_01011_01100_0_001_010_00_01 0 = .ok (.vlse .e32 .noalloc false 8 11 12) := by rfl
-- V: index vector 6, mop 2, eew 3 (VSXE)
theorem test_decode_vector_store :
    decodeWords 0b100011_01000_01011_00110_1_010_011_00_00 0 = .ok (.vsxe .e64 .normal true 8 11 6) := by rfl
-- V: class 2 (VRRS), op 5, eew 0, ordering 2
theorem test_decode_vector_atomic :
    decodeWords 0b100100_01000_01011_00110_1_10_0101_00_10 0 = .ok (.vrrs .fmax .rel .w32 true 8 11 6) := by rfl
-- LT: mask 1, lop 6 (VSPLIT), offset13 12
theorem test_decode_lane_thread : decodeWords 0b100101_00001_00000_110_0000000001100 0 = .ok (.vsplit 1 12) := by rfl
-- V: accumulator 1, activations 2, funct6 4 (MHMUL), type 11 (f32)
theorem test_decode_matrix : decodeWords 0b100110_00001_00010_00000_1_000100_1011 0 = .ok (.mhmul .f32 true 1 2) := by rfl
-- long: lop 0x04 (TZERO); td 5
theorem test_decode_tile :
    decodeWords 0b111111_000100_00000_00000_0000000000 0b0101_0000_0000_0000_0000000000000000 = .ok (.tzero false 5) := by rfl
-- TS: top 2 (TFREE), tn 5
theorem test_decode_short_tile : decodeWords 0b111110_0010_0101_00000_00000_00000000 0 = .ok (.tfree 5) := by rfl
-- TS: top 6 (TSIGNAL), ra 10, rb 11
theorem test_decode_signal : decodeWords 0b111110_0110_0000_01010_01011_00000000 0 = .ok (.tsignal 10 11) := by rfl
-- the word of zeros is reserved (R68), and so is a nonzero field where the table says 0: CLZ with rs2 1
theorem test_decode_reserved :
    (match decodeWords 0 0, decodeWords 0b000001_00001_00010_00001_00000010100 0 with
      | .error _, .error _ => true | _, _ => false) = true := by rfl

/-! ### One step of one instruction on a small state -/

/-- What an instruction leaves on a state, where it goes on. -/
def after (i : Instr) (s : State) (p : State → Bool) : Bool :=
  match exec i s with
  | .next t => p t
  | _ => false

/-- The value of an integer instruction's rd 3 with operands in x1 and x2. -/
def rd3 (i : Instr) (a b v : Word) : Bool := after i (blk [(1, a), (2, b)]) fun t => t.getX 3 == v && t.pc == 0x1004

theorem test_add_wraps : rd3 (.add 3 1 2) (-1) 2 1 = true := by decide +kernel
theorem test_sub_order : rd3 (.sub 3 1 2) 5 7 (-2) = true := by decide +kernel
theorem test_andn_order : rd3 (.andn 3 1 2) 0b1100 0b1010 0b0100 = true := by decide +kernel
theorem test_sll_low_six_bits : rd3 (.sll 3 1 2) 3 65 6 = true := by decide +kernel
theorem test_sra_sign : rd3 (.sra 3 1 2) (-8) 1 (-4) = true := by decide +kernel
theorem test_ror_by_zero : rd3 (.ror 3 1 2) 5 64 5 = true := by decide +kernel
theorem test_slt_signed : rd3 (.slt 3 1 2) (-1) 0 1 = true := by decide +kernel
theorem test_sltn_unsigned : rd3 (.sltn 3 1 2) (-1) 0 0 = true := by decide +kernel
theorem test_czeq_zero : rd3 (.czeq 3 1 2) 9 0 0 = true := by decide +kernel
theorem test_clz_of_zero : rd3 (.clz 3 1) 0 0 64 = true := by decide +kernel
theorem test_ctz : rd3 (.ctz 3 1) 0x100 0 8 = true := by decide +kernel
theorem test_bswap : rd3 (.bswap 3 1) 0x0102030405060708 0 0x0807060504030201 = true := by decide +kernel
theorem test_addw_sign_extends : rd3 (.addw 3 1 2) 0x7FFFFFFF 1 0xFFFFFFFF80000000 = true := by decide +kernel
theorem test_srlw_low_word : rd3 (.srlw 3 1 2) 0xFFFFFFFF80000000 31 1 = true := by decide +kernel
theorem test_andi_zero_extends : rd3 (.andi 3 1 0x8000) (-1) 0 0x8000 = true := by decide +kernel
theorem test_sltni_zero_extends : rd3 (.sltni 3 1 0x7FFF) 0x7FFE 0 1 = true := by decide +kernel
theorem test_lui_negative : rd3 (.lui 3 0x1FFFFF) 0 0 0xFFFFFFFFFFFF0000 = true := by decide +kernel
theorem test_auipc_page : rd3 (.auipc 3 1) 0 0 0x10000 = true := by decide +kernel
theorem test_mulhsn : rd3 (.mulhsn 3 1 2) (-1) 2 (-1) = true := by decide +kernel
theorem test_mulhn : rd3 (.mulhn 3 1 2) (-1) 2 1 = true := by decide +kernel
theorem test_div_by_zero : rd3 (.div 3 1 2) 7 0 (-1) = true := by decide +kernel
theorem test_div_truncates : rd3 (.div 3 1 2) (-7) 2 (-3) = true := by decide +kernel
theorem test_rem_sign : rd3 (.rem 3 1 2) (-7) 2 (-1) = true := by decide +kernel
theorem test_div_most_negative : rd3 (.div 3 1 2) 0x8000000000000000 (-1) 0x8000000000000000 = true := by decide +kernel
-- 1.5 + 2.25 = 3.75 in f32, boxed by ones above
theorem test_fadd_f32 : rd3 (.fadd .f32 .rne 3 1 2) 0xFFFFFFFF3FC00000 0xFFFFFFFF40100000 0xFFFFFFFF40700000 = true := by
  decide +kernel
-- 1/0 is infinity and raises DZ, bit 3 of fflags
theorem test_fdiv_by_zero : after (.fdiv .f64 .rne 3 1 2) (blk [(1, 0x3FF0000000000000)])
    (fun t => t.getX 3 == 0x7FF0000000000000 && t.hart.fcsr &&& 0x1F != 0) = true := by decide +kernel
-- an operand that is not boxed reads as the canonical NaN
theorem test_unboxed_is_nan : rd3 (.fclass .f32 3 1) 0x3FC00000 0 0x200 = true := by decide +kernel
-- -1.5 rounded towards zero
theorem test_fcvt_truncates : rd3 (.fcvtToInt .f64 .rtz .i64 3 1) 0xBFF8000000000000 0 (-1) = true := by decide +kernel
theorem test_x0_discards : after (.add 0 1 2) (blk [(1, 5), (2, 6)]) (fun t => t.getX 0 == 0 && t.pc == 0x1004) = true := by
  decide +kernel
theorem test_beq_taken : after (.beq 1 2 (-4)) (blk [(1, 5), (2, 5)]) (fun t => t.pc == 0xFF0) = true := by decide +kernel
theorem test_bltn_unsigned : after (.bltn 1 2 8) (blk [(1, -1), (2, 5)]) (fun t => t.pc == 0x1004) = true := by decide +kernel
-- the base is read before rd is written, and bits 1 and 0 of the target are cleared
theorem test_jalr_same_register : after (.jalr 1 1 3) (blk [(1, 0x2000)]) (fun t => t.pc == 0x2000 && t.getX 1 == 0x1004) = true := by
  decide +kernel
theorem test_bstrip_ends : after (.bstrip 1 2 (-2)) (blk [(1, 3), (2, 8)]) (fun t => t.pc == 0x1004 && t.getX 1 == 0) = true := by
  decide +kernel
theorem test_bstrip_goes_on : after (.bstrip 1 2 (-2)) (blk [(1, 9), (2, 8)]) (fun t => t.pc == 0xFF8 && t.getX 1 == 1) = true := by
  decide +kernel

/-- The block with bytes at its data page. -/
def withBytes (bs : List Byte) (xs : List (Fin 32 × Word)) (f : Slot → Slot := id) : State :=
  (blk xs f).setMem (Memory.putAll (blk xs f).mem 0x200000 bs)

theorem test_load_sign : after (.ld .i16 3 1 2) (withBytes [1, 2, 3, 0x84] [(1, 0x2000)]) (fun t => t.getX 3 == 0xFFFFFFFFFFFF8403) = true := by
  decide +kernel
theorem test_load_zero_extends : after (.ld .n8 3 1 3) (withBytes [1, 2, 3, 0x84] [(1, 0x2000)]) (fun t => t.getX 3 == 0x84) = true := by
  decide +kernel
theorem test_store_little_endian : after (.st .b32 3 1 (-4)) (blk [(1, 0x2010), (3, 0x1122334455667788)])
    (fun t => Memory.bytes t.mem 0x20000B 6 == [0, 0x88, 0x77, 0x66, 0x55, 0]) = true := by decide +kernel
-- a load of a page that no table maps parks the block (R234): no entry, and the walk finds an empty context table
theorem test_load_outside_the_page : after (.ld .i64 3 1 0) (blk [(1, 0x2FFC)]) (fun t => t.getX 3 == 0 && t.pc == 0x1000) = true := by
  decide +kernel
theorem test_amo_min_signed : after (.amo .min .none .w32 .blk 3 1 2) (withBytes [5, 0, 0, 0] [(1, 0x2000), (2, 0xFFFFFFFE)])
    (fun t => t.getX 3 == 5 && Memory.nat t.mem 0x200000 4 == 0xFFFFFFFE) = true := by decide +kernel
theorem test_cas_fails : after (.cas .ar .w64 .sys 3 1 2) (withBytes [5] [(1, 0x2000), (2, 9), (3, 4)])
    (fun t => t.getX 3 == 5 && Memory.nat t.mem 0x200000 8 == 5) = true := by decide +kernel
theorem test_cas2_swaps : after (.cas2 .none .blk 4 1 6) (withBytes [5] [(1, 0x2000), (4, 5), (6, 7), (7, 8)])
    (fun t => t.getX 4 == 5 && t.getX 5 == 0 && Memory.nat t.mem 0x200000 16 == 7 + 8 * 2 ^ 64) = true := by decide +kernel
theorem test_atomic_across_granules : after (.amo .add .none .w64 .blk 3 1 2) (blk [(1, 0x201C)] fun x => { x with hart := { x.hart with tvec := 0x1100 } })
    (fun t => t.pc == 0x1100 && t.hart.xpc == 0x1000 && t.hart.tval == 0x201C) = true := by decide +kernel
theorem test_ebreak_enters_the_handler : after .ebreak (blk [] fun x => { x with hart := { x.hart with tvec := 0x1102 } })
    (fun t => t.pc == 0x1100 && t.hart.xpc == 0x1000 && t.hart.tcause == Cause.ebreak.code) = true := by decide +kernel
theorem test_ebreak_without_a_handler : after .ebreak (blk []) (fun t => (t.slot 0).halted && (t.cluster 0).tail == 1) = true := by
  decide +kernel
theorem test_trapret : after .trapret (blk [] fun x => { x with hart := { x.hart with xpc := 0x1237 } }) (fun t => t.pc == 0x1234) = true := by
  decide +kernel
-- ctl.fcsr: bit 8 reads 0, and rd gets the old value
theorem test_ctlw_fcsr : after (.ctlw 3 1 0x20) (blk [(1, -1)] fun x => { x with hart := { x.hart with fcsr := 7 } })
    (fun t => t.getX 3 == 7 && t.hart.fcsr == 0x1FEFF) = true := by decide +kernel
theorem test_widf : after (.widf 3 1 1) (blk [(1, 0xABCD)] fun x => { x with widw := 0x0408 }) (fun t => t.getX 3 == 0xB) = true := by
  decide +kernel
theorem test_steward_word_in_a_block : after (.evpop 1 2) (blk []) (fun t => (t.slot 0).cause == Cause.priv.code) = true := by decide +kernel

/-- A vector register with elements of `w` bits, element 0 first. -/
def vec (w : Nat) (xs : List Nat) : VReg := BitVec.ofNat 4096 (xs.foldr (fun x n => x % 2 ^ w + 2 ^ w * n) 0)

/-- The block with 256-bit vectors: vtype, vl, vector registers, x registers, bytes at its data page. -/
def vblk (vtype : BitVec 6) (vl : Word) (vs : List (Fin 32 × VReg)) (xs : List (Fin 32 × Word) := []) (bs : List Byte := [])
    (f : Slot → Slot := id) : State :=
  withBytes bs xs fun x => f { x with hart := { x.hart with vtype := vtype, vl := vl }
                                      vregs := vs.foldl (fun v e => v.set e.1 e.2) x.vregs }

/-- What a vector instruction leaves in v3 at SEW 32 with vl 4, from v1 and v2, over four elements of 9. -/
def v3 (i : Instr) (a b c : List Nat) : Bool :=
  after i (vblk 0x10 4 [(1, vec 32 a), (2, vec 32 b), (3, vec 32 [9, 9, 9, 9, 9])] [(7, 100)]) fun t =>
    (t.slot 0).vregs[3] == vec 32 (c ++ [9]) && t.pc == 0x1004 && t.hart.vstart == 0

theorem test_vadd_wraps_and_leaves_the_tail : v3 (.vadd .vv true 3 1 2) [0xFFFFFFFF, 2, 3, 4] [1, 1, 1, 1] [0, 3, 4, 5] = true := by
  decide +kernel
theorem test_vsub_order : v3 (.vsub .vv true 3 1 2) [1, 1, 1, 1] [5, 6, 7, 0] [4, 5, 6, 0xFFFFFFFF] = true := by decide +kernel
theorem test_vrsub_scalar : v3 (.vrsub .vx true 3 7 2) [] [1, 2, 3, 4] [99, 98, 97, 96] = true := by decide +kernel
theorem test_vadd_imm_signed : v3 (.vadd .vi true 3 0x1F 2) [] [1, 2, 3, 0] [0, 1, 2, 0xFFFFFFFF] = true := by decide +kernel
theorem test_vsll_imm_unsigned : v3 (.vsll .vi true 3 31 2) [] [1, 2, 3, 0] [0x80000000, 0, 0x80000000, 0] = true := by decide +kernel
theorem test_vdiv_corners :
    v3 (.vdiv .vv true 3 1 2) [0, 0xFFFFFFFF, 2, 0xFFFFFFFE] [7, 0x80000000, 0xFFFFFFF9, 7] [0xFFFFFFFF, 0x80000000, 0xFFFFFFFD, 0xFFFFFFFD] = true := by
  decide +kernel
theorem test_vsadd_saturates : v3 (.vsadd .vv true 3 1 2) [1, 0xFFFFFFFF, 1, 1] [0x7FFFFFFF, 0x80000000, 1, 2] [0x7FFFFFFF, 0x80000000, 2, 3] = true := by
  decide +kernel
theorem test_vmacc : v3 (.vmacc .vv true 3 1 2) [1, 2, 3, 4] [10, 10, 10, 10] [19, 29, 39, 49] = true := by decide +kernel
theorem test_vslideup : v3 (.vslideup .vi true 3 1 2) [] [1, 2, 3, 4] [9, 1, 2, 3] = true := by decide +kernel
theorem test_vslidedn_past_vlmax : v3 (.vslidedn .vx true 3 7 2) [] [1, 2, 3, 4] [0, 0, 0, 0] = true := by decide +kernel
theorem test_vgather_out_of_range : v3 (.vgather .vv true 3 1 2) [3, 0, 8, 1] [1, 2, 3, 4] [4, 1, 0, 2] = true := by decide +kernel
theorem test_vrotl_within_vl : v3 (.vrotl .vi true 3 1 2) [] [1, 2, 3, 4] [2, 3, 4, 1] = true := by decide +kernel
theorem test_vredsum : v3 (.vredsum true 3 1 2) [5] [1, 2, 3, 4] [15, 9, 9, 9] = true := by decide +kernel
-- 1.0 + 2.0, and 0.5 + -0.5 rounding to nearest is +0
theorem test_vfadd : v3 (.vfadd .vv false true 3 1 2) [0x3F800000, 0x3F000000] [0x40000000, 0xBF000000] [0x40400000, 0, 0, 0] = true := by
  decide +kernel
theorem test_vcompress : v3 (.vcompress 3 1 2) [0b1010] [5, 6, 7, 8] [6, 8, 9, 9] = true := by decide +kernel
theorem test_vmask_keeps_inactive : after (.vadd .vv false 3 1 2)
    (vblk 0x10 4 [(0, 0b0101), (1, vec 32 [1, 1, 1, 1]), (2, vec 32 [1, 2, 3, 4]), (3, vec 32 [9, 9, 9, 9])])
    (fun t => (t.slot 0).vregs[3] == vec 32 [2, 9, 4, 9]) = true := by decide +kernel
theorem test_vcmp_signed : after (.vcmp .lt .vv true 3 1 2) (vblk 0x10 4 [(1, vec 32 [1, 1, 1, 1]), (2, vec 32 [0, 1, 2, 0xFFFFFFFF])])
    (fun t => (t.slot 0).vregs[3] == 0b1001) = true := by decide +kernel
theorem test_vwmul_sign : after (.vwmul .vv true 4 1 2) (vblk 0x10 2 [(1, vec 32 [0xFFFFFFFF, 2]), (2, vec 32 [3, 4])])
    (fun t => (t.slot 0).vregs[4] == vec 64 [0xFFFFFFFFFFFFFFFD, 8]) = true := by decide +kernel
theorem test_vmpop : after (.vmpop true 5 2) (vblk 0x10 4 [(2, 0b11101)]) (fun t => t.getX 5 == 3 && t.hart.resync == 1) = true := by
  decide +kernel
theorem test_vmfirst_none : after (.vmfirst true 5 2) (vblk 0x10 4 [(2, 0b10000)]) (fun t => t.getX 5 == -1) = true := by decide +kernel
theorem test_viota : v3 (.viota true 3 2) [] [0b1011] [0, 1, 2, 2] = true := by decide +kernel
-- SEW 32, LMUL 1: VLMAX of one lane group is 8
theorem test_vsetvli : after (.vsetvli 3 1 0x10) (blk [(1, 5)]) (fun t => t.getX 3 == 5 && t.hart.vl == 5 && t.hart.vtype == 0x10) = true := by
  decide +kernel
theorem test_vle : after (.vle .e16 .normal true 3 1) (vblk 0x08 3 [] [(1, 0x2002)] [1, 2, 3, 4, 5, 6, 7, 8])
    (fun t => (t.slot 0).vregs[3] == vec 16 [0x0403, 0x0605, 0x0807]) = true := by decide +kernel
theorem test_vlse_backwards : after (.vlse .e8 .normal true 3 1 2) (vblk 0x00 3 [] [(1, 0x2002), (2, -1)] [1, 2, 3])
    (fun t => (t.slot 0).vregs[3] == vec 8 [3, 2, 1]) = true := by decide +kernel
theorem test_vse_masked : after (.vse .e8 .normal false 3 1) (vblk 0x00 3 [(0, 0b101), (3, vec 8 [7, 8, 9])] [(1, 0x2000)] [1, 2, 3])
    (fun t => Memory.bytes t.mem 0x200000 3 == [7, 2, 9]) = true := by decide +kernel
theorem test_vsxe_order : after (.vsxe .e8 .normal true 3 1 2) (vblk 0x00 3 [(2, vec 8 [4, 4, 1]), (3, vec 8 [7, 8, 9])] [(1, 0x2000)])
    (fun t => Memory.bytes t.mem 0x200000 5 == [0, 9, 0, 0, 8]) = true := by decide +kernel
theorem test_vamo_add : after (.vamo .add .none .w32 true 3 1 2)
    (vblk 0x10 2 [(2, vec 32 [4, 4]), (3, vec 32 [10, 20])] [(1, 0x2000)] [0, 0, 0, 0, 1])
    (fun t => (t.slot 0).vregs[3] == vec 32 [1, 11] && Memory.nat t.mem 0x200004 4 == 31) = true := by decide +kernel
theorem test_msetmvl : after (.msetmvl 3 1) (blk [(1, 500)]) (fun t => t.getX 3 == 128 && t.hart.mvl == 128) = true := by decide +kernel
-- f32: the outer product of one row of the two operands, 2 x 3
theorem test_mop : after (.mop .f32 true 0 1 2) (vblk 0x10 0 [(1, vec 32 [0x40000000]), (2, vec 32 [0x40400000])] [] []
    fun x => { x with accMask := 1, hart := { x.hart with mvl := 1 } }) (fun t => t.accGet 0 0 0 0 == 0x40C00000) = true := by decide +kernel
theorem test_tshape_caps : after (.tshape 1) (blk [(1, 0xFFFF000300000081)]) (fun t => t.hart.tshape == 0x000300000080) = true := by
  decide +kernel
theorem test_chain_head : v3 (.vxq true 3 2) [] [1, 2, 3, 4] [0, 0, 0, 0] = true := by decide +kernel

/-! ### Witnesses: for every statement, states and operands that meet its hypotheses together -/

theorem ok_of {ε α : Type} {r : EStateM.Result ε State α} {p : α → State → Bool} (h : okWith r p = true) :
    ∃ a t, r = .ok a t ∧ p a t = true := by
  cases r with
  | ok a t => exact ⟨a, t, rfl, h⟩
  | error e t => cases h

def same (s t : State) : Bool :=
  t.mem == s.mem && decide (t.slots = s.slots) && t.cur == s.cur && decide (t.hart = s.hart) && decide (t.disp = s.disp) && t.ticket == s.ticket

theorem same_of {s t : State} (h : same s t = true) : Same s t := by
  simpa [same, Same, and_assoc] using h

/-- `Settled`, for a block. -/
def settled (s : State) (p : Part) : Bool :=
  (match s.cur with | .block _ => true | _ => false) && !s.corrupt p.loc.pa &&
    (match regionOf p.loc.pa with | .core _ _ => false | _ => true)

theorem settled_of {s : State} {p : Part} (h : settled s p = true) : Settled s p := by
  cases hc : s.cur with
  | steward k => simp [settled, hc] at h
  | block sl =>
    simp only [settled, hc, Bool.true_and, Bool.and_eq_true, Bool.not_eq_true'] at h
    refine ⟨h.1, fun c o e => ?_, .inl ⟨sl, hc⟩⟩
    rw [e] at h; cases h.2

/-- An access is located where `LocatedAt` says. -/
def located (s : State) (u : Use) (va : Word) (n : Nat) (_store : Bool) : Bool :=
  okWith (locate u (cutGranules 3 va n) s) fun ps t => same s t && ps.all fun p => settled t p && !pteCmp p.loc.pte

theorem located_of {s : State} {u : Use} {va : Word} {n : Nat} {store : Bool} (h : located s u va n store = true) :
    ∃ ps s1, LocatedAt s u va n store ps s1 := by
  obtain ⟨ps, t, h1, h2⟩ := ok_of h
  simp only [Bool.and_eq_true, List.all_eq_true, Bool.not_eq_true'] at h2
  exact ⟨ps, t, h1, same_of h2.1, fun p hp => ⟨settled_of (h2.2 p hp).1, fun _ => (h2.2 p hp).2⟩⟩

/-- A state with x1 = 5 and x2 at the data page. -/
def w0 : State := blk [(1, 5), (2, 0x2000), (3, 3)]

/-- The same under a lane thread of two lanes with registers x0 - x7. -/
def wLane : State := blk [] fun x =>
  { x with threads := some ⟨0xFF0, 0x1010, [(0, 0x1000, false), (1, 0x1000, false)], 0, [0, 1], none⟩, lrec := { nvreg := 8 } }

theorem next_of {o : Host.Outcome State Fault Refusal} (h : (match o with | .next _ => true | _ => false) = true) : ∃ t, o = .next t := by
  cases o with
  | next t => exact ⟨t, rfl⟩
  | fault f => cases h
  | refused r => cases h

theorem witness_EncodeThenDecodeIsIdentity : (Instr.sub 3 4 5).wf = true ∧ (Instr.tzero false 5).wf = true := by decide

theorem witness_EveryStepGoesOn : w0.power = .on ∧ ({ w0 with power := .off } : State).power = .off ∧ ∀ b, Instr.ebreak ≠ .coldReset b :=
  ⟨by decide +kernel, rfl, by simp⟩

/-- A word that is ADDI x0, x0, 0 at the PC of the block. -/
theorem witness_StepRunsDecodedInstruction : ∃ (s t : State) (sl : SlotId) (w v : Nat) (i : Instr), s.power = .on ∧ s.agenda = [] ∧
    s.engineTurn = false ∧ s.cur = .block sl ∧ s.canRun (.block sl) = true ∧ (s.slot sl).stop = none ∧
    (s.slot sl).needTiles = false ∧ (s.slot sl).flight = [] ∧ (fetchInstr s.pc).run s = .ok (w, v) t ∧ decodeWords w v = .ok i := by
  have h : okWith ((fetchInstr (State.reset.withFetchWord 32 0x08000000).pc).run (State.reset.withFetchWord 32 0x08000000))
      (fun e _ => e == (0x08000000, 0)) = true := by decide +kernel
  obtain ⟨e, t, h1, h2⟩ := ok_of h
  rw [beq_iff_eq] at h2
  subst h2
  exact ⟨_, t, 0, _, _, .addi 0 0 0, by decide +kernel, by decide +kernel, by decide +kernel, by decide +kernel, by decide +kernel,
    by decide +kernel, by decide +kernel, by decide +kernel, h1, by rfl⟩

/-- The instruction that `withFetchWord` places is the one that the next step runs. -/
theorem test_first_step : (match step (State.reset.withFetchWord 32 0x08A00007) with
    | .next t => t.getX 5 == 7 && t.pc == 0x1004 | _ => false) = true := by decide +kernel

theorem witness_StepKeepsTurnWithRunnableHart : (∃ h, h ∈ w0.ready) ∧ w0.canRun w0.cur = true ∧ ∃ t, step w0 = .next t :=
  ⟨⟨.block 0, by decide +kernel⟩, by decide +kernel, next_of (by decide +kernel)⟩

theorem witness_StorageReadsWhatWasWritten : Memory.wf [(5, 7)] = true ∧ (∀ i, wLane.lane = some i → i < 64) ∧ (31 : Reg) ≠ 0 := by
  refine ⟨by decide +kernel, fun i h => ?_, by decide⟩
  have : wLane.lane = some 0 := by decide +kernel
  rw [this] at h; cases h; decide

theorem witness_RetiringWriteFrame : w0.lane = none ∧ (∃ l ∈ (wLane.threads.map (·.lanes)).getD [], wLane.lane = some l.1) ∧
    w0.cur = .block 0 ∧ w0.cur ≠ .block 1 := by
  refine ⟨by decide +kernel, ⟨(0, 0x1000, false), by decide +kernel, by decide +kernel⟩, by decide +kernel, by decide +kernel⟩

/-! Scalar engine -/

/-- A block whose registers exist, and a lane thread that has x7 and not x8. -/
theorem witness_IntegerResults : w0.power = .on ∧ scalarRegsOk w0 [31, 1, 2] 31 = true ∧ wLane.power = .on ∧
    scalarRegsOk wLane [7, 1, 2] 7 = true := by decide +kernel
theorem witness_MultiplyResults : w0.power = .on ∧ scalarRegsOk w0 [0, 1, 2] 0 = true := by decide +kernel
theorem witness_DivisionResults : w0.power = .on ∧ scalarRegsOk w0 [3, 1, 2] 3 = true := by decide +kernel
theorem witness_MissingLaneRegisterRaisesIllreg : wLane.power = .on ∧ scalarRegsOk wLane [8, 1, 2] 8 = false := by decide +kernel

/-- ctl.fcsr with enables, mode 5 or mode 0. -/
def wFp (fcsr : BitVec 17) : State := blk [(1, 0x3FF0000000000000)] fun x => { x with hart := { x.hart with fcsr := fcsr } }

theorem witness_FloatArithmeticResults : w0.power = .on ∧ scalarRegsOk w0 [3, 1, 2] 3 = true ∧ rndField w0 .rne = some .rne ∧
    (w0.trapping (Fl.add .f64 .rne (unbox .f64 (w0.getX 1)) (unbox .f64 (w0.getX 2))).2 = false) := by decide +kernel
theorem witness_FloatCompareAndConvertResults : rndField (wFp 0) .dyn = some .rne ∧ (wFp 0).trapping 16 = false ∧ FFmt.f32 ≠ .f64 := by
  decide +kernel
/-- frm 5 is reserved; with every enable set a division by zero traps. -/
theorem witness_FloatTraps : (5 ≤ fcsrFrm (wFp 0xA0).hart.fcsr ∧ scalarRegsOk (wFp 0xA0) [3, 1, 2] 3 = true) ∧
    rndField (wFp 0x1F000) .rne = some .rne ∧
    (wFp 0x1FE00).trapping (Fl.div .f64 .rne (unbox .f64 ((wFp 0x1FE00).getX 1)) (unbox .f64 ((wFp 0x1FE00).getX 2))).2 = true := by
  decide +kernel

/-! Branches, jumps -/

theorem witness_BranchesAndLoops : w0.power = .on ∧ w0.lane = none ∧ (∀ r ∈ [(1 : Reg), 2], r ∉ w0.hart.forced) := by decide +kernel

/-- A tracker entry of the loop at 0x1000: one strike, remainder 0; the count register holds 5 and the step 0. -/
def wStuck : State := blk [(1, 5)] fun x => { x with hart := { x.hart with tracker := [⟨0x1000, 5, true⟩] } }

theorem witness_BranchesAndLoops_noprogress :
    let e := wStuck.hart.tracker.find? fun e => e.addr == wStuck.pc
    e.any (fun e => decide (e.last.toNat ≤ (BitVec.ofNat 64 ((wStuck.getX 1).toNat - (wStuck.getX 2).toNat)).toNat)) = true ∧
      e.any (·.strike) = true := by decide +kernel

/-- Table jumps: an index at the bound, and one below it whose entry the fetch path reads. -/
theorem witness_JumpsAndTables : Min.min (w0.getX 3).toNat (8 : BitVec 13).toNat ≤ (w0.getX 1).toNat ∧
    (w0.getX 3).toNat < Min.min (w0.getX 1).toNat (8 : BitVec 13).toNat ∧
    (∃ w t, fetchWord (w0.pc + 4 + BitVec.ofNat 64 (4 * (w0.getX 3).toNat)) w0 = .ok w t) ∧
    (w0.getX 3).toNat < Min.min (w0.getX 1).toNat ((8 : BitVec 13).toNat / 2) ∧
    (∃ w t, fetchDouble (w0.pc + 4 + BitVec.ofNat 64 (8 * (w0.getX 3).toNat)) w0 = .ok w t) := by
  have h1 : okWith (fetchWord (w0.pc + 4 + BitVec.ofNat 64 (4 * (w0.getX 3).toNat)) w0) (fun _ _ => true) = true := by decide +kernel
  have h2 : okWith (fetchDouble (w0.pc + 4 + BitVec.ofNat 64 (8 * (w0.getX 3).toNat)) w0) (fun _ _ => true) = true := by decide +kernel
  obtain ⟨w, t, h1, -⟩ := ok_of h1
  obtain ⟨v, u, h2, -⟩ := ok_of h2
  exact ⟨by decide +kernel, by decide +kernel, ⟨w, t, h1⟩, by decide +kernel, ⟨v, u, h2⟩⟩

/-! Memory -/

/-- A doubleword that crosses a granule: two parts. -/
theorem witness_LoadsAndStores : w0.power = .on ∧ scalarRegsOk w0 [3, 2] 3 = true ∧
    (∃ ps s1, LocatedAt w0 (scalarUse .load) (w0.getX 2 + (28 : BitVec 13).signExtend 64) 8 false ps s1) ∧
    (∃ ps s1, LocatedAt w0 (scalarUse .store) (w0.getX 2 + (28 : BitVec 13).signExtend 64) 8 true ps s1) :=
  ⟨by decide +kernel, by decide +kernel, located_of (by decide +kernel), located_of (by decide +kernel)⟩

/-- `AtomicAt`, for an order that needs no wait or finds none. -/
theorem atomic_of {s : State} {acc : Access} {order : Order} {a : Word} {n : Nat}
    (h : (decide (a.toNat % 32 + n ≤ 32) && okWith (hartLoc a (atomicUse acc) s) fun l t =>
      okWith (settlePart (atomicUse acc) ⟨a, l, n⟩ t) fun _ u => same s u && u.releaseReady && settled u ⟨a, l, n⟩) = true) :
    ∃ l, AtomicAt s acc order a n l := by
  simp only [Bool.and_eq_true, decide_eq_true_eq] at h
  obtain ⟨l, t, h1, h2⟩ := ok_of h.2
  obtain ⟨⟨⟩, u, h3, h4⟩ := ok_of h2
  simp only [Bool.and_eq_true] at h4
  exact ⟨l, h.1, t, u, h1, h3, same_of h4.1.1, fun _ => h4.1.2, settled_of h4.2⟩

/-- The last doubleword of a granule; a pair at a granule's start. -/
def wAt : State := blk [(1, 0x2018), (2, 7), (8, 0x2020)]

theorem witness_Atomics : wAt.power = .on ∧ scalarRegsOk wAt [3, 1, 2] 3 = true ∧ (∃ l, AtomicAt wAt .store .ar (wAt.getX 1) 8 l) ∧
    (∃ l, AtomicAt wAt .store .rel (wAt.getX 1) 8 l) ∧ (∃ l, AtomicAt wAt .load .acq (wAt.getX 1) 8 l) ∧
    (∃ l, AtomicAt wAt .store .none (wAt.getX 8) 16 l) ∧ wAt.lane = none ∧ (wAt.getX 8).toNat % 16 = 0 :=
  ⟨by decide +kernel, by decide +kernel, atomic_of (by decide +kernel), atomic_of (by decide +kernel), atomic_of (by decide +kernel),
    atomic_of (by decide +kernel), by decide +kernel, by decide +kernel⟩

/-- The first address that crosses a granule, an address that is no multiple of 16, an odd register. -/
theorem witness_Atomics_misaligned : 32 < (blk [(1, 0x2019)] |>.getX 1).toNat % 32 + 8 ∧ (wAt.getX 1).toNat % 16 ≠ 0 ∧
    (3 : Reg).toNat % 2 = 1 := by decide +kernel

/-- A block with a copy outstanding: not ready for a release. -/
def wBusy : State := blk [] fun x => { x with work := [{ id := 0, pc := 0x1000, op := .zero false }] }

theorem witness_FencesAndHints : w0.power = .on ∧ w0.cur = .block 0 ∧ w0.releaseReady = true ∧ w0.lane = none ∧
    scalarRegsOk w0 [2] 0 = true ∧ wBusy.cur = .block 0 ∧ wBusy.releaseReady = false ∧
    (((w0.slot 0).olderWork.all fun t => !t.isCommand) = true ∧ (w0.anyHeld 0 fun _ => true) = false ∧ w0.refillsDue 0 true = false) := by
  decide +kernel

/-- A hint of an address on no page, and one that a translation is held for. -/
theorem witness_FencesAndHints_hints : HintGoesOn w0 true .ipref (w0.getX 2 + (0 : BitVec 12).signExtend 64) ∧
    HintGoesOn w0 false .dpref (w0.getX 2 + (0 : BitVec 12).signExtend 64) := by
  have h : ∀ e ∈ [(true, Access.ipref), (false, Access.dpref)],
      okWith (translateHint w0.walkSrc e.1 w0.ctx (w0.getX 2 + (0 : BitVec 12).signExtend 64) e.2 w0) (fun _ _ => true) = true := by decide +kernel
  obtain ⟨r, u, h1, -⟩ := ok_of (h (true, .ipref) (by decide))
  obtain ⟨r', u', h2, -⟩ := ok_of (h (false, .dpref) (by decide))
  exact ⟨⟨r, u, h1⟩, ⟨r', u', h2⟩⟩

/-! Traps and the system -/

/-- A handler at 0x1100. -/
def wTvec : State := blk [] fun x => { x with hart := { x.hart with tvec := 0x1100 } }
/-- An event queue that is full. -/
def wFull : State := w0.modCluster 0 fun c => { c with tail := 1024 }

theorem witness_Traps : (wTvec.cur = .block 0 ∧ (wTvec.slot 0).threads = none ∧ (wTvec.slot 0).call = none ∧ wTvec.hart.tvec ≠ 0 ∧
      Cause.align.delivery = .tvec) ∧
    (wFull.eventRoom 0 = false ∧ (wFull.slot 0).call = none ∧ Cause.loadpf.delivery ≠ .tvec) ∧
    (w0.eventRoom 0 = true ∧ Cause.loadpf.delivery = .park) ∧
    (Cause.priv.delivery ≠ .park ∧ Cause.priv.delivery ≠ .tvec) ∧ w0.hart.tvec = 0 ∧ (wLane.slot 0).threads ≠ none := by decide +kernel

theorem witness_SystemInstructions : w0.power = .on ∧ w0.lane = none ∧ w0.cur = .block 0 ∧ (wTvec.slot 0).call = none ∧
    wTvec.hart.tvec ≠ 0 ∧ (5 : BitVec 5).toNat ≤ 5 ∧ 5 < (6 : BitVec 5).toNat := by decide +kernel

theorem witness_ControlRegisterAccess : w0.power = .on ∧ w0.lane = none ∧ w0.ctlRead 0x30 = some 0 ∧ w0.hart.vlForced = false ∧
    (1 : Reg) ≠ 0 ∧ w0.ctlRead 0xFFF = none := by decide +kernel

/-- Steward 3 takes the turn. -/
def wSt : State := { w0 with cur := .steward 3 }

theorem witness_ChecksRaiseTheirTraps : w0.cur = .block 0 ∧ wSt.power = .on ∧ wSt.cur = .steward 3 := by decide +kernel

/-! Vector engine -/

/-- `LaneReady`, as a computation. -/
def laneReady (s : State) (sl : SlotId) (c : VCtx) (act : List Nat) (dst : Option VOpnd) (srcs : List VOpnd) : Bool :=
  decide (s.power = .on) && decide (s.cur = .block sl) && decide ((s.slot sl).threads = none) && decide (act ≠ []) &&
    groupsOk s.nvreg c.vm dst srcs && (s.slot sl).streamsHere.isEmpty && !s.ownLent sl && !s.hart.sett.getLsbD 0

theorem laneReady_of {s : State} {sl : SlotId} {c : VCtx} {act : List Nat} {dst : Option VOpnd} {srcs : List VOpnd}
    (h : laneReady s sl c act dst srcs = true) : LaneReady s sl c act dst srcs := by
  simpa [laneReady, LaneReady, and_assoc] using h

/-- Under ctl.fcsr = 0 no flag traps, so the premise on flags holds of any elements. -/
theorem quiet (es : List VElem) (s : State) (h : fcsrFte s.hart.fcsr = 0) : ∀ e ∈ es, e.2.2 &&& fcsrFte s.hart.fcsr = 0 := by
  simp [h]

/-- SEW 8, 16, 32 and 64 with vl 4 and the mask 0b0110 in v0. -/
def vw (sew : BitVec 6) (f : Slot → Slot := id) : State :=
  vblk (sew * 8) 4 [(0, 6), (4, vec 32 [1, 0, 3, 2]), (6, vec 64 [0, 8, 16, 24])] [(1, 0x2000), (2, 8), (7, 3)] [] f

/-- The operands of the two-operand forms: every kind, masked and not, at SEW 8, 32 and 64. -/
theorem witness_VectorIntegerResults : ∀ k ∈ [VKind.vv, .vx, .vi], ∀ vm ∈ [true, false], ∀ w ∈ [(0 : BitVec 6), 2, 3],
    let c := (vw w).vctx 0 vm (kindReg k 2)
    LaneReady (vw w) 0 c c.active (some (c.grp 8 c.sew)) (vvSrcs k 2 4 VCtx.sew VCtx.sew c) := by
  have h : ∀ k ∈ [VKind.vv, .vx, .vi], ∀ vm ∈ [true, false], ∀ w ∈ [(0 : BitVec 6), 2, 3],
      let c := (vw w).vctx 0 vm (kindReg k 2)
      laneReady (vw w) 0 c c.active (some (c.grp 8 c.sew)) (vvSrcs k 2 4 VCtx.sew VCtx.sew c) = true := by decide +kernel
  exact fun k hk vm hv w hw => laneReady_of (h k hk vm hv w hw)

/-- A widened destination, a wide source, an old destination; no flag is enabled. -/
theorem witness_VectorIntegerResults_widths :
    let c := (vw 2).vctx 0 true 0
    c.sew ≠ 64 ∧ LaneReady (vw 2) 0 c c.active (some (c.grp 8 (2 * c.sew))) (vvSrcs .vv 2 4 VCtx.sew VCtx.sew c) ∧
    LaneReady (vw 2) 0 c c.active (some (c.grp 8 c.sew)) (vvSrcs .vv 2 4 (fun c => 2 * c.sew) VCtx.sew c) ∧
    LaneReady (vw 2) 0 c c.active (some (c.grp 8 c.sew)) (vvSrcs .vv 2 4 VCtx.sew VCtx.sew c ++ [c.grp 8 c.sew]) ∧
    ∀ es : List VElem, ∀ e ∈ es, e.2.2 &&& fcsrFte (vw 2).hart.fcsr = 0 :=
  ⟨by decide +kernel, laneReady_of (by decide +kernel), laneReady_of (by decide +kernel), laneReady_of (by decide +kernel),
    fun es => quiet es _ (by decide +kernel)⟩

theorem witness_DivisionResults_vector :
    let c := (vw 2).vctx 0 false 0
    LaneReady (vw 2) 0 c c.active (some (c.grp 8 c.sew)) (vvSrcs .vv 2 4 VCtx.sew VCtx.sew c) := laneReady_of (by decide +kernel)

/-- The first and the last element of a register. -/
theorem witness_VectorWritesOnlyItsElements :
    let c := (vw 2).vctx 0 true 0
    let d := c.grp 31 32
    let es : List VElem := [(0, 1, 0), (7, 2, 0)]
    0 < c.grant ∧ c.grant ≤ 16 ∧ 0 < d.size ∧ d.reg.toNat + d.size ≤ 32 ∧ (es.map (·.1)).Nodup ∧
      (∀ e ∈ es, (e.1 + 1) * 32 ≤ d.size * c.vlen) ∧ d.covers 30 = false := by decide +kernel

theorem witness_VectorCompareMergeMove :
    (let c := (vw 2).vctx 0 true (kindReg .vi 2)
     LaneReady (vw 2) 0 c c.active (some (maskOp 8)) (vvSrcs .vi 2 4 VCtx.sew VCtx.sew c)) ∧
    (let c := (vw 2).vctx 0 false (kindReg .vv 2)
     LaneReady (vw 2) 0 c c.active (some (c.grp 8 c.sew)) (vvSrcs .vv 2 4 VCtx.sew VCtx.sew c)) ∧
    (let c := (vw 2).vctx 0 true (kindReg .vx 2)
     LaneReady (vw 2) 0 c c.active (some (c.grp 8 c.sew)) (if VKind.vx == .vv then [c.grp 2 c.sew] else [])) :=
  ⟨laneReady_of (by decide +kernel), laneReady_of (by decide +kernel), laneReady_of (by decide +kernel)⟩

/-- SEW 16 under the alternate format, kind vf. -/
theorem witness_VectorFloatResults :
    let c := (vw 1).vctx 0 true (kindReg .vf 2)
    let c1 := (vw 1).vctx 0 true 0
    let d := c.grp 8 c.sew
    c.sew ≠ 8 ∧ c.sew = 16 ∧ c.frm ≤ 4 ∧ LaneReady (vw 1) 0 c c.active (some d) (vvSrcs .vf 2 4 VCtx.sew VCtx.sew c) ∧
    LaneReady (vw 1) 0 c c.active (some d) (vvSrcs .vf 2 4 VCtx.sew VCtx.sew c ++ [d]) ∧
    LaneReady (vw 1) 0 c1 c1.active (some d) [c1.grp 4 c.sew] ∧
    LaneReady (vw 1) 0 c c.active (some (maskOp 8)) (vvSrcs .vf 2 4 VCtx.sew VCtx.sew c) :=
  ⟨by decide +kernel, by decide +kernel, by decide +kernel, laneReady_of (by decide +kernel), laneReady_of (by decide +kernel),
    laneReady_of (by decide +kernel), laneReady_of (by decide +kernel)⟩

/-- Every code of VFCVT at SEW 16: widening to 32 bits, narrowing to 8 with LMUL 2. -/
def vw2 (f : Slot → Slot := id) : State := vblk 0x09 4 [(0, 6)] [] [] f

theorem witness_VectorFloatResults_conversions :
    (∀ n < 6, let c := (vw 1).vctx 0 true 0
      vfcvtBad n false false c = false ∧ laneReady (vw 1) 0 c c.active (some (c.grp 8 c.sew)) [c.grp 4 c.sew] = true) ∧
    (let c := (vw 1).vctx 0 true 0
     vfcvtBad 6 true false c = false ∧ LaneReady (vw 1) 0 c c.active (some (c.grp 8 (2 * c.sew))) [c.grp 4 c.sew]) ∧
    (let c := vw2.vctx 0 true 0
     vfcvtBad 7 false true c = false ∧ LaneReady vw2 0 c c.active (some (c.grp 8 (c.sew / 2))) [c.grp 4 c.sew]) :=
  ⟨by decide +kernel, ⟨by decide +kernel, laneReady_of (by decide +kernel)⟩, ⟨by decide +kernel, laneReady_of (by decide +kernel)⟩⟩

theorem witness_VectorFloatResults_log :
    (let c := (vw 0).vctx 0 true 0
     c.sew = 8 ∧ LaneReady (vw 0) 0 c c.active (some (c.grp 8 8)) (vvSrcs .vv 2 4 VCtx.sew VCtx.sew c) ∧
     LaneReady (vw 0) 0 c c.active (some (oneOp 8 32)) [c.grp 4 8, c.grp 2 8, oneOp 8 32]) ∧
    (let c := vw2.vctx 0 true 0
     c.sew ≠ 8 ∧ LaneReady vw2 0 c c.active (some (c.grp 8 c.sew)) [c.grp 4 8] ∧
     LaneReady vw2 0 c c.active (some (c.grp 8 8)) [c.grp 4 c.sew]) :=
  ⟨⟨by decide +kernel, laneReady_of (by decide +kernel), laneReady_of (by decide +kernel)⟩,
    ⟨by decide +kernel, laneReady_of (by decide +kernel), laneReady_of (by decide +kernel)⟩⟩

theorem witness_VectorReductions :
    let c := (vw 2).vctx 0 true 0
    c.sew ≠ 8 ∧ c.frm ≤ 4 ∧ LaneReady (vw 2) 0 c c.active (some (oneOp 8 c.sew)) [c.grp 4 c.sew, oneOp 2 c.sew] :=
  ⟨by decide +kernel, by decide +kernel, laneReady_of (by decide +kernel)⟩

theorem witness_VectorPermutations :
    (let c := (vw 2).vctx 0 true (kindReg .vi 2)
     LaneReady (vw 2) 0 c c.active (some (c.grp 8 c.sew)) (vvSrcs .vi 2 4 VCtx.sew VCtx.sew c) ∧ c.sew ≠ 8) ∧
    (let c := (vw 2).vctx 0 true 0
     LaneReady (vw 2) 0 c c.active (some (c.grp 8 c.sew)) [c.grp 4 c.sew, maskOp 2] ∧ c.vstart = 0) :=
  ⟨⟨laneReady_of (by decide +kernel), by decide +kernel⟩, ⟨laneReady_of (by decide +kernel), by decide +kernel⟩⟩

/-- vl 0: no element is active. -/
def vIdle : State := vblk 0x10 0 []

theorem witness_VectorMaskAndScalarResults :
    let c := (vw 2).vctx 0 true 0
    LaneReady (vw 2) 0 c c.active (some (maskOp 8)) [maskOp 4, maskOp 2] ∧
    LaneReady (vw 2) 0 c c.active (some (c.grp 8 c.sew)) [maskOp 4] ∧ LaneReady (vw 2) 0 c c.active (some (c.grp 8 c.sew)) [] ∧
    0 ∈ c.active ∧ LaneReady (vw 2) 0 c [0] (some (c.grp 8 c.sew)) [] ∧ LaneReady (vw 2) 0 c [0] none [c.grp 4 c.sew] ∧
    LaneReady (vw 2) 0 c c.active none [maskOp 4] ∧ vIdle.power = .on ∧ vIdle.cur = .block 0 ∧ (vIdle.slot 0).threads = none ∧
    (vIdle.vctx 0 true 0).active = [] :=
  ⟨laneReady_of (by decide +kernel), laneReady_of (by decide +kernel), laneReady_of (by decide +kernel), by decide +kernel,
    laneReady_of (by decide +kernel), laneReady_of (by decide +kernel), laneReady_of (by decide +kernel), by decide +kernel,
    by decide +kernel, by decide +kernel, by decide +kernel⟩

theorem witness_InactiveVectorWordsAreNoOperations : vIdle.power = .on ∧ vIdle.cur = .block 0 ∧ (vIdle.slot 0).threads = none ∧
    (vIdle.vctx 0 false 0).active = [] := by decide +kernel

theorem witness_VectorConfigurationResults : w0.power = .on ∧ w0.cur = .block 0 ∧ (w0.slot 0).threads = none ∧
    vtypeOk 0x1B = true ∧ w0.takesLent (w0.takeGroups 0 4 16) 0 = false ∧ vtypeOk 0x04 = false ∧
    64 ≤ (w0.getX 2).toNat ∧ (blk [(5, 0x1B)]).getX 5 = (0x1B : BitVec 6).zeroExtend 64 := by decide +kernel

/-- An accumulator granted and mvl 2. -/
def mw : State := vblk 0x10 0 [(0, 3)] [] [] fun x => { x with accMask := 3, hart := { x.hart with mvl := 2 } }

theorem witness_MatrixLengthAndZero : mw.power = .on ∧ mw.cur = .block 0 ∧ (mw.slot 0).threads = none ∧ (3 : Reg) ≠ 0 ∧
    0 < mw.hart.mvl.toNat ∧ (1 : Acc).toNat < (mw.slot 0).accCount ∧ (mw.slot 0).accBusy 1 = false ∧ (mw.slot 0).flying = false := by
  decide +kernel

/-- `MatReady`, as a computation. -/
def matReady (s : State) (sl : SlotId) (c : VCtx) (ac : Option Acc) (dst : Option VOpnd) (srcs : List VOpnd) : Bool :=
  decide (s.power = .on) && decide (s.cur = .block sl) && decide ((s.slot sl).threads = none) && decide (c.active ≠ []) &&
    !(s.slot sl).flying && (s.slot sl).cut.isNone && (s.slot sl).streamsHere.isEmpty && groupsOk s.nvreg c.vm dst srcs &&
    match ac with | some n => decide (n.toNat < (s.slot sl).accCount) && !(s.slot sl).accBusy n | none => true

theorem matReady_of {s : State} {sl : SlotId} {c : VCtx} {ac : Option Acc} {dst : Option VOpnd} {srcs : List VOpnd}
    (h : matReady s sl c ac dst srcs = true) : MatReady s sl c ac dst srcs := by
  cases ac <;> simpa [matReady, MatReady, and_assoc] using h

theorem witness_MatrixLaneResults :
    let c := matCtx mw 0 false 0
    (∀ ty ∈ [Ty.f16, .bf16, .f32, .f8e4, .f8e5, .lg6], matTy ty = true ∧
      matReady mw 0 c (some 1) none [matGroup c 4 (matEew ty) (kPack ty * c.vl), matGroup c 5 (matEew ty) (kPack ty * c.vl)] = true) ∧
    MatReady mw 0 c (some 1) none [matGroup c 4 32 c.vl, matGroup c 5 32 (2 * c.vl)] ∧
    MatReady mw 0 c none none (matGroup c 4 8 c.vl :: (if (5 : Reg) = 0 then [] else [matGroup c 5 8 c.vl])) ∧
    (mw.slot 0).tmmvBusy = false ∧ (mw.slot 0).mat.fmt = none ∧ (mw.slot 0).mat.hr = 0 ∧
    MatReady mw 0 c (some 1) (some (matGroup c 8 32 c.vl)) [] ∧ MatReady mw 0 c (some 1) none [matGroup c 8 32 c.vl] :=
  ⟨by decide +kernel, matReady_of (by decide +kernel), matReady_of (by decide +kernel), by decide +kernel, by decide +kernel,
    by decide +kernel, matReady_of (by decide +kernel), matReady_of (by decide +kernel)⟩

/-! Chains, streams, vector memory, lane threads -/

theorem witness_ChainsAndStreams_chains :
    let c := (vw 2).vctx 0 true 0
    c.vl * c.sew ≤ 32768 ∧ LaneReady (vw 2) 0 c c.active none [c.grp 4 c.sew, maskOp 2] ∧
    LaneReady (vw 2) 0 c c.active (some (c.grp 8 c.sew)) [c.grp 4 c.sew] ∧
    LaneReady (vw 2) 0 c c.active (some (c.grp 8 c.sew)) [c.grp 4 c.sew, maskOp 2] ∧
    c.sew = 8 * 2 ^ (vw 2 |>.slot 0).chain.qsew.toNat ∧ ((vw 3).vctx 0 true 0).sew ≠ 8 * 2 ^ (vw 3 |>.slot 0).chain.qsew.toNat ∧
    (c.sew ≠ 8 ∧ c.frm ≤ 4) ∧ ∀ es : List VElem, ∀ e ∈ es, e.2.2 &&& fcsrFte (vw 2).hart.fcsr = 0 :=
  ⟨by decide +kernel, laneReady_of (by decide +kernel), laneReady_of (by decide +kernel), laneReady_of (by decide +kernel),
    by decide +kernel, by decide +kernel, by decide +kernel, fun es => quiet es _ (by decide +kernel)⟩

/-- A descriptor at 0x2000: base 0x2100, stride 8, count 4, width 3; one with a reserved width; one that is bound already. -/
def descBytes (w : Byte) : List Byte := [0, 0x21, 0, 0, 0, 0, 0, 0, 8, 0, 0, 0, 0, 0, 0, 0, 4, 0, 0, 0, 0, 0, 0, 0, w]
def sw (w : Byte) : State := withBytes (descBytes w) [(1, 0x2000), (2, 0x2001)]
def swBound : State := withBytes [] [] fun x => { x with streams := x.streams.set 7 { bound := true, reg := 4 } }

/-- A located access whose bytes meet a test. -/
theorem located_bytes {s : State} {u : Use} {va : Word} {n : Nat} {store : Bool} {q : List Byte → Bool}
    (h : okWith (locate u (cutGranules 3 va n) s) (fun ps t => same s t && ps.all (fun p => settled t p && !pteCmp p.loc.pte) &&
      q (partBytes s.mem ps)) = true) : ∃ ps s1, LocatedAt s u va n store ps s1 ∧ q (partBytes s.mem ps) = true := by
  obtain ⟨ps, t, h1, h2⟩ := ok_of h
  simp only [Bool.and_eq_true, List.all_eq_true, Bool.not_eq_true'] at h2
  exact ⟨ps, t, ⟨h1, same_of h2.1.1, fun p hp => ⟨settled_of (h2.1.2 p hp).1, fun _ => (h2.1.2 p hp).2⟩⟩, h2.2⟩

theorem witness_ChainsAndStreams_streams : (sw 3).power = .on ∧ (sw 3).cur = .block 0 ∧ ((sw 3).slot 0).threads = none ∧
    ((sw 3).getX 1).toNat % 32 = 0 ∧
    (∃ ps s1, LocatedAt (sw 3) vloadUse ((sw 3).getX 1) 32 false ps s1 ∧ (!streamDescBad (partBytes (sw 3).mem ps)) = true) ∧
    (∃ ps s1, LocatedAt (sw 4) vloadUse ((sw 4).getX 1) 32 false ps s1 ∧ streamDescBad (partBytes (sw 4).mem ps) = true) ∧
    (31 : Reg).toNat < (sw 3).nvreg ∧ ((sw 3).slot 0).streamsHere = [] ∧ ((sw 3).slot 0).streams[(7 : BitVec 3).toNat]!.bound = false ∧
    ((sw 3).getX 2).toNat % 32 ≠ 0 ∧ (swBound.slot 0).streams[(7 : BitVec 3).toNat]!.bound = true ∧ swBound.refillBusy 0 7 = false :=
  ⟨by decide +kernel, by decide +kernel, by decide +kernel, by decide +kernel, located_bytes (q := fun bs => !streamDescBad bs) (by decide +kernel),
    located_bytes (q := streamDescBad) (by decide +kernel), by decide +kernel, by decide +kernel, by decide +kernel, by decide +kernel, by decide +kernel,
    by decide +kernel⟩

/-- `ElementsAt`, as a computation. -/
def elementsB (hint : Hint) (u : Use) (eb : Nat) (draw : State → State) : State → List (Nat × Word) → Bool
  | _, [] => true
  | s, e :: es => okWith (locate u (cutGranules 3 e.2 eb) s) fun ps t =>
      same s t && ps.all (fun p => settled t p && !pteCmp p.loc.pte) && elementsB hint u eb draw (afterRead hint (draw t) ps) es

theorem elements_of {hint : Hint} {u : Use} {eb : Nat} {draw : State → State} {es : List (Nat × Word)} :
    ∀ {s : State}, elementsB hint u eb draw s es = true → ∃ pss, ElementsAt hint u eb draw s es pss := by
  induction es with
  | nil => exact fun _ => ⟨[], rfl⟩
  | cons e es ih =>
    intro s h
    obtain ⟨ps, t, h1, h2⟩ := ok_of h
    simp only [Bool.and_eq_true, List.all_eq_true, Bool.not_eq_true'] at h2
    obtain ⟨rest, h3⟩ := ih h2.2
    exact ⟨ps :: rest, ps, rest, t, rfl, ⟨h1, same_of h2.1.1, fun p hp => ⟨settled_of (h2.1.2 p hp).1, fun _ => (h2.1.2 p hp).2⟩⟩, h3⟩

/-- `AllAt`, as a computation. -/
def allAtB (u : Use) (eb : Nat) : State → List (Nat × Word) → List (List Part) → Bool
  | s, [], pss => s.releaseReady && pss.all fun ps => ps.all fun p => settled s p && !pteCmp p.loc.pte
  | s, e :: es, pss => okWith (locate u (cutGranules 3 e.2 eb) s) fun ps t => same s t && allAtB u eb t es (pss ++ [ps])

theorem located_all {u : Use} {eb : Nat} {es : List (Nat × Word)} : ∀ {s : State} {pss : List (List Part)}, allAtB u eb s es pss = true →
    ∃ qss t, LocatedAll u eb s es qss t ∧ t.releaseReady = true ∧ ∀ ps ∈ pss ++ qss, ∀ p ∈ ps, Settled t p ∧ pteCmp p.loc.pte = false := by
  induction es with
  | nil =>
    intro s pss h
    simp only [allAtB, List.all_eq_true, Bool.and_eq_true, Bool.not_eq_true'] at h
    exact ⟨[], s, ⟨rfl, rfl⟩, h.1, fun ps hps p hp => ⟨settled_of (h.2 ps (by simpa using hps) p hp).1, (h.2 ps (by simpa using hps) p hp).2⟩⟩
  | cons e es ih =>
    intro s pss h
    obtain ⟨ps, t, h1, h2⟩ := ok_of h
    simp only [Bool.and_eq_true] at h2
    obtain ⟨qss, v, h3, h4, h5⟩ := ih h2.2
    exact ⟨ps :: qss, v, ⟨ps, qss, t, rfl, h1, same_of h2.1, h3⟩, h4, by simpa using h5⟩

theorem allAt_of {s : State} {u : Use} {eb : Nat} {rel : Prop} {act : List Nat} {f : Nat → Word}
    (h : allAtB u eb s (act.map fun i => (i, f i)) [] = true) : ∃ pss, AllAt s u eb rel act f pss := by
  obtain ⟨pss, t, h1, h3, h2⟩ := located_all h
  exact ⟨pss, t, h1, fun _ => h3, fun ps hps p hp => ⟨(h2 ps (by simpa using hps) p hp).1, fun _ => (h2 ps (by simpa using hps) p hp).2⟩⟩

/-- Every addressing form of a vector load, under the mask 0b0110 in v0: unit, stride 8, indices in v6. -/
theorem witness_VectorLoadsAndStores :
    let s := vw 3
    let c := s.vctx 0 false 1
    let unit (i : Nat) : Word := c.xs + BitVec.ofNat 64 (i * 8)
    let stride (i : Nat) : Word := c.xs + BitVec.ofNat 64 i * s.getX 2
    let index (i : Nat) : Word := c.xs + BitVec.ofNat 64 (c.elem 6 64 i)
    let at_ (f : Nat → Word) : List (Nat × Word) := c.active.map fun i => (i, f i)
    LaneReady s 0 c c.active (some (c.grp 8 64)) [] ∧ (∃ pss, ElementsAt .normal vloadUse 8 id s (at_ unit) pss) ∧
    (∃ pss, ElementsAt .bypass vloadUse 8 id s (at_ stride) pss) ∧
    (∃ pss, ElementsAt .noalloc (scUse .load) 8 (fun u => { u with ticket := u.ticket + 1 }) s (at_ stride) pss) ∧
    s.releaseReady = true ∧ (∀ i ∈ c.active, (stride i).toNat % 32 + 8 ≤ 32) ∧
    LaneReady s 0 c c.active (some (c.grp 8 c.sew)) [c.grp 6 64] ∧ (∃ pss, ElementsAt .normal vloadUse 8 id s (at_ index) pss) ∧
    LaneReady s 0 c c.active none [c.grp 8 64] ∧ (∃ pss, AllAt s vstoreUse 8 False c.active unit pss) ∧
    (∃ pss, AllAt s vstoreUse 8 False c.active stride pss) ∧ (∃ pss, AllAt s (scUse .store) 8 True c.active stride pss) ∧
    LaneReady s 0 c c.active none [c.grp 8 c.sew, c.grp 6 64] ∧ (∃ pss, AllAt s vstoreUse 8 False c.active index pss) :=
  ⟨laneReady_of (by decide +kernel), elements_of (by decide +kernel), elements_of (by decide +kernel), elements_of (by decide +kernel),
    by decide +kernel, by decide +kernel, laneReady_of (by decide +kernel), elements_of (by decide +kernel), laneReady_of (by decide +kernel),
    allAt_of (by decide +kernel), allAt_of (by decide +kernel), allAt_of (by decide +kernel), laneReady_of (by decide +kernel),
    allAt_of (by decide +kernel)⟩

/-- Indices 0, 8, 16, 24 from the data page; flags at 0x2000 and on, of 8 bytes. -/
def vwait (bs : List Byte) : State :=
  vblk 0x18 4 [(0, 6), (6, vec 64 [0, 8, 16, 24]), (10, vec 64 [0x2000, 0x2008, 0x2010, 0x2018])] [(1, 0x2000)] bs

theorem witness_VectorAtomicsAndWaits :
    (let s := vwait []
     let c := s.vctx 0 false 1
     let index (i : Nat) : Word := c.xs + BitVec.ofNat 64 (c.elem 6 64 i)
     s.releaseReady = true ∧ (∃ pss, AllAt s (scUse .store) 8 True c.active index pss) ∧ (∀ i ∈ c.active, (index i).toNat % 32 + 8 ≤ 32) ∧
     LaneReady s 0 c c.active (some (c.grp 8 64)) [c.grp 6 64, c.grp 8 64] ∧ LaneReady s 0 c c.active none [c.grp 8 64, c.grp 6 64]) ∧
    (let s := vwait []
     let c := s.vctx 0 false 0
     let flag (i : Nat) : Word := BitVec.ofNat 64 (c.elem 10 64 i)
     LaneReady s 0 c c.active none [c.grp 8 64, c.grp 10 64] ∧ (c.grp 8 64).overlaps (maskOp 0) = false ∧
     (c.grp 10 64).overlaps (maskOp 0) = false ∧ (s.slot 0).met = false ∧ (s.slot 0).wait = .none ∧
     (let at_ := s.modSlot 0 fun x => { x with wait := .vwait none [] }
      ∃ pss, AllAt at_ { acc := .load, vector := true } 8 True c.active flag pss) ∧ (∀ i ∈ c.active, (flag i).toNat % 32 + 8 ≤ 32) ∧ c.xs = 0) :=
  ⟨⟨by decide +kernel, allAt_of (by decide +kernel), by decide +kernel, laneReady_of (by decide +kernel), laneReady_of (by decide +kernel)⟩,
    laneReady_of (by decide +kernel), by decide +kernel, by decide +kernel, by decide +kernel, by decide +kernel, allAt_of (by decide +kernel),
    by decide +kernel, by decide +kernel⟩

/-- Flags all 0, which v8 expects: the wait is over. A flag of 1: the block sleeps. -/
theorem test_vwait_met : after (.vwait .eq .none .w64 false 8 0 10) (vwait []) (fun t => t.pc == 0x1004 && (t.slot 0).vregs[0] == 0) = true := by
  decide +kernel
theorem test_vwait_sleeps : after (.vwait .eq .none .w64 false 8 0 10) (vwait [0, 0, 0, 0, 0, 0, 0, 0, 1])
    (fun t => t.pc == 0x1000 && (t.slot 0).run == .asleep && (t.slot 0).vregs[0] == 6) = true := by decide +kernel

/-- A region of two words, the second VJOIN, after a VSPLIT at 0x1000: SEW 64, vl 2, v1 selects lane 1. -/
def wSplit (mask : VReg) : State :=
  let s := vblk 0x18 2 [(1, mask)]
  s.setMem (Memory.putAll s.mem (0x100000 + 8) (bytesOfNat 4 vjoinWord.toNat))

def SplitReady (s : State) : Prop :=
  s.power = .on ∧ s.cur = .block 0 ∧ (s.slot 0).threads = none ∧ (s.vctx 0 true 0).vstart < (s.vctx 0 true 0).vl ∧
    (s.vctx 0 true 0).sew = 64 ∧ (s.vctx 0 true 0).lmul = 1 ∧ (1 : Reg).toNat < s.nvreg ∧ (s.slot 0).streamsHere = [] ∧
    (s.slot 0).call = none

theorem splitReady_zero : SplitReady (wSplit 0) := by unfold SplitReady; decide +kernel
theorem splitReady_two : SplitReady (wSplit 2) := by unfold SplitReady; decide +kernel

theorem witness_LaneThreadsSplitAndJoin : SplitReady (wSplit 0) ∧ SplitReady (wSplit 2) ∧
    (∃ ws u, (fetchWords ((wSplit 2).pc + 4) 2).run (wSplit 2) = .ok ws u ∧ ws.getLast? = some vjoinWord ∧ u.libUsed 0 + 2 ≤ 256) ∧
    (∃ ws u, (fetchWords ((wSplit 0).pc + 4) 2).run (wSplit 0) = .ok ws u ∧ ws.getLast? = some vjoinWord ∧ u.libUsed 0 + 2 ≤ 256) ∧
    (vIdle.vctx 0 true 0).vl ≤ (vIdle.vctx 0 true 0).vstart ∧ (wSplit 0).ownLent 0 = false ∧ (wSplit 2).ownLent 0 = false := by
  refine ⟨splitReady_zero, splitReady_two, ?_, ?_, by decide +kernel, by decide +kernel, by decide +kernel⟩
  · have h : okWith ((fetchWords ((wSplit 2).pc + 4) 2).run (wSplit 2)) (fun ws u => ws.getLast? == some vjoinWord && decide (u.libUsed 0 + 2 ≤ 256)) = true := by
      decide +kernel
    obtain ⟨ws, u, h1, h2⟩ := ok_of h
    simp only [Bool.and_eq_true, beq_iff_eq, decide_eq_true_eq] at h2
    exact ⟨ws, u, h1, h2.1, h2.2⟩
  · have h : okWith ((fetchWords ((wSplit 0).pc + 4) 2).run (wSplit 0)) (fun ws u => ws.getLast? == some vjoinWord && decide (u.libUsed 0 + 2 ≤ 256)) = true := by
      decide +kernel
    obtain ⟨ws, u, h1, h2⟩ := ok_of h
    simp only [Bool.and_eq_true, beq_iff_eq, decide_eq_true_eq] at h2
    exact ⟨ws, u, h1, h2.1, h2.2⟩

/-- The last lane thread, and the first of two; a branch to the first and the last word of the region. -/
def wLast : State := blk [] fun x =>
  { x with threads := some ⟨0xFF0, 0x1010, [(0, 0x1000, true), (1, 0x1000, false)], 1, [0, 1], none⟩, lrec := { nvreg := 8 } }

theorem witness_LaneThreadsSplitAndJoin_threads : (wLast.slot 0).threads = some ⟨0xFF0, 0x1010, [(0, 0x1000, true), (1, 0x1000, false)], 1, [0, 1], none⟩ ∧
    scalarRegsOk wLast [7, 0] 0 = true ∧ (∀ l ∈ [((0 : Nat), (0x1000 : Word), true), (1, 0x1000, false)], l.1 ≠ 1 → l.2.2 = true) ∧
    (∃ l ∈ ((wLane.slot 0).threads.map (·.lanes)).getD [], l.1 ≠ 0 ∧ l.2.2 = false) ∧
    ((0xFF0 : Word) + 4).toNat ≤ (wLast.pc + (-3 : BitVec 13).signExtend 64 * 4).toNat ∧
    (wLast.pc + (4 : BitVec 13).signExtend 64 * 4).toNat ≤ (0x1010 : Word).toNat ∧
    (0x1010 : Word).toNat < (wLast.pc + (5 : BitVec 13).signExtend 64 * 4).toNat := by decide +kernel

theorem test_vsplit_selects_a_lane : after (.vsplit 1 2) (wSplit 2) (fun t => t.lane == some 1 && t.pc == 0x1004) = true := by decide +kernel

/-! Tiles -/

/-- A tile record: type, flags (1 fixed, 2 remote), rows, columns, instances, chunk. -/
def rec_ (ty flags rows cols inst chunk : Nat) : TileRec :=
  BitVec.ofNat 256 (ty + flags * 2 ^ 8 + rows * 2 ^ 16 + cols * 2 ^ 32 + inst * 2 ^ 48 + chunk * 2 ^ 96)

/-- A run that leaves the state as it was. -/
theorem pure_of {α : Type} {m : M α} {s : State} {q : α → Bool} (h : okWith (m s) (fun a t => q a && decide (t = s)) = true) :
    ∃ a, m s = .ok a s ∧ q a = true := by
  obtain ⟨a, t, h1, h2⟩ := ok_of h
  simp only [Bool.and_eq_true, decide_eq_true_eq] at h2
  exact ⟨a, by rw [h1, h2.2], h2.1⟩

/-- A room of 16 chunks: t1 fixed f32 8 x 8; t2 renamable f32 8 x 8; t3 renamable f32 16 x 16, two chunks, of which chunk 0
is ready; t4 undefined; t5 renamable f32 8 x 1; t6 remote; t7 fixed f32 8 x 8. x1 at the data page, x2 = 1, x3 = 0. -/
def tw (f : Slot → Slot := id) : State :=
  withBytes [0x0B, 0, 8, 0, 8, 0, 1] [(1, 0x2000), (2, 1), (4, 0x2040), (5, 64), (6, 0x2001), (8, 0x1000)] fun x => f { x with
    roomChunks := 16, accMask := 1, nextId := 5
    tiles := ((((((x.tiles.set 1 (rec_ 11 1 8 8 1 0)).set 2 (rec_ 11 0 8 8 2 0)).set 3 (rec_ 11 0 16 16 1 0)).set 5
      (rec_ 11 0 8 1 1 0)).set 6 (rec_ 11 2 8 8 1 0)).set 7 (rec_ 11 1 8 8 1 1))
    entries := [{ id := 0, name := 3, inst := 0, fixed := false, first := some 4, chunks := 2, pstate := .finished, ready := 1
                  abandoned := 0, current := true }] }

theorem tileBlock_of {s : State} {sl : SlotId} (h : (decide (s.power = .on) && decide (s.cur = .block sl) &&
    decide ((s.slot sl).threads = none) && (s.slot sl).call.isNone && (s.slot sl).rob.isNone) = true) : TileBlock s sl := by
  simpa [TileBlock, and_assoc] using h

theorem tw_block : TileBlock tw 0 := tileBlock_of (by decide +kernel)

/-- At 0x2000 a record of no row. -/
def twBad : State := withBytes [0x0B, 0, 0, 0, 8, 0, 1] [(1, 0x2000)] fun x => { x with
    roomChunks := 16, tiles := x.tiles.set 1 (rec_ 11 1 8 8 1 0) }

/-- TDEF at 0x2000: a good record, and one of no row; name 2 renamable, name 1 fixed, which the records would move. -/
theorem witness_TileRecordsAndNames : TileBlock tw 0 ∧ TileBlock twBad 0 ∧ (1 : Reg) ≠ 0 ∧ (tw.getX 1).toNat % 32 = 0 ∧
    (∃ ps s1, LocatedAt tw (scalarUse .load) (tw.getX 1) 32 false ps s1 ∧
      (let new : TileRec := BitVec.ofNat 256 (natOfBytes (partBytes tw.mem ps))
       decide (new ≠ 0) && decide (recReason (tw.slot 0).roomChunks new = none) && !recRemote new &&
         decide (recField new 1 1 ≠ recField (tw.slot 0).tiles[(1 : TName).toFin] 1 1)) = true) ∧
    recFixed (tw.slot 0).tiles[(2 : TName).toFin] = false ∧ recFixed (tw.slot 0).tiles[(1 : TName).toFin] = true ∧
    (∃ ps s1, LocatedAt twBad (scalarUse .load) (twBad.getX 1) 32 false ps s1 ∧
      (let new : TileRec := BitVec.ofNat 256 (natOfBytes (partBytes twBad.mem ps))
       decide (new ≠ 0) && (recReason (twBad.slot 0).roomChunks new).any fun k => decide (k ≤ 6)) = true) ∧
    (∃ ps s1, LocatedAt tw (scalarUse .load) (tw.getX 4) 32 false ps s1 ∧
      decide ((BitVec.ofNat 256 (natOfBytes (partBytes tw.mem ps)) : TileRec) = 0) = true) :=
  ⟨tw_block, tileBlock_of (by decide +kernel), by decide, by decide +kernel,
    located_bytes (q := fun bs => decide ((BitVec.ofNat 256 (natOfBytes bs) : TileRec) ≠ 0) &&
      decide (recReason (tw.slot 0).roomChunks (BitVec.ofNat 256 (natOfBytes bs)) = none) && !recRemote (BitVec.ofNat 256 (natOfBytes bs)) &&
      decide (recField (BitVec.ofNat 256 (natOfBytes bs)) 1 1 ≠ recField (tw.slot 0).tiles[(1 : TName).toFin] 1 1)) (by decide +kernel),
    by decide +kernel, by decide +kernel,
    located_bytes (q := fun bs => decide ((BitVec.ofNat 256 (natOfBytes bs) : TileRec) ≠ 0) &&
      (recReason (twBad.slot 0).roomChunks (BitVec.ofNat 256 (natOfBytes bs))).any fun k => decide (k ≤ 6)) (by decide +kernel),
    located_bytes (q := fun bs => decide ((BitVec.ofNat 256 (natOfBytes bs) : TileRec) = 0)) (by decide +kernel)⟩

/-- The sets of TWAIT: all of t3's chunks (ra = x0), chunk 0 alone (x2 = 1); chunk 1 abandoned in the second state. -/
def twGone : State := tw fun x => { x with entries := x.entries.map fun e => { e with abandoned := 2 } }

/-- t3 as TWAIT reads it: two chunks, of which chunk 0 is ready. -/
def t3Ref (s : State) (gone : Bool) (r : TileRef) : Bool :=
  !recRemote r.shape && recChunks r.shape == 2 && (s.slot 0).chunkReady r 0 && !(s.slot 0).chunkReady r 1 &&
    !(s.slot 0).chunkAbandoned r 0 && (s.slot 0).chunkAbandoned r 1 == gone

theorem witness_TileWaitsAndChecks_reads : (∃ r, readTile 0 3 tw = .ok r tw ∧ t3Ref tw false r = true) ∧
    (∃ r, readTile 0 3 twGone = .ok r twGone ∧ t3Ref twGone true r = true) := by
  have h1 : okWith (readTile 0 3 tw) (fun a t => t3Ref tw false a && decide (t = tw)) = true := by decide +kernel
  have h2 : okWith (readTile 0 3 twGone) (fun a t => t3Ref twGone true a && decide (t = twGone)) = true := by decide +kernel
  exact ⟨pure_of h1, pure_of h2⟩

theorem witness_TileWaitsAndChecks_remote : recRemote (tw.slot 0).tiles[(6 : TName).toFin] = true ∧
    recReason (tw.slot 0).roomChunks (tw.slot 0).tiles[(6 : TName).toFin] = none := by decide +kernel

theorem witness_TileWaitsAndChecks : TileBlock tw 0 ∧ TileBlock twGone 0 ∧ (tw.getX 2).getLsbD 0 = true ∧ (tw.getX 2).getLsbD 1 = false ∧
    (31 : Reg).toNat < tw.nvreg ∧ (tw.slot 0).streamsHere = [] :=
  ⟨tw_block, tileBlock_of (by decide +kernel), by decide +kernel, by decide +kernel, by decide +kernel, by decide +kernel⟩

/-- Barrier 15 is the launch's own; the block waits at it from generation 5; a write of the block has failed. -/
def twBar : State := tw fun x => { x with lrec := { x.lrec with barriers := 0x8000 } }
def twLeft : State := tw fun x => { x with lrec := { x.lrec with barriers := 0x8000 }, wait := .tbar 15 5 }
def twFailed : State := tw fun x => { x with failed := some ⟨0x1000, none, none, 0x2000, 0x12⟩ }
def twBack : State := tw fun x => { x with wait := .tlaunch 0x2000 9 (some 7) }

theorem witness_TileSignalsAndEnds : TileBlock tw 0 ∧ tw.commandsDone 0 = true ∧ (tw.slot 0).failed = none ∧ (tw.getX 1).toNat % 8 = 0 ∧
    (∃ l, AtomicAt tw .store .none (tw.getX 1) 8 l) ∧ (tw.getX 6).toNat % 8 ≠ 0 ∧ (TileBlock twFailed 0 ∧ twFailed.commandsDone 0 = true ∧
      (twFailed.slot 0).failed = some ⟨0x1000, none, none, 0x2000, 0x12⟩ ∧ twFailed.slotBusy 0 = false) ∧
    (tw.slot 0).lrec.barriers.getLsbD 15 = false ∧ tw.slotBusy 0 = false ∧ tw.eventRoom 0 = true ∧ (tw.slot 0).wait = .none ∧
    (TileBlock twBack 0 ∧ twBack.commandsDone 0 = true ∧ (twBack.slot 0).wait = .tlaunch 0x2000 9 (some 7)) :=
  ⟨tw_block, by decide +kernel, by decide +kernel, by decide +kernel, atomic_of (by decide +kernel), by decide +kernel,
    ⟨tileBlock_of (by decide +kernel), by decide +kernel, by decide +kernel, by decide +kernel⟩, by decide +kernel, by decide +kernel,
    by decide +kernel, by decide +kernel, tileBlock_of (by decide +kernel), by decide +kernel, by decide +kernel⟩

/-- Arrivals: of none (x3 = 0), the last of one (x2 = 1), the first of 32 (x5 = 64); a generation that has passed. -/
theorem witness_TileSignalsAndEnds_barriers : TileBlock twBar 0 ∧ twBar.commandsDone 0 = true ∧
    (twBar.slot 0).lrec.barriers.getLsbD 15 = true ∧ (twBar.slot 0).wait = .none ∧ (twBar.slot 0).failed = none ∧
    (let old := (twBar.cluster 0).xr.barrier 15
     Min.min (twBar.getX 3).toNat 32 = 0 ∧ (0 < Min.min (twBar.getX 2).toNat 32 ∧
       (if old.arrivals = 0 then Min.min (twBar.getX 2).toNat 32 else old.n) ≤ old.arrivals + 1) ∧
     (0 < Min.min (twBar.getX 5).toNat 32 ∧ old.arrivals + 1 < if old.arrivals = 0 then Min.min (twBar.getX 5).toNat 32 else old.n)) ∧
    TileBlock twLeft 0 ∧ (twLeft.slot 0).wait = .tbar 15 5 ∧ ((twLeft.cluster 0).xr.barrier 15).gen ≠ 5 :=
  ⟨tileBlock_of (by decide +kernel), by decide +kernel, by decide +kernel, by decide +kernel, by decide +kernel, by decide +kernel,
    tileBlock_of (by decide +kernel), by decide +kernel, by decide +kernel⟩

/-- What `Commits` asks of the operands captured in `u`: nothing older uses a fixed destination, there is room, the function
or the parameter block is read. -/
def Ready (s : State) (sl : SlotId) (u : State) (pre : SlotId → TileInstr → M TileInstr) (op : TileOp) (td ta tb : Option TileRef)
    (ranges : List (Word × Nat)) : Prop :=
  let t : TileInstr := { id := (u.slot sl).nextId, pc := s.pc, op := op, td := td, ta := ta, tb := tb, ranges := ranges }
  let w := (u.modSlot sl fun x => { x with nextId := x.nextId + 1 }).modSlot sl fun x => { x with rob := some t }
  ∃ (v v' : State) (t' : TileInstr), fixedWait sl t w = .ok () w ∧
    (match td with | none => v = w | some r => allocRoom sl r w = .ok () v) ∧ pre sl t v = .ok t' v'

def readyB (s : State) (sl : SlotId) (u : State) (pre : SlotId → TileInstr → M TileInstr) (op : TileOp) (td ta tb : Option TileRef)
    (ranges : List (Word × Nat)) : Bool :=
  let t : TileInstr := { id := (u.slot sl).nextId, pc := s.pc, op := op, td := td, ta := ta, tb := tb, ranges := ranges }
  let w := (u.modSlot sl fun x => { x with nextId := x.nextId + 1 }).modSlot sl fun x => { x with rob := some t }
  okWith (fixedWait sl t w) (fun _ x => decide (x = w)) &&
    (match td with
      | none => okWith (pre sl t w) fun _ _ => true
      | some r => okWith (allocRoom sl r w) fun _ v => okWith (pre sl t v) fun _ _ => true)

theorem ready_of {s : State} {sl : SlotId} {u : State} {pre : SlotId → TileInstr → M TileInstr} {op : TileOp} {td ta tb : Option TileRef}
    {ranges : List (Word × Nat)} (h : readyB s sl u pre op td ta tb ranges = true) : Ready s sl u pre op td ta tb ranges := by
  simp only [readyB, Bool.and_eq_true] at h
  obtain ⟨h1, h2⟩ := h
  obtain ⟨⟨⟩, x, h3, h4⟩ := ok_of h1
  simp only [decide_eq_true_eq] at h4
  subst h4
  cases td with
  | none =>
    obtain ⟨t', v', h5, -⟩ := ok_of h2
    exact ⟨_, v', t', h3, rfl, h5⟩
  | some r =>
    obtain ⟨⟨⟩, v, h5, h6⟩ := ok_of h2
    obtain ⟨t', v', h7, -⟩ := ok_of h6
    exact ⟨v, v', t', h3, h5, h7⟩

/-- A destination that is taken, with a test of what it is and of the state then. -/
theorem takes_of {s : State} {sl : SlotId} {n : TName} {q : TileRef → State → Bool}
    (h : okWith (destTile sl n s) (fun r t => decide (t = s) && okWith (takeEntry sl r s) q) = true) :
    ∃ d u, Takes s sl n d u ∧ q d u = true := by
  obtain ⟨r, t, h1, h2⟩ := ok_of h
  simp only [Bool.and_eq_true, decide_eq_true_eq] at h2
  obtain ⟨d, u, h3, h4⟩ := ok_of h2.2
  exact ⟨d, u, ⟨r, by rw [h1, h2.1], h3⟩, h4⟩

/-- t1 as it is read. -/
def t1Ref : TileRef := ⟨1, rec_ 11 1 8 8 1 0, none⟩

theorem read_of {s t : State} {n : TName} {r : TileRef} (h : okWith (readTile 0 n s) (fun a u => a == r && decide (u = t)) = true) (e : t = s) :
    readTile 0 n s = .ok r s := by
  obtain ⟨a, u, h1, h2⟩ := ok_of h
  simp only [Bool.and_eq_true, beq_iff_eq, decide_eq_true_eq] at h2
  rw [h1, h2.1, h2.2, e]

theorem read_t1 : readTile 0 1 tw = .ok t1Ref tw := read_of (t := tw) (by decide +kernel) rfl

theorem gate_of {s : State} {n : TName} {ty : Ty} {load : Bool} (h : okWith (convGate 0 n ty load s) (fun _ u => decide (u = s)) = true) :
    convGate 0 n ty load s = .ok () s := by
  obtain ⟨⟨⟩, u, h1, h2⟩ := ok_of h
  simp only [decide_eq_true_eq] at h2
  rw [h1, h2]

theorem witness_TileCopiesAreCommitted : TileBlock tw 0 ∧ convGate 0 2 .f16 true tw = .ok () tw ∧ convGate 0 1 .f16 false tw = .ok () tw ∧
    (∃ d u, Takes tw 0 2 d u ∧ (readyB tw 0 u keep (.load .normal false .f16 0x2000 16) (some d) none none
        (plainGeom d.shape .f16 0x2000 16).ranges && readyB tw 0 u keep (.copy false) (some d) (some t1Ref) none [] &&
      readyB tw 0 u keep (.zero false) (some d) none none [] && recRows d.shape == recRows t1Ref.shape &&
      recCols d.shape == recCols t1Ref.shape && convOk (recTy t1Ref.shape) (recTy d.shape) && recsEqual d.shape t1Ref.shape &&
      recTy t1Ref.shape != .lg6 && readyB tw 0 u keep (.coll .normal false .sum 0x2000 1) (some d) (some t1Ref) none
        [(0x2000, 64 + collN 1 * packedBytes t1Ref.shape)]) = true) ∧
    readTile 0 1 tw = .ok t1Ref tw ∧ Ready tw 0 tw keep (.store .normal false .f16 0x2000 16) none (some t1Ref) none
      (plainGeom t1Ref.shape .f16 0x2000 16).ranges ∧ (tw.getX 1).toNat % 64 = 0 :=
  ⟨tw_block, gate_of (by decide +kernel), gate_of (by decide +kernel), takes_of (q := fun d u =>
      readyB tw 0 u keep (.load .normal false .f16 0x2000 16) (some d) none none
        (plainGeom d.shape .f16 0x2000 16).ranges && readyB tw 0 u keep (.copy false) (some d) (some t1Ref) none [] &&
      readyB tw 0 u keep (.zero false) (some d) none none [] && recRows d.shape == recRows t1Ref.shape &&
      recCols d.shape == recCols t1Ref.shape && convOk (recTy t1Ref.shape) (recTy d.shape) && recsEqual d.shape t1Ref.shape &&
      recTy t1Ref.shape != .lg6 && readyB tw 0 u keep (.coll .normal false .sum 0x2000 1) (some d) (some t1Ref) none
        [(0x2000, 64 + collN 1 * packedBytes t1Ref.shape)]) (by decide +kernel),
    read_t1, ready_of (by decide +kernel), by decide +kernel⟩

/-- A parameter block for an 8 x 8 f32 copy of generation 7, held by the Porter for 0x2000 and 0x2080; firmware operation 7. -/
def pb8 : PBlock := BitVec.ofNat 1024 (7 + 2 * 2 ^ 16 + 11 * 2 ^ 24 + 0x2000 * 2 ^ 64 + 8 * 2 ^ 192 + 8 * 2 ^ 224 + 8 * 2 ^ 512 +
  8 * 2 ^ 528 + 32 * 2 ^ 640)
def twPb : State := tw.modCluster 0 fun c => { c with porter := { c.porter with pbcache := [(0, 0x2000, pb8), (0, 0x2080, pb8)], fwops := 0x80 } }

theorem read_t1_pb : readTile 0 1 twPb = .ok t1Ref twPb := read_of (t := twPb) (by decide +kernel) rfl

/-- The .pb forms; TCOLL gather of one participant; a firmware collective. -/
theorem witness_TileCopiesAreCommitted_pb : TileBlock twPb 0 ∧
    (∃ d u, Takes twPb 0 2 d u ∧ (readyB twPb 0 u pbCommit (.loadPb .normal false 0x2000 7) (some d) none none [] &&
      recLen d.shape == recLen t1Ref.shape && recLines d.shape == collN 1 * recLines t1Ref.shape &&
      readyB twPb 0 u keep (.coll .normal false .gather 0x2000 1) (some d) (some t1Ref) none [(0x2000, 64 + collN 1 * packedBytes t1Ref.shape)] &&
      readyB twPb 0 u keep (.coll .normal false (.fw 7) 0x2000 1) (some d) (some t1Ref) none [(0x2000, 64 + collN 1 * packedBytes t1Ref.shape)]) = true) ∧
    readTile 0 1 twPb = .ok t1Ref twPb ∧ Ready twPb 0 twPb pbCommit (.storePb .normal false 0x2000 7) none (some t1Ref) none [] ∧
    Ready twPb 0 twPb pbCommit (.copyPb .normal false 0x2000 7) none none none [] ∧
    (twPb.cluster ((twPb.servingPorter (slotCluster 0)).getD (slotCluster 0))).porter.fwops.getLsbD 7 = true :=
  ⟨tileBlock_of (by decide +kernel), takes_of (q := fun d u =>
      readyB twPb 0 u pbCommit (.loadPb .normal false 0x2000 7) (some d) none none [] &&
      recLen d.shape == recLen t1Ref.shape && recLines d.shape == collN 1 * recLines t1Ref.shape &&
      readyB twPb 0 u keep (.coll .normal false .gather 0x2000 1) (some d) (some t1Ref) none [(0x2000, 64 + collN 1 * packedBytes t1Ref.shape)] &&
      readyB twPb 0 u keep (.coll .normal false (.fw 7) 0x2000 1) (some d) (some t1Ref) none [(0x2000, 64 + collN 1 * packedBytes t1Ref.shape)])
      (by decide +kernel),
    read_t1_pb, ready_of (by decide +kernel), ready_of (by decide +kernel), by decide +kernel⟩

def t7Ref : TileRef := ⟨7, rec_ 11 1 8 8 1 1, none⟩
theorem read_t7 : readTile 0 7 tw = .ok t7Ref tw := read_of (t := tw) (by decide +kernel) rfl

theorem check_of {s : State} {m : M Unit} (h : okWith (m s) (fun _ u => decide (u = s)) = true) : m s = .ok () s := by
  obtain ⟨⟨⟩, u, h1, h2⟩ := ok_of h
  simp only [decide_eq_true_eq] at h2
  rw [h1, h2]

theorem witness_TileMatrixAndMapsAreCommitted : TileBlock tw 0 ∧ readTile 0 1 tw = .ok t1Ref tw ∧ readTile 0 7 tw = .ok t7Ref tw ∧
    (0 : Acc).toNat < (tw.slot 0).accCount ∧ (mmaCheck 0 none t1Ref t7Ref tw = .ok () tw ∧ mmaCheck 1 none t1Ref t7Ref tw = .ok () tw ∧
      mmaCheck 2 none t1Ref t7Ref tw = .ok () tw) ∧
    (∀ k ∈ [(0 : BitVec 2), 1, 2], readyB tw 0 tw keep (.mma k true false 0 tw.hart.tshape) none (some t1Ref) (some t7Ref) [] = true) ∧
    (∃ d u, Takes tw 0 2 d u ∧ ([(0 : BitVec 2), 1, 2].all (fun k =>
        okWith (mmaCheck k (some { d with entry := none }) t1Ref t7Ref tw) (fun _ x => decide (x = tw)) &&
        readyB tw 0 u keep (.mma k true true 0 tw.hart.tshape) (some d) (some t1Ref) (some t7Ref) []) &&
      fnWidth (recTy d.shape) == fnWidth (recTy t1Ref.shape) && recRows d.shape == recRows t1Ref.shape &&
      recCols d.shape == recCols t1Ref.shape && readyB tw 0 u mapLoad (.map false 0 false (tw.getX 8 &&& ~~~3) 0) (some d) (some t1Ref) none [] &&
      readyB tw 0 u mapLoad (.map false 0 true (tw.getX 8 &&& ~~~3) 0) (some d) (some t1Ref) (some t7Ref) []) = true) ∧
    (∃ d u, Takes tw 0 5 d u ∧ (recLines d.shape == recLines t1Ref.shape && recLen d.shape == 1 &&
      readyB tw 0 u mapLoad (.map true 0 false (tw.getX 8 &&& ~~~3) 0) (some d) (some t1Ref) none [] &&
      readyB tw 0 u mapLoad (.map true 0 true (tw.getX 8 &&& ~~~3) 0) (some d) (some t1Ref) (some t7Ref) []) = true) :=
  ⟨tw_block, read_t1, read_t7, by decide +kernel, ⟨check_of (by decide +kernel), check_of (by decide +kernel), check_of (by decide +kernel)⟩,
    by decide +kernel, takes_of (q := fun d u => [(0 : BitVec 2), 1, 2].all (fun k =>
        okWith (mmaCheck k (some { d with entry := none }) t1Ref t7Ref tw) (fun _ x => decide (x = tw)) &&
        readyB tw 0 u keep (.mma k true true 0 tw.hart.tshape) (some d) (some t1Ref) (some t7Ref) []) &&
      fnWidth (recTy d.shape) == fnWidth (recTy t1Ref.shape) && recRows d.shape == recRows t1Ref.shape &&
      recCols d.shape == recCols t1Ref.shape && readyB tw 0 u mapLoad (.map false 0 false (tw.getX 8 &&& ~~~3) 0) (some d) (some t1Ref) none [] &&
      readyB tw 0 u mapLoad (.map false 0 true (tw.getX 8 &&& ~~~3) 0) (some d) (some t1Ref) (some t7Ref) []) (by decide +kernel),
    takes_of (q := fun d u => recLines d.shape == recLines t1Ref.shape && recLen d.shape == 1 &&
      readyB tw 0 u mapLoad (.map true 0 false (tw.getX 8 &&& ~~~3) 0) (some d) (some t1Ref) none [] &&
      readyB tw 0 u mapLoad (.map true 0 true (tw.getX 8 &&& ~~~3) 0) (some d) (some t1Ref) (some t7Ref) []) (by decide +kernel)⟩

/-- Bad records: t4 undefined, t6 remote as a destination; an accumulator the block lacks; a lane thread, a call. -/
theorem witness_ChecksRaiseTheirTraps_tiles : TileBlock tw 0 ∧ recReason (tw.slot 0).roomChunks (tw.slot 0).tiles[(4 : TName).toFin] = some 1 ∧
    (recReason (tw.slot 0).roomChunks (tw.slot 0).tiles[(6 : TName).toFin] = none ∧ recRemote (tw.slot 0).tiles[(6 : TName).toFin] = true) ∧
    (tw.slot 0).accCount ≤ (1 : Acc).toNat ∧ (wLane.slot 0).threads ≠ none ∧ wLane.cur = .block 0 :=
  ⟨tw_block, by decide +kernel, by decide +kernel, by decide +kernel, by decide +kernel, by decide +kernel⟩

/-- A TSEND of t1 to core 1, slot 5, channel 3; its postings at core 1 by slot 4 for t1's like; then the TSEND that is bound,
all of its chunk sent. -/
def xw (f : Slot → Slot := id) (g : Crossroads → Crossroads := id) : State :=
  let s := tw fun x => f { x with lrec := { x.lrec with exslots := 0x20 }
                                  hart := { x.hart with x := (x.hart.x.set 10 2).set 11 0x20 } }
  let s := s.modSlot 4 fun x => { x with run := .running, roomChunks := 16, work :=
    [{ id := 9, pc := 0, op := .recv 0 3, td := some ⟨1, rec_ 11 1 8 8 1 0, none⟩ }] }
  (s.modCore 1 fun c => { c with postings := [⟨4, 3, 0, 9, none⟩] }).modCluster 0 fun c => { c with xr := g c.xr }

theorem read_t1_x : readTile 0 1 xw = .ok t1Ref xw := read_of (t := xw) (by decide +kernel) rfl

theorem witness_ExchangeResults : TileBlock xw 0 ∧ readTile 0 1 xw = .ok t1Ref xw ∧ TileBlock tw 0 ∧
    ((tw.getX 3).truncate 8 : BitVec 8) = 0 ∧ (tw.cluster 0).xr.sends = [] ∧
    (((xw.getX 10).truncate 8 : BitVec 8) ≠ 0 ∧ xw.getX 11 ≠ 0 ∧ xw.getX 11 &&& ~~~(xw.slot 0).lrec.exslots = 0 ∧
      (∀ m ∈ (xw.cluster 0).xr.sends, m.slot = 0 → m.instr ≠ (xw.slot 0).nextId) ∧
      (∀ i < recChunks t1Ref.shape, (xw.slot 0).chunkReady t1Ref i = true ∧ (xw.slot 0).chunkAbandoned t1Ref i = false) ∧
      xw.coreGone 1 = false ∧ (∀ i < 8, ((xw.getX 10).truncate 8 : BitVec 8).getLsbD i = true ↔ i = 1) ∧
      ((xw.openPosting 1 3).bind fun p => (xw.postedTile p).map fun e => p.src.toNat == slotCore 0 % 8 && sendMatch t1Ref.shape e.shape) = some true) :=
  ⟨tileBlock_of (by decide +kernel), read_t1_x, tw_block, by decide +kernel, by decide +kernel, by decide +kernel⟩

/-- The bound TSEND whose one chunk is out. -/
def xwSent : State := xw (fun x => { x with rob := some { id := 5, pc := 0x1000, op := .send 2 0x20 3, ta := some t1Ref } })
  (fun x => { x with sends := [⟨0, 5, 2, 0x20, 3, 1, true⟩] })

theorem witness_ExchangeResults_sent : xwSent.power = .on ∧ xwSent.cur = .block 0 ∧ (xwSent.slot 0).threads = none ∧
    (xwSent.slot 0).call = none ∧ (xwSent.slot 0).rob = some { id := 5, pc := 0x1000, op := .send 2 0x20 3, ta := some t1Ref } ∧
    (xwSent.cluster 0).xr.sends.find? (fun n => n.slot == 0 && n.instr == 5) = some ⟨0, 5, 2, 0x20, 3, 1, true⟩ ∧ recChunks t1Ref.shape ≤ 1 := by
  decide +kernel

/-- A TRECV into t2 from core 0, channel 3: none open; one open. -/
def xwOpen : State := tw.modCore 0 fun c => { c with postings := [⟨0, 3, 0, 2, none⟩] }

theorem witness_ExchangeResults_recv : TileBlock tw 0 ∧ tw.coreGone ((tw.getX 3).truncate 3 : BitVec 3).toNat = false ∧
    (∃ d u, Takes tw 0 2 d u ∧ readyB tw 0 u keep (.recv 0 3) (some d) none none [] = true) ∧ (tw.core 0).postings = [] ∧
    TileBlock xwOpen 0 ∧ (∃ p ∈ (xwOpen.core 0).postings, p.ch = 3) ∧
    (∃ d u, Takes xwOpen 0 2 d u ∧ readyB xwOpen 0 u keep (.recv 0 3) (some d) none none [] = true) :=
  ⟨tw_block, by decide +kernel, takes_of (q := fun d u => readyB tw 0 u keep (.recv 0 3) (some d) none none []) (by decide +kernel),
    by decide +kernel, tileBlock_of (by decide +kernel), by decide +kernel,
    takes_of (q := fun d u => readyB xwOpen 0 u keep (.recv 0 3) (some d) none none []) (by decide +kernel)⟩

/-- Granules at 0x2000; lengths 0, 64 and 2^24 + 32; an address and a length that are no multiples of 32. -/
def dw : State := withBytes [1, 2, 3] [(1, 0x2000), (2, 64), (3, 33), (4, 0x1000020), (5, 0x2008)]

theorem witness_DiscardedGranulesReadZero : TileBlock dw 0 ∧ (dw.getX 0).toNat = 0 ∧ (dw.getX 3).toNat % 32 ≠ 0 ∧
    (dw.getX 5).toNat % 32 ≠ 0 ∧ (2 ^ 24 < (dw.getX 4).toNat ∧ (dw.getX 4).toNat % 32 = 0) ∧
    ((dw.getX 2).toNat ≠ 0 ∧ (dw.getX 2).toNat ≤ 2 ^ 24 ∧ (dw.getX 1).toNat % 32 = 0 ∧ (dw.getX 2).toNat % 32 = 0) ∧
    ∃ ps s1, discardParts (cutGranules ((dw.getX 2).toNat / 32) (dw.getX 1) (dw.getX 2).toNat) dw = .ok ps s1 ∧ Same dw s1 ∧
      ∀ p ∈ ps, p.loc.pa % 32 = 0 ∧ s1.gateOpen (s1.src p.loc.pa) p.loc.pa = true := by
  have h : okWith (discardParts (cutGranules ((dw.getX 2).toNat / 32) (dw.getX 1) (dw.getX 2).toNat) dw) (fun ps t =>
      same dw t && ps.all fun p => decide (p.loc.pa % 32 = 0 ∧ t.gateOpen (t.src p.loc.pa) p.loc.pa = true)) = true := by decide +kernel
  obtain ⟨ps, t, h1, h2⟩ := ok_of h
  simp only [Bool.and_eq_true, List.all_eq_true, decide_eq_true_eq] at h2
  exact ⟨tileBlock_of (by decide +kernel), by decide +kernel, by decide +kernel, by decide +kernel, by decide +kernel, by decide +kernel,
    ps, t, h1, same_of h2.1, h2.2⟩

/-- A block whose launch holds the helm; with 16 plan entries; one whose launch does not hold it. Targets 30 and 63. -/
def fw_ (n : Nat) : State := { tw with ferry := { tw.ferry with helm := some (0, 0), plan := List.replicate n ⟨24, 0, 0⟩ } }

theorem witness_FerryResults_bias : TileBlock tw 0 ∧ tw.ferry.helm ≠ some ((tw.slot 0).queue, (tw.slot 0).number) ∧ TileBlock (fw_ 16) 0 ∧
    (fw_ 16).ferry.helm = some (((fw_ 16).slot 0).queue, ((fw_ 16).slot 0).number) ∧ (fw_ 16).ferry.plan.length = 16 ∧
    TileBlock (fw_ 15) 0 ∧ (fw_ 15).ferry.plan.length ≠ 16 :=
  ⟨tw_block, by decide +kernel, tileBlock_of (by decide +kernel), by decide +kernel, by decide +kernel, tileBlock_of (by decide +kernel),
    by decide +kernel⟩

/-! Stewards -/

/-- Steward 0 has the turn: x1 at its local memory, x2 outside it, x4 = 4 (core 1, slot 0), an image address in x5, x6 = 4. A block
runs in slot 0 of core 0, slot 4 is being evicted where `ev`. -/
def sg (ev : Bool := false) : State :=
  let s := { w0 with cur := .steward 0 }
  let s := s.modSteward 0 fun w => { w with hart := { w.hart with
    x := ((((w.hart.x.set 1 (BitVec.ofNat 64 (clusterBase 0))).set 2 0x2000).set 4 0x4).set 5 0x5000).set 6 4 } }
  if ev then s.modSlot 4 fun x => { x with run := .evicting } else s

/-- A record at the head of the event queue of cluster 0. -/
def withEvent (s : State) (e : EventRec) : State :=
  (s.setMem (Memory.putAll s.mem (eventPA 0 0) e.bytes)).modCluster 0 fun c => { c with tail := 1 }

/-- A launch of queue 0. -/
def l1 : Launch := { queue := 0, number := 1, recVA := 0x5000, ctx := 0, lrec := { lanesMax := 2 }, ready := true, sent := 1 }
def withLaunch (s : State) (l : Launch := l1) : State := { s with disp := { s.disp with launches := [l] } }

theorem witness_StewardInstructionResults : sg.power = .on ∧ sg.cur = .steward 0 ∧ inLocal 0 (sg.getX 2) 32 = false ∧
    inLocal 0 (sg.getX 1) 32 = true ∧ (sg.cluster 0).count = 0 ∧ ((withEvent sg { typ := 2 }).cluster 0).count ≠ 0 ∧
    (sg.getX 1).toNat % 32 = 0 ∧ (sg.cluster 0).steward.wait = none ∧ sg.getX 2 ≠ 0 ∧ (sg.getX 5).toNat % 4096 = 0 ∧
    (sg.slot (slotOf ((sg.getX 4).toNat / 4 % 8) ((sg.getX 4).toNat % 4))).run = .empty ∧
    ((sg true).slot (slotOf ((sg.getX 4).toNat / 4 % 8) ((sg.getX 4).toNat % 4))).run = .evicting ∧
    (sg.slot (slotOf ((sg.getX 0).toNat / 4 % 8) ((sg.getX 0).toNat % 4))).run = .running ∧ inLocal 0 (sg.getX 1) 64 = true ∧
    (∀ a : Nat, a < 2 → sg.coreGone a = false) ∧ (sg.modCore 1 fun c => { c with fenced := true }).coreGone 1 = true ∧
    sg.tlbBusy 0 (sg.getX 1) (sg.getX 2) = false ∧
    ((sg.modCore 0 fun c => { c with hints := [(0x200, 0)] }).tlbBusy 0 (sg.getX 0) (sg.getX 0)) = true := by
  decide +kernel

/-- A CQPUSH summary of launch 1 of queue 0 at the start of local memory, which the Dispatcher knows or not. -/
def wSum : State := { sg with mem := Memory.putAll sg.mem (clusterBase 0) [1] }
theorem witness_StewardInstructionResults_summary :
    (let bs := Memory.bytes wSum.mem (wSum.getX 1).toNat 64
     fieldAt bs 4 1 < 64 ∧ wSum.disp.launches = [] ∧ ∃ l ∈ (withLaunch wSum).disp.launches, l.queue = BitVec.ofNat 6 (fieldAt bs 4 1) ∧
       l.number = BitVec.ofNat 32 (fieldAt bs 0 4) ∧ l.refused = none) := by decide +kernel

/-- A SLOTASSIGN descriptor: core and slot, grant, record address 0x5000, work identifier 1. -/
def wAssign (cs grant : Byte) (known : Bool) : State :=
  let s := withLaunch (sg.setMem (Memory.putAll sg.mem (clusterBase 0) ([cs, grant, 0, 0, 0, 0, 0, 0] ++ bytesOfNat 8 0x5000 ++ [1])))
  if known then s.modCluster 0 fun c => { c with pending := [{ queue := 0, number := 1, wid := 1, recVA := 0x5000, level := 0, since := 0 }] } else s

def assignHere (s : State) : Assign := (assignOf (Memory.bytes s.mem (s.getX 1).toNat 64)).1
def slotHere (s : State) : SlotId := slotOf (assignHere s).core (assignHere s).slot

theorem witness_StewardInstructionResults_assign :
    (inLocal 0 ((wAssign 1 1 true).getX 1) 64 = true ∧ ((wAssign 1 1 true).getX 1).toNat % 64 = 0 ∧ (wAssign 1 1 true).cur = .steward 0) ∧
    ((wAssign 0 1 true).slot (slotHere (wAssign 0 1 true))).run ≠ .empty ∧
    (let s := (wAssign 1 1 true).modCore 1 fun c => { c with fused := true }
     (s.slot (slotHere s)).run = .empty ∧ s.coreGone (assignHere s).core = true) ∧
    (let s := wAssign 1 1 false
     (s.slot (slotHere s)).run = .empty ∧ s.coreGone (assignHere s).core = false ∧ s.pendingFor 0 (assignHere s) = none) ∧
    (let s := wAssign 8 16 true
     (s.slot (slotHere s)).run = .empty ∧ s.coreGone (assignHere s).core = false ∧
     (s.pendingFor 0 (assignHere s)).map (fun e => s.assignFits (slotHere s) (assignHere s) e.2.lrec) = some false) ∧
    (let s := wAssign 1 2 true
     (s.slot (slotHere s)).run = .empty ∧ s.coreGone (assignHere s).core = false ∧
     (assignOf (Memory.bytes s.mem (s.getX 1).toNat 64)).2 = false ∧ (assignHere s).resume = false ∧
     (s.pendingFor 0 (assignHere s)).map (fun e => s.assignFits (slotHere s) (assignHere s) e.2.lrec && !e.1.aborted &&
       popcount4 (assignHere s).acc == e.2.lrec.acc.toNat && decide (e.2.lrec.lanesMin.toNat ≤ (assignHere s).grant) &&
       decide ((assignHere s).grant ≤ e.2.lrec.lanesMax.toNat)) = some true) := by decide +kernel

/-! The vendor firmware -/

def headTyp (s : State) : Option (BitVec 8) := (s.headEvent 0).map (·.typ)

/-- DONE of launch 1. -/
theorem witness_StewardFirmwareSteps_done : let s := withLaunch (withEvent w0 { typ := 2, number := 1 })
    s.power = .on ∧ s.vendor 0 = true ∧ s.headEvent 0 = some { typ := 2, number := 1 } ∧ s.launchOf ((0 : BitVec 8).truncate 6) 1 = some l1 := by
  decide +kernel

/-- A unit of one block that is seen and has a seat. -/
def wPlace : State := (withLaunch w0).modCluster 0 fun c =>
  { c with pending := [{ queue := 0, number := 1, wid := 1, recVA := 0x5000, level := 0, since := 0, seen := true }] }

theorem witness_StewardFirmwareSteps_place : wPlace.vendor 0 = true ∧ wPlace.headEvent 0 = none ∧
    ∃ p u t, (wPlace.cluster 0).order = [p] ∧ wPlace.launchOf p.queue p.number = some l1 ∧ wPlace.yields 0 p = false ∧ wPlace.seats 0 l1 p = some u ∧
      assignAll 0 u wPlace = .ok 0 t := by
  have h : (match (wPlace.cluster 0).order with
      | [p] => (match wPlace.launchOf p.queue p.number, wPlace.seats 0 l1 p with
        | some l, some u => decide (l = l1) && (!wPlace.yields 0 p && okWith (assignAll 0 u wPlace) fun n _ => n == 0)
        | _, _ => false)
      | _ => false) = true := by decide +kernel
  refine ⟨by decide +kernel, by decide +kernel, ?_⟩
  split at h
  · split at h
    · simp only [Bool.and_eq_true, decide_eq_true_eq, Bool.not_eq_true'] at h
      obtain ⟨rfl, hy, h⟩ := h
      obtain ⟨n, t, h1, h2⟩ := ok_of h
      rw [beq_iff_eq] at h2
      subst h2
      exact ⟨_, _, t, ‹_›, ‹_›, hy, ‹_›, h1⟩
    · cases h
  · cases h

/-- PREEMPT of level 3 that wants 16 groups, where only core 0 works and its block has the one that is missing. -/
def wPre : State := (List.range' 1 7).foldl (fun s c => s.modCore c fun x => { x with fused := true })
  (withLaunch (withEvent { w0 with clock := 10 ^ 9 } { typ := 9, a := 3, b := 16 * 2 ^ 16 }))

theorem witness_StewardFirmwareSteps_preempt : (headIs wPre 0 9).isSome = true ∧
    (∃ c < 8, wPre.coreGone c = false ∧ ((wPre.popEvent 0).preemptSet 0 c 3 0 16).isSome = true) ∧
    (∀ c < 8, wPre.coreGone c = false → (wPre.popEvent 0).preemptSet 0 c 3 0 16 ≠ some []) := by decide +kernel

/-- REPLAY of token 77, which the block in slot 0 waits for; FENCE of core 0. -/
def wParked : State := w0.modSlot 0 fun x => { x with run := .parked, park := some ⟨77, .load, 0x2000, 0⟩ }

theorem witness_StewardFirmwareSteps_replay : let s := withEvent wParked { typ := 5, a := 77 }
    headIs s 0 5 = some { typ := 5, a := 77 } ∧ slotCluster 0 = 0 ∧
    (s.slot 0).park = some ⟨77, .load, 0x2000, 0⟩ ∧ (s.slot 0).run = .parked ∧ (s.slot 0).wait = .none ∧ (s.slot 0).halted = false := by
  decide +kernel

theorem witness_StewardFirmwareSteps_fence : headIs (withEvent w0 { typ := 12, a := 1 }) 0 12 = some { typ := 12, a := 1 } ∧
    (1 : Word).toNat % 16 = 1 ∧ bits (1 : Word).toNat 4 1 * 128 + bits (1 : Word).toNat 5 8 < 256 := by decide +kernel

/-- TLAUNCH of the record at 0x2000, which the Steward's translations hold. -/
def wChild : State :=
  let s := withLaunch (withEvent w0 { typ := 8, core := 0, slot := 0, number := 1, a := 0x2000, b := 9 })
  let s := s.modSlot 0 fun x => { x with number := 1, run := .asleep, wait := .tlaunch 0x2000 9 none }
  (s.modQueue 0 fun q => { q with number := 1 }).modCluster 0 fun c => { c with stlb := [dataEntry] }

theorem witness_StewardFirmwareSteps_tlaunch : headIs wChild 0 8 = some { typ := 8, core := 0, slot := 0, number := 1, a := 0x2000, b := 9 } ∧
    (wChild.cluster 0).again = [] ∧ wChild.blockOf 0 { typ := 8, core := 0, slot := 0, number := 1, a := 0x2000, b := 9 } = some 0 ∧ (wChild.slot 0).run = .asleep ∧ (wChild.slot 0).call = none ∧
    (wChild.slot 0).wait = .tlaunch 0x2000 ((9 : Word).truncate 5) none ∧ (0x2000 : Word).toNat % 128 = 0 ∧
    wChild.launchOf 0 1 = some l1 ∧
    ∃ v u, childStatus 0 l1 l1.ctx 0x2000 wChild = .ok v u ∧ u.slots = wChild.slots ∧ (u.cluster 0).head = (wChild.cluster 0).head := by
  have h : okWith (childStatus 0 l1 l1.ctx 0x2000 wChild) (fun _ u => decide (u.slots = wChild.slots) &&
      decide ((u.cluster 0).head = (wChild.cluster 0).head)) = true := by decide +kernel
  obtain ⟨v, u, h1, h2⟩ := ok_of h
  simp only [Bool.and_eq_true, decide_eq_true_eq] at h2
  exact ⟨by decide +kernel, by decide +kernel, by decide +kernel, by decide +kernel, by decide +kernel, by decide +kernel, by decide +kernel,
    by decide +kernel, v, u, h1, h2.1, h2.2⟩

/-- Waits that end by time: a park, an EVWAIT, a VWAIT. -/
theorem witness_StewardFirmwareSteps_timeouts :
    ((wParked.slot 0).park = some ⟨77, .load, 0x2000, 0⟩ ∧ (wParked.slot 0).run = .parked ∧ (wParked.slot 0).halted = false ∧
      wParked.vendor (slotCluster 0) = true ∧ wParked.coreGone (slotCore 0) = false) ∧
    ((sg.modSteward 0 fun w => { w with wait := some (3, some 100) }).cluster 0).steward.wait = some (3, some 100) ∧
    (let s := w0.modSlot 0 fun x => { x with run := .asleep, wait := .vwait (some 100) [] }
     (s.slot 0).wait = .vwait (some 100) [] ∧ (s.slot 0).run = .asleep) := by decide +kernel

/-- Evictions to 0x4000: of a block that a trap stopped; of a block that drains nothing. A region of 1 MiB from there is
translated at once. -/
def wEv (halted : Bool) : State :=
  let s := w0.modSlot 0 fun x => { x with run := .evicting, evict := some 0x4000, halted := halted, lrec := { nvreg := 8 } }
  { s.modCore 0 fun c => { c with dtlb := [{ dataEntry with base := 0, size := 21, pa := 0x200000 }] } with gran := [] }

def wEvMet : State := (wEv false).modSlot 0 fun x =>
  { x with met := (wEv false).waitMet x x.wait, call := x.call.map fun c => { c with savedMet := (wEv false).waitMet x c.savedWait } }

def evLoc (k : Nat) : Loc := ⟨0x204000 + 4096 * k, 0x00C000000000005B, 1, 0⟩

/-- Where no granule is listed, no snoop is out and no request waits, nothing holds an access. -/
theorem gateOpen_of {s : State} (h : s.gran = [] ∧ s.snoops = [] ∧ s.slices = []) (src : Source) (pa : Nat) : s.gateOpen src pa = true := by
  have ho : s.hostOwned pa = false := by
    unfold State.hostOwned State.granule
    rw [h.1]
    split <;> rfl
  have hq : s.queuedAt pa = false := by
    unfold State.queuedAt State.slice
    rw [h.2.2]
    split <;> rfl
  unfold State.gateOpen
  rw [ho, hq, h.2.1]
  rfl

/-- Every page of the region is found, and finding it leaves the state. -/
theorem ev_page : ∀ k < 200, okWith (translate (.core 0) false 0 (BitVec.ofNat 64 (0x4000 + 4096 * k)) { acc := .store } wEvMet)
    (fun l t => l == evLoc k && decide (t = wEvMet)) = true := by decide +kernel

theorem ev_pages (n : Nat) : ∀ k, k + n ≤ 200 →
    imagePages 0 0 .store true (BitVec.ofNat 64 (0x4000 + 4096 * k)) n wEvMet =
      .ok ((List.range' k n).map fun i => 0x204000 + 4096 * i) wEvMet := by
  induction n with
  | zero => intro k _; rfl
  | succ n ih =>
    intro k h
    obtain ⟨l, t, h1, h2⟩ := ok_of (ev_page k (by omega))
    simp only [Bool.and_eq_true, beq_iff_eq, decide_eq_true_eq] at h2
    obtain ⟨rfl, rfl⟩ := h2
    have hva : BitVec.ofNat 64 (0x4000 + 4096 * k) + 4096 = BitVec.ofNat 64 (0x4000 + 4096 * (k + 1)) := by
      apply BitVec.eq_of_toNat_eq; simp; omega
    rw [imagePages]
    refine (M.bind_ok h1).trans ?_
    have hc : ¬(true && decide (pteMem (evLoc k).pte ≠ 0)) = true := by show ¬(true && decide (pteMem 0x00C000000000005B ≠ 0)) = true; decide
    rw [hva, if_neg hc]
    exact M.bind_ok (ih (k + 1) (by omega))

theorem ev_snoop (n : Nat) : ∀ pa, snoopRange (corePort 0 0) true pa n wEvMet = .ok () wEvMet := by
  induction n with
  | zero => intro _; rfl
  | succ n ih =>
    intro pa
    have : wEvMet.gateOpen (corePort 0 0) pa = true := gateOpen_of (by decide +kernel) _ pa
    rw [snoopRange]
    exact (M.bind_ok (snoopGate_free this)).trans (ih _)

/-- However large its private region is, the image is written, and no slot changes. -/
theorem ev_image : ∃ u, writeImage 0 0x4000 wEvMet = .ok () u ∧ u.slots = wEvMet.slots := by
  have hloop : ∀ (l : List Nat), (forIn l PUnit.unit (fun p (_ : PUnit) => do snoopRange (corePort 0 0) true p 128; pure (ForInStep.yield PUnit.unit)) : M PUnit) wEvMet =
      .ok PUnit.unit wEvMet := by
    intro l
    induction l with
    | nil => rfl
    | cons p l ih =>
      rw [List.forIn_cons]
      refine (M.bind_ok (a := ForInStep.yield PUnit.unit) (t := wEvMet) ?_).trans ih
      exact M.bind_ok (ev_snoop 128 p)
  have hput : ∀ (ps : List Nat) (bs : List Byte) (s : State), (∀ p ∈ ps, ∀ i < 128, ∃ d, regionOf (p + 32 * i) = .hbm d) →
      (s.putPages (corePort 0 0) ps bs).slots = s.slots := by
    intro ps
    induction ps with
    | nil => intro bs s _; rfl
    | cons p ps ih =>
      intro bs s h
      rw [State.putPages]
      refine (ih _ _ fun q hq => h q (List.mem_cons_of_mem _ hq)).trans ?_
      have hl : ((bs.take 4096).length + 31) / 32 ≤ 128 := by simp; omega
      have key : ∀ (n : Nat), n ≤ 128 → ∀ (f : Nat → List Byte) (s : State), ((List.range n).foldl (fun s i =>
          (s.performWrite (corePort 0 0) 0 (p + 32 * i) .normal (f i)).snoopDone (p + 32 * i)) s).slots = s.slots := by
        intro n hn f s
        induction n generalizing s with
        | zero => rfl
        | succ n ihn =>
          rw [List.range_succ, List.foldl_append]
          obtain ⟨d, hd⟩ := h p (List.mem_cons_self ..) n (by omega)
          exact (congrArg Prod.fst (State.performWrite_runners _ (corePort 0 0) 0 _ .normal (f n) hd)).trans (ihn (by omega) s)
      exact key _ hl _ s
  have hfit : ∀ n (bs : List Byte), (fit n bs).length = n := by intro n bs; unfold fit zeros; simp; omega
  have hz : ∀ n, (zeros n).length = n := by intro n; unfold zeros; simp
  have hlen : ∀ n v, (bytesOfNat n v).length = n := by
    intro n
    induction n with
    | zero => intro v; rfl
    | succ n ih => intro v; rw [bytesOfNat, List.length_cons, ih]
  have hstream : ∀ q, (streamBytes q).length = 64 := by intro q; unfold streamBytes; simp only [hfit]
  have hqueue : ∀ q, (queueBytes q).length = 4160 := by intro q; simp only [queueBytes, List.length_append, hlen]
  have hflat : ∀ (n : Nat) (f : Stream → List Byte) (l : List Stream), (∀ q, (f q).length = n) → (l.flatMap f).length = n * l.length := by
    intro n f l h
    induction l with
    | nil => rfl
    | cons a l ih => rw [List.flatMap_cons, List.length_append, h, ih, List.length_cons, Nat.mul_succ, Nat.add_comm]
  have h1 : (wEvMet.slot 0).threads = none ∧ (wEvMet.slot 0).call = none ∧ (wEvMet.slot 0).lrec.nvreg = 8 ∧ wEvMet.grant 0 = 1 ∧
      (wEvMet.slot 0).accCount = 0 := by decide +kernel
  obtain ⟨ht, hc, hn, hg, ha⟩ := h1
  have hv : (vectorBytes (wEvMet.slot 0) (wEvMet.grant 0)).length = 39744 := by
    unfold vectorBytes threadBytes
    simp only [ht, hc, hn, hg, List.length_append, hfit, hz, hlen, hflat 64 _ _ hstream, hflat 4160 _ _ hqueue, Vector.length_toList]
    decide +kernel
  have hm : (wEvMet.matrixBytes 0).length = 66112 := by
    unfold State.matrixBytes
    simp only [List.length_append, hfit, hlen, ha]
    decide +kernel
  have hs : (wEvMet.imageBytes 0 0x4000).2 ≤ 700000 := by
    unfold State.imageBytes TileImage.size
    dsimp only
    rw [hfit, hv, hm]
    have := Nat.mod_lt (Config.tileRegion (wEvMet.tileImage 0 0x4000).contents) (show 0 < 9217 by decide)
    unfold align64
    omega
  have hpages : ∀ z, z ≤ 700000 → 0 + (z + 4095) / 4096 ≤ 200 := by intro z h; omega
  have hctx : (wEvMet.slot 0).ctx = 0 := by decide +kernel
  have hcore : slotCore 0 = 0 := by decide
  rw [writeImage, M.bind_get, hctx, hcore]
  generalize wEvMet.imageBytes 0 0x4000 = bz at hs ⊢
  obtain ⟨bs, size⟩ := bz
  have hp := ev_pages ((size + 4095) / 4096) 0 (hpages _ hs)
  refine ⟨_, (M.bind_ok hp).trans ((M.bind_ok (hloop _)).trans (M.modify_apply _ _)), ?_⟩
  refine hput _ _ _ fun p hp i hi => ⟨0, ?_⟩
  simp only [List.mem_map, List.mem_range'_1] at hp
  obtain ⟨k, hk, rfl⟩ := hp
  have := hpages size hs
  unfold regionOf
  rw [if_pos]
  unfold Config.hbmW
  omega

theorem witness_EvictionWritesImageAndFreesSlot : ((wEv true).power = .on ∧ ((wEv true).slot 0).evict = some 0x4000 ∧
      (wEv true).eventRoom (slotCluster 0) = true ∧ ((wEv true).slot 0).halted = true) ∧
    ((wEv false).slot 0).halted = false ∧ (wEv false).draining 0 = false ∧
    (∃ u, writeImage 0 0x4000 wEvMet = .ok () u ∧ u.slots = wEvMet.slots) :=
  ⟨by decide +kernel, by decide +kernel, by decide +kernel, ev_image⟩

/-! The Dispatcher -/

/-- A 2 MiB page of the Dispatcher's context 0: PA 0x200000 at VA 0, by a cached table at 0x600000. -/
def wDisp : State :=
  { w0 with ctxEnable := true, walkCaches := [(0, [⟨0, 2, 0, 0x600000⟩])], mem := Memory.putAll w0.mem 0x600000 (bytesOfNat 8 0x00C000000020005B) }

/-- A descriptor of queue 1: 16 records at 0x10000, completions at 0x18000, its words at 0x3000. -/
def wDesc (log : Byte) : List Byte :=
  bytesOfNat 8 0x10000 ++ [log, 0, 0, 0, 0, 0, 0, 0] ++ bytesOfNat 8 0x3000 ++ bytesOfNat 8 0x3008 ++ bytesOfNat 8 0x18000 ++
    [4, 0, 0, 0, 0, 0, 0, 0] ++ bytesOfNat 8 0x3010 ++ bytesOfNat 8 0x3018

def wEnable (log : Byte) (journal : Bool) : State :=
  { wDisp with mem := Memory.putAll wDisp.mem (queueDesc 1) (wDesc log), health := { wDisp.health with jValid := journal } }

theorem witness_DispatcherSteps_enable :
    (let s := wEnable 4 true
     let w := (s.setEnableBit 1 true).modQueue 1 fun _ => queueOf (Memory.bytes s.mem (queueDesc 1) 64)
     s.power = .on ∧ (s.queue 1).enabled = false ∧ s.health.boot = 1 ∧ s.health.jValid = true ∧
       descOk (Memory.bytes s.mem (queueDesc 1) 64) = true ∧ ∃ u, readTail 1 w = .ok () u) ∧
    (let s := wEnable 3 true
     (s.queue 1).enabled = false ∧ s.health.boot = 1 ∧ s.health.jValid = true ∧ descOk (Memory.bytes s.mem (queueDesc 1) 64) = false) ∧
    (let s := wEnable 3 false
     (s.queue 1).enabled = false ∧ s.health.boot = 1 ∧ s.health.jValid = false) := by
  have h : (let s := wEnable 4 true
      okWith (readTail 1 ((s.setEnableBit 1 true).modQueue 1 fun _ => queueOf (Memory.bytes s.mem (queueDesc 1) 64))) fun _ _ => true) = true := by
    decide +kernel
  obtain ⟨⟨⟩, u, h1, -⟩ := ok_of h
  exact ⟨⟨by decide +kernel, by decide +kernel, by decide +kernel, by decide +kernel, by decide +kernel, u, h1⟩, by decide +kernel, by decide +kernel⟩

/-- Queue 1 in use, one record published. -/
def wQueue : State := wDisp.modQueue 1 fun _ => { queueOf (wDesc 4) with setup := false, tail := 1 }

/-- What a Dispatcher access answers leaves what a statement names. -/
def keeps {α : Type} (s : State) (m : M α) (k : α → State → Bool) : Bool := okWith (m s) fun a t => same s t && k a t

theorem keeps_of {α : Type} {s : State} {m : M α} {k : α → State → Bool} (h : keeps s m k = true) :
    ∃ a t, m s = .ok a t ∧ Same s t ∧ k a t = true := by
  obtain ⟨a, t, h1, h2⟩ := ok_of h
  rw [Bool.and_eq_true] at h2
  exact ⟨a, t, h1, same_of h2.1, h2.2⟩

theorem witness_DispatcherSteps_tail : let s := wQueue
    let x := s.queue 1
    x.live = true ∧ x.setup = false ∧ ∃ ps s1 bs s2, dispLocate x.ctx false (cutGranules 2 x.tailVA 8) s = .ok ps s1 ∧ Same s s1 ∧
      dispRead x.ctx x.tailVA 8 s1 = .ok bs s2 ∧ Same s1 s2 := by
  refine ⟨by decide +kernel, by decide +kernel, ?_⟩
  have h : keeps wQueue (dispLocate 0 false (cutGranules 2 0x3000 8)) (fun _ t => keeps t (dispRead 0 0x3000 8) fun _ _ => true) = true := by
    decide +kernel
  obtain ⟨ps, s1, h1, h2, h3⟩ := keeps_of h
  obtain ⟨bs, s2, h4, h5, -⟩ := keeps_of h3
  exact ⟨ps, s1, bs, s2, h1, h2, h4, h5⟩

theorem witness_DispatcherSteps_consume : let s := wQueue
    let x := s.queue 1
    s.nextQueue ≠ some 0 ∧ s.nextQueue = some 1 ∧ x.setup = false ∧ s.launchOf 1 x.next = none ∧
      let s0 : State := { s with disp := { s.disp with rr := s.disp.rr.set x.priority.toFin 1 } }
      let va := BitVec.ofNat 64 (x.ring + x.head.toNat % 2 ^ x.log2 * 128)
      ∃ d s1 sp s2 hp s3, dispRead x.ctx va 128 s0 = .ok d s1 ∧ Same s0 s1 ∧ dispLocate x.ctx true (cutGranules 2 va 8) s1 = .ok sp s2 ∧
        Same s1 s2 ∧ dispLocate x.ctx true (cutGranules 2 x.headVA 8) s2 = .ok hp s3 ∧ Same s2 s3 ∧ s1.grade640S = s.grade640S := by
  refine ⟨by decide +kernel, by decide +kernel, by decide +kernel, by decide +kernel, ?_⟩
  have h : keeps { wQueue with disp := { wQueue.disp with rr := wQueue.disp.rr.set (wQueue.queue 1).priority.toFin 1 } } (dispRead 0 0x10000 128)
      (fun _ t => keeps t (dispLocate 0 true (cutGranules 2 0x10000 8)) (fun _ t' => keeps t' (dispLocate 0 true (cutGranules 2 0x3008 8)) fun _ _ => true) &&
        t.grade640S == wQueue.grade640S) = true := by decide +kernel
  obtain ⟨d, s1, h1, h2, h3⟩ := keeps_of h
  rw [Bool.and_eq_true, beq_iff_eq] at h3
  obtain ⟨sp, s2, h4, h5, h6⟩ := keeps_of h3.1
  obtain ⟨hp, s3, h7, h8, -⟩ := keeps_of h6
  exact ⟨d, s1, sp, s2, hp, s3, h1, h2, h4, h5, h7, h8, h3.2⟩

/-- A launch of queue 1 whose one block has ended. -/
def lDone : Launch := { queue := 1, number := 1, recVA := 0x5000, ctx := 0, lrec := { lanesMax := 2 }, ready := true, sent := 1, ended := 1 }

theorem witness_DispatcherSteps_complete : let s := withLaunch wQueue lDone
    let x := s.queue 1
    x.live = true ∧ s.health.busy = false ∧ x.setup = false ∧ x.completions < 2 ^ x.clog2 ∧ s.completable 1 = some lDone ∧
      lDone.refused = none ∧ lDone.parent = none ∧ s.completable 0 = none ∧
      let va := BitVec.ofNat 64 (x.cring + x.ctail.toNat % 2 ^ x.clog2 * 128)
      ∃ rp s1 tp s2 sp s3, dispLocate x.ctx true (cutGranules 6 va 128) s = .ok rp s1 ∧ Same s s1 ∧
        dispLocate x.ctx true (cutGranules 2 x.ctailVA 8) s1 = .ok tp s2 ∧ Same s1 s2 ∧
        dispLocate lDone.ctx true (cutGranules 2 lDone.recVA 8) s2 = .ok sp s3 ∧ Same s2 s3 := by
  refine ⟨by decide +kernel, by decide +kernel, by decide +kernel, by decide +kernel, by decide +kernel, rfl, rfl, by decide +kernel, ?_⟩
  have h : keeps (withLaunch wQueue lDone) (dispLocate 0 true (cutGranules 6 0x18000 128))
      (fun _ t => keeps t (dispLocate 0 true (cutGranules 2 0x3010 8)) fun _ t' => keeps t' (dispLocate 0 true (cutGranules 2 0x5000 8)) fun _ _ => true) = true := by
    decide +kernel
  obtain ⟨rp, s1, h1, h2, h3⟩ := keeps_of h
  obtain ⟨tp, s2, h4, h5, h6⟩ := keeps_of h3
  obtain ⟨sp, s3, h7, h8, -⟩ := keeps_of h6
  exact ⟨rp, s1, tp, s2, sp, s3, h1, h2, h4, h5, h7, h8⟩

/-- A launch of 640 blocks; the first of them goes to cluster 1, where the most slots are free. -/
def lNew : Launch := { l1 with lrec := { lanesMin := 2, lanesMax := 2, widths := [0, 0, 0, 0, 0, 9] }, sent := 0 }

theorem witness_DispatcherSteps_send : (withLaunch w0 lNew).nextSend = some (lNew, [0], (1 : ClusterId).toNat) ∧ lNew.queue = 0 ∧ lNew.number = 1 ∧
    ¬(lNew.queue = 0 ∧ lNew.number = 2 ∧ 1 = (1 : ClusterId).toNat) := by decide +kernel

theorem witness_DispatcherSteps_aging : (withLaunch w0 lNew).launchOf 0 1 = some lNew ∧ lNew.ready = true ∧ lNew.refused = none ∧
    lNew.sent < lNew.lrec.blocks ∧ lNew.level ≠ 3 := by decide +kernel

/-- Core 0 alone serves, and its block has a lane group that a unit of level 3 needs. -/
def wTight : State :=
  (List.range' 1 31).foldl (fun s k => s.modCluster k fun c => { c with fenced := true })
    ((List.range' 1 7).foldl (fun s c => s.modCore c fun x => { x with fused := true }) w0)
def lHigh : Launch := { lNew with level := 3, lrec := { lNew.lrec with lanesMin := 16, lanesMax := 16 } }

theorem witness_DispatcherSteps_preempt : (withLaunch wTight lHigh).launchOf 0 1 = some lHigh ∧
    (withLaunch wTight lHigh).wantsPreempt lHigh = some ([0], 3, 0) := by decide +kernel

theorem witness_DispatcherSteps_held : let s := w0.modCluster 1 fun c => { c with held := [{ typ := 2 }] }
    (s.cluster (1 : ClusterId).toNat).held = { typ := 2 } :: [] ∧ (s.cluster (1 : ClusterId).toNat).count < 1024 := by decide +kernel

/-! The Innkeeper, the Porters, Crossroads -/

/-- An uncommitted TZERO of t2, whose entry has no room yet. -/
def tz : TileInstr := { id := 5, pc := 0x1000, op := .zero false, td := some ⟨2, rec_ 11 0 8 8 2 0, some 6⟩ }
def ez : Entry := { id := 6, name := 2, inst := 0, fixed := false, first := none, chunks := 1, pstate := .speculative, ready := 0
                    abandoned := 0, current := false }
def wIn (f : Slot → Slot := id) : State := tw fun x => f { x with rob := some tz, entries := x.entries ++ [ez], nextId := 7 }

theorem witness_InnkeeperAndIssueResults_commit : wIn.power = .on ∧ (wIn.slot 0).atCommit = true ∧ (wIn.slot 0).rob = some tz ∧ GoesOn tz.op ∧
    (let s0 : State := { wIn with cur := .block 0 }
     ∃ w, fixedWait 0 tz s0 = .ok () s0 ∧ allocRoom 0 ⟨2, rec_ 11 0 8 8 2 0, some 6⟩ s0 = .ok () w) ∧ (w0.slot 0).atCommit = false := by
  have h : okWith (allocRoom 0 ⟨2, rec_ 11 0 8 8 2 0, some 6⟩ ({ wIn with cur := .block 0 } : State)) (fun _ _ => true) = true := by decide +kernel
  obtain ⟨⟨⟩, w, h1, -⟩ := ok_of h
  exact ⟨by decide +kernel, by decide +kernel, by decide +kernel, trivial, ⟨w, check_of (by decide +kernel), h1⟩, by decide +kernel⟩

theorem witness_InnkeeperAndIssueResults : let s := wIn
    let x := s.slot 0
    x.rob.bind (·.td) = some ⟨2, rec_ 11 0 8 8 2 0, some 6⟩ ∧ x.release.entry? ez.id = some ez ∧ ez.first = none ∧
    (x.release.entries.filter fun g => g.name == 2 && g.id != ez.id && !g.fixed && g.first.isSome).length < recInstances (rec_ 11 0 8 8 2 0) ∧
    x.release.findRun ez.id ez.chunks = some 2 ∧ xwSent.boundSend 0 = true ∧ s.boundSend 0 = false ∧ x.run ≠ .empty ∧
    x.naming.getLsbD (3 : Reg).toNat = true ∧ (∀ d ∈ (s.core (slotCore 0)).dens, d.ctx ≠ x.ctx) := by decide +kernel

/-- The TZERO has committed; it is the copy port's next. -/
def wCopy (cmd : Option Cmd) : State :=
  let s := tw fun x => { x with work := [tz], entries := x.entries ++ [{ ez with first := some 2, pstate := .committed }], nextId := 7 }
  s.modCluster 0 fun c => { c with porter := { c.porter with cmds := cmd.toList }, stlb := [dataEntry] }

theorem witness_InnkeeperAndIssueResults_issue : (wCopy none).coreGone (0 : CoreId).toNat = false ∧
    ((wCopy none).core (0 : CoreId).toNat).issue[engineIx .copy] = (0, 0 + 1) ∧ (Engine.copy, (0 : BitVec 2)) ∉ ((wCopy none).core (0 : CoreId).toNat).forfeit ∧
    (wCopy none).readyFor .copy (slotOf (0 : CoreId).toNat (0 : BitVec 2).toNat) = true ∧
    (∃ u, ((wCopy none).modCore 0 fun y => { y with issue := y.issue.set (engineIx .copy) (0, 0) }).issueOf .copy
      (slotOf (0 : CoreId).toNat (0 : BitVec 2).toNat) = some u) ∧
    (w0.modCore 0 fun c => { c with fused := true }).coreGone (0 : CoreId).toNat = true :=
  ⟨by decide +kernel, by decide +kernel, by decide +kernel, by decide +kernel, Option.isSome_iff_exists.1 (by decide +kernel), by decide +kernel⟩

/-- Its command: new; started; drained. -/
def cz : Cmd := { id := cmdId 0 5, slot := 0, home := 0, src := .tile, instr := tz, todo := [0] }
def czRun : Cmd := { cz with started := true }
def czEnd : Cmd := { cz with started := true, todo := [] }

theorem witness_PorterResults : (wCopy (some cz)).power = .on ∧ ((wCopy (some cz)).cluster (0 : ClusterId).toNat).porter.fenced = false ∧
    ((wCopy (some cz)).startable (0 : ClusterId).toNat).find? (fun m => m.id == cz.id) = some cz ∧ (wCopy (some cz)).cmd? (0 : ClusterId).toNat cz.id = some cz ∧
    (let s := wCopy (some czRun)
     s.cmd? (0 : ClusterId).toNat czRun.id = some czRun ∧ czRun.canPart 0 = true ∧ czRun.instr.op = .zero czRun.instr.ev ∧
     czRun.instr.td = some ⟨2, rec_ 11 0 8 8 2 0, some 6⟩ ∧ recRemote (rec_ 11 0 8 8 2 0) = false ∧ czRun.instr.ta = none ∧ czRun.instr.pbs = [] ∧ czRun.instr.ranges = [] ∧
     (s.slot czRun.slot).entry? 6 = some { ez with first := some 2, pstate := .committed } ∧ 0 < recChunks (rec_ 11 0 8 8 2 0)) ∧
    (let s := wCopy (some czEnd)
     s.cmd? (0 : ClusterId).toNat czEnd.id = some czEnd ∧ czEnd.canEnd = true ∧ czEnd.stopped = none ∧ czEnd.instr.pbs = [] ∧ czEnd.instr.ev = false ∧
       s.anyHeld czEnd.slot (fun h => h.cmd == some ((0 : ClusterId).toNat, czEnd.id)) = false) ∧
    (w0.cluster (0 : ClusterId).toNat).porter.cmds = [] ∧ w0.health.boot = 1 := by decide +kernel

/-- Stream 0 reads two words at 0x2000. -/
def wRefill : State := (w0.modSlot 0 fun x =>
  { x with streams := x.streams.set 0 { bound := true, base := 0x2000, estride := 4, count := 2, eew := 2 } }).modCluster 0
    fun c => { c with stlb := [dataEntry] }

theorem witness_PorterResults_refill : let s := wRefill
    let x := s.slot 0
    let q := x.streams[(0 : BitVec 3).toFin]
    let more := s.refillCount 0 q
    let mine (m : Cmd) : Bool := m.slot == 0 && m.src == .refill 0
    let s0 := (List.range 32).foldl (fun s j => s.modCmds j fun l => l.filter fun m => !mine m) s
    more ≠ 0 ∧ x.run ≠ .empty ∧ x.work = [] ∧ (∀ i < 32, ∀ m ∈ (s.cluster i).porter.cmds, m.slot = 0 → m.src = .refill 0 → m.park = none) ∧
    s0.servingPorter (slotCluster 0) = some 0 ∧ (s0.cluster 0).porter.runs = true ∧ (s0.cluster 0).porter.roomFor 0 (slotCore 0) = true ∧
    ∃ u, refillElems 0 0 0 more (s0.handOver 0 (refillCmd 0 0 x.hart.pc)) = .ok () u := by
  have h : okWith (refillElems 0 0 0 (wRefill.refillCount 0 (wRefill.slot 0).streams[(0 : BitVec 3).toFin]) (((List.range 32).foldl (fun s j =>
      s.modCmds j fun l => l.filter fun m => !(m.slot == 0 && m.src == .refill 0)) wRefill).handOver 0 (refillCmd 0 0 (wRefill.slot 0).hart.pc))) (fun _ _ => true) = true := by decide +kernel
  obtain ⟨⟨⟩, u, h1, -⟩ := ok_of h
  exact ⟨by decide +kernel, by decide +kernel, by decide +kernel, by decide +kernel, by decide +kernel, by decide +kernel, by decide +kernel, u, h1⟩

/-- A collective of operation 7 of a custom image, header at 0x2000. -/
def cf : Cmd := { id := cmdId 0 5, slot := 0, home := 0, src := .tile, started := true, todo := [0]
                  instr := { tz with op := .coll .normal false (.fw 7) 0x2000 1, ta := some t1Ref } }
def wFw : State := (wCopy (some cf)).modCluster 0 fun c => { c with porter := { c.porter with custom := true } }

theorem witness_PorterResults_firmware : let p := (wFw.cluster (0 : ClusterId).toNat).porter
    wFw.cmd? (0 : ClusterId).toNat cf.id = some cf ∧ p.runs = true ∧ p.custom = true ∧ cf.started = true ∧ cf.park = none ∧ cf.stopped = none ∧
      cf.phase ≠ .depart ∧ cf.instr.op = .coll .normal cf.instr.ev (.fw 7) 0x2000 1 ∧ cf.instr.ta = some t1Ref ∧ viaCrossroads cf.slot t1Ref.shape = false ∧
      cf.instr.td = some ⟨2, rec_ 11 0 8 8 2 0, some 6⟩ ∧
    (∃ u, fwPrimitive (0 : ClusterId).toNat cf 0x2000 1 t1Ref ⟨2, rec_ 11 0 8 8 2 0, some 6⟩ .signal wFw = .ok () u) ∧
    ∃ w, agentAdd (.porter 0) (porterSrc (0 : ClusterId).toNat) (wFw.slot cf.slot).ctx (cf.slot, cf.failedWrite (some ((0x2000 : Word) + 8))) (0x2000 + 8) 1 wFw = .ok () w ∧
      w.cmd? (0 : ClusterId).toNat cf.id = some cf := by
  have h : okWith (fwPrimitive (0 : ClusterId).toNat cf 0x2000 1 t1Ref ⟨2, rec_ 11 0 8 8 2 0, some 6⟩ .signal wFw) (fun _ _ => true) = true := by
    decide +kernel
  have h' : okWith (agentAdd (.porter 0) (porterSrc (0 : ClusterId).toNat) (wFw.slot cf.slot).ctx (cf.slot, cf.failedWrite (some ((0x2000 : Word) + 8))) (0x2000 + 8) 1 wFw)
      (fun _ w => decide (w.cmd? (0 : ClusterId).toNat cf.id = some cf)) = true := by decide +kernel
  obtain ⟨⟨⟩, u, h1, -⟩ := ok_of h
  obtain ⟨⟨⟩, w, h2, h3⟩ := ok_of h'
  exact ⟨by decide +kernel, by decide +kernel, by decide +kernel, rfl, rfl, rfl, by decide, rfl, rfl, by decide +kernel, rfl, ⟨u, h1⟩, w, h2, of_decide_eq_true h3⟩

/-- Crossroads of cluster 0: slot 5 belongs to the bound TSEND; a remote request waits in slot 0; a TMMA asks for a chunk of
core 1. -/
def rq : RemoteReq := ⟨0, 4, 1, 2, 0⟩
def wXr (f : Crossroads → Crossroads) : State := xwSent.modCluster 0 fun c => { c with xr := f c.xr }

theorem witness_ExchangeResults_frame :
    (let s := wXr fun x => { x with frame := 5, sends := [⟨0, 5, 2, 0x20, 3, 0, true⟩] }
     let x := (s.cluster (0 : ClusterId).toNat).xr
     s.power = .on ∧ (s.cluster (0 : ClusterId).toNat).fenced = false ∧ x.sends = [⟨0, 5, 2, 0x20, 3, 0, true⟩] ∧
       s.sentTile ⟨0, 5, 2, 0x20, 3, 0, true⟩ = some t1Ref ∧ s.sendOperands ⟨0, 5, 2, 0x20, 3, 0, true⟩ = .ready ∧ (0x20 : Word).getLsbD (x.frame % 64) = true ∧ 0 < recChunks t1Ref.shape) ∧
    (let s := wXr fun x => { x with frame := 0, sends := [], remote := [rq] }
     let x := (s.cluster (0 : ClusterId).toNat).xr
     x.sends = [] ∧ (s.ownedSlots (0 : ClusterId).toNat).getLsbD (x.frame % 64) = false ∧ x.remote = rq :: []) ∧
    (let s := wXr fun x => { x with frame := 5, sends := [] }
     let x := (s.cluster (0 : ClusterId).toNat).xr
     x.sends = [] ∧ (s.ownedSlots (0 : ClusterId).toNat).getLsbD (x.frame % 64) = true) := by decide +kernel

/-- TMMA ac0, t1, t6, where t6 lies in core 1, chunk 0. -/
def t6Far : TileRef := ⟨6, rec_ 11 2 8 8 1 0 + 2 ^ 112, none⟩
def wFar : State := tw fun x => { x with work := [{ id := 4, pc := 0x1000, op := .mma 0 true false 0 x.hart.tshape, ta := some t1Ref, tb := some t6Far }] }

theorem witness_ExchangeResults_remote : slotCluster (⟨0, 4, 1, 0, 0⟩ : RemoteReq).reader = (0 : ClusterId).toNat ∧
    wFar.coreGone ((0 : ClusterId).toNat * 8 + (1 : BitVec 3).toNat) = false ∧ ⟨0, 4, 1, 0, 0⟩ ∈ wFar.wantedRemote 0 := by decide +kernel

/-! Slices -/

/-- A request of source 3 at 0x2000, in slice 1. -/
def rqs (op : ReqOp) : Request := { src := 3, seq := 0, oldest := 0, hint := .normal, pa := 0x2000, op := op, lost := false }
def wSlice (f : Slice → Slice := id) : State := w0.modSlice 1 f
/-- Line 0x200 is resident; a fill of it waits. -/
def wHit : State := wSlice fun x => { x with resident := [0x200] }
def wMiss : State := wSlice fun x => { x with mshr := [(0x200, [rqs (.read 8)])] }

theorem admits_of {s : State} {i : SliceId} {r : Request} (h : (sliceServes i r.pa && decide (0 < reqLen r.op) &&
    decide (r.pa % 32 + reqLen r.op ≤ 32) && decide ((s.slice i.toNat).ahead r = 0) && decide ((s.slice i.toNat).ingress = []) &&
    decide ((s.slice i.toNat).waiting = []) && !r.lost && ((s.slice i.toNat).mshr.all fun e => e.1 != lineOf r.pa) && decide (s.asked i.toNat r.src < 1024)) = true) : Admits s i r := by
  simpa [Admits, and_assoc] using h

theorem serves_of {s : State} {src pa : Nat} (h : (!s.unreachable pa 0 && !s.pathFenced pa && !s.corrupt pa &&
    decide ((s.snoops.find? fun x => x.line == pa / 64 && x.holds (waiterOf src) s.clock) = none) && !s.hostOwned pa) = true) : Serves s src pa := by
  simpa [Serves, and_assoc] using h

theorem witness_SliceResults : w0.power = .on ∧
    (Admits w0 1 (rqs (.write (List.replicate 32 7))) ∧ Serves w0 3 0x2000 ∧ (List.replicate 32 (7 : Byte)).length = 32) ∧
    (Admits wHit 1 (rqs (.read 8)) ∧ Admits wHit 1 (rqs (.amo .add .w64 5)) ∧ Admits wHit 1 (rqs (.cas 8 0 5)) ∧ Serves wHit 3 0x2000 ∧ lineOf 0x2000 ∈ (wHit.slice (1 : SliceId).toNat).resident) ∧
    (Admits w0 1 (rqs (.read 8)) ∧ (w0.slice (1 : SliceId).toNat).fenced = false ∧ lineOf 0x2000 ∉ (w0.slice (1 : SliceId).toNat).resident ∧
      (w0.slice (1 : SliceId).toNat).mshr.length < 256) ∧
    (sliceServes 1 0x2000 = true ∧ (wMiss.slice (1 : SliceId).toNat).mshr = [(lineOf 0x2000, [rqs (.read 8)])] ∧
      (wMiss.slice (1 : SliceId).toNat).waiting = [] ∧ Serves wMiss 3 0x2000) :=
  ⟨by decide +kernel, ⟨admits_of (by decide +kernel), serves_of (by decide +kernel), rfl⟩,
    ⟨admits_of (by decide +kernel), admits_of (by decide +kernel), admits_of (by decide +kernel), serves_of (by decide +kernel), by decide +kernel⟩,
    ⟨admits_of (by decide +kernel), by decide +kernel, by decide +kernel, by decide +kernel⟩, by decide +kernel, by decide +kernel, by decide +kernel,
    serves_of (by decide +kernel)⟩

/-- A duplicate of a request that has its acknowledgement kept; answers on their way; a copy sent again four times. -/
def wKept : State := wSlice fun x => { x with expected := [(3, 1)], kept := [⟨3, 0, some 1, [], none⟩], replies := [⟨3, 0, some 1, [], none⟩] }
def wLoaded : State := wSlice fun x => { x with replies := [⟨3, 0, none, [5], none⟩] }
def unq (n : Nat) : Unanswered := ⟨1, rqs (.read 8), n, 500, false⟩
def wUn (n : Nat) : State := { w0 with unanswered := [unq n] }

theorem witness_SliceResults_answers :
    (let x := wKept.slice (1 : SliceId).toNat
     let r := rqs (.write [7])
     sliceServes 1 r.pa = true ∧ r.lost = false ∧ r.pa % 32 + [7].length ≤ 32 ∧ x.ingress = [] ∧ x.ahead r < 0 ∧
     (x.kept.filter fun q => !(q.src == r.src && decide ((q.seq - r.oldest).toInt < 0))).find?
       (fun q => q.src == r.src && q.seq == r.seq) = some ⟨3, 0, some 1, [], none⟩) ∧
    (wKept.slice (1 : SliceId).toNat).replies = ⟨3, 0, some 1, [], none⟩ :: [] ∧
    (wLoaded.slice (1 : SliceId).toNat).replies = ⟨3, 0, none, [5], none⟩ :: [] ∧
    ((wUn 4).copyOf 1 3 0 = some (unq 4) ∧ 4 ≤ (unq 4).resends ∧ (unq 4).reported = false ∧ (wUn 4).pathUnit 1 3 (sliceCode 1) = true ∧
      codeOk (sliceCode 1) = true ∧ (wUn 4).isFenced (sliceCode 1) = false ∧ (wUn 4).health.busy = false) ∧
    ((wUn 0).copyOf 1 3 0 = some (unq 0) ∧ (unq 0).resends < 4) := by decide +kernel

/-! Watches, windows, walks -/

/-- Asleep on a flag at 0x2000. -/
def wWait (n : List Notice) (w : List Watch) : State :=
  { w0.modSlot 0 fun x => { x with run := .asleep, wait := .vwait (some 100) [(0x2000, 8, .eq, 0)] } with notices := n, watches := w }

theorem witness_FabricWatchAndWalkResults :
    (let s := wWait [⟨.slot 0, 0x2010⟩] []
     s.power = .on ∧ (s.slot 0).wait = .vwait (some 100) [(0x2000, 8, .eq, 0)] ∧ (s.slot 0).run = .asleep ∧ (s.slot 0).call = none ∧
       s.eventRoom (slotCluster 0) = true ∧ s.notices = ⟨.slot 0, 0x2010⟩ :: [] ∧ 0x2010 / 32 ∈ (s.slot 0).wait.granules) ∧
    (let s := wWait [] [⟨.slot 0, 0x100, 0, true⟩]
     (s.slot 0).wait = .vwait (some 100) [(0x2000, 8, .eq, 0)] ∧ (s.slot 0).run = .asleep ∧ (s.slot 0).call = none ∧
       s.eventRoom (slotCluster 0) = true ∧ s.watches.find? (fun y => y.who == .slot 0 && y.polls) = some ⟨.slot 0, 0x100, 0, true⟩ ∧
       0x100 ∈ (s.slot 0).wait.granules) ∧
    w0.coreGone (0 : CoreId).toNat = false ∧
    (let a : WinAccess := ⟨0, 0x100, 1, some [7], none⟩
     a.data = some [7] ∧ [(7 : Byte)].take a.n ≠ [] ∧ a.off % 32 + ([(7 : Byte)].take a.n).length ≤ 32 ∧ a.off < 0xC0000) ∧
    (let a : WinAccess := ⟨0, 0xC0020, 1, some [7], none⟩
     a.data = some [7] ∧ [(7 : Byte)].take a.n ≠ [] ∧ a.off % 32 + ([(7 : Byte)].take a.n).length ≤ 32 ∧
     winPart a.off = .stream 0 (0 : Fin 8).val 0x20 ∧ slotOf a.core.toNat 0 = 0 ∧ w0.streamRefuses 0 (0 : Fin 8).val = false ∧
     bits (w0.slot 0).streams[(0 : Fin 8)].written.toNat 0x20 1 = 0 ∧
     bits ((w0.modSlot 0 fun x => { x with streams := x.streams.set 0 { written := 0x100000000 } }).slot 0).streams[(0 : Fin 8)].written.toNat 0x20 1 ≠ 0) ∧
    (let s := w0.modCore 0 fun c => { c with fills := [(⟨5, 0x2000⟩, 0, 0)] }
     (s.core (0 : CoreId).toNat).fills.find? (fun y => y.1 == ⟨5, 0x2000⟩) = some (⟨5, 0x2000⟩, 0, 0) ∧
       ∀ g ∈ [0x2000, 0x2000 + 32], s.corrupt g = false ∧ s.pathFenced g = false ∧ s.unreachable g 0 = false ∧
         s.gateOpen (corePort (0 : CoreId).toNat (g / 32 % 16)) g = true) := by
  decide +kernel

/-- A miss at 0x3000 and the table at 0x600000 that the walk caches give; a pointer to 0x700000 and a leaf there; the context
entry of context 0 at 0x604000. -/
def wq (va : Word) : WalkReq := ⟨.porter 0, 0, va, .load⟩
def wWalk (x : List Walk) : State :=
  { wDisp with walks := [(0, x)], ctxBase := 0x604
               mem := Memory.putAll (Memory.putAll wDisp.mem 0x600008 (bytesOfNat 8 0x700001)) 0x604000 (bytesOfNat 8 0x500001) }

/-- Sixty-four walks of other sources' pages. -/
def wFullWalk : State := wWalk (List.replicate 64 ⟨⟨.steward 0, 1, 0x9000, .load⟩, 2, 0x600000, false, false⟩)

theorem witness_FabricWatchAndWalkResults_walks :
    (∀ s ∈ [wWalk [], wFullWalk, { wWalk [] with ctxEnable := false }],
     s.power = .on ∧ WalkSrcDie (wq 0x3000).src = dieNum false ∧ s.walkPending (dieNum false) 0 0x3000 = false ∧
       (((Tbl.get [] s.walks (dieNum false)).map (·.req) ++ Tbl.get [] s.walkQueue (dieNum false)).filter fun y => y.src == (wq 0x3000).src).length < 32 ∧
       (wq 0x3000).va.toNat < 2 ^ 57 ∧ (s.tlbLookup (wq 0x3000).src (decide ((wq 0x3000).acc = .fetch ∨ (wq 0x3000).acc = .ipref)) 0 0x3000).1 = none ∧
       Tbl.get [] s.walkQueue (dieNum false) = []) ∧
    64 ≤ (Tbl.get [] wFullWalk.walks (dieNum false)).length ∧ (Tbl.get [] (wWalk []).walks (dieNum false)).length < 64 ∧
    (wWalk []).ctxEnable = true ∧ (wWalk []).ctxBase.toNat * 4096 < Config.hbmEnd ∧
    ((wWalk []).walkHit (dieNum false) 0 0x3000).getD (6, 0) = (2, 0x600000) := by decide +kernel

/-- The walk in flight for a VA; one that is to read its context entry. -/
def xq (va : Word) : Walk := ⟨wq va, 2, 0x600000, false, false⟩
def xq6 : Walk := ⟨wq 0x3000, 6, 0, false, false⟩

/-- The entry at an address can be read by a walk of the Porter. -/
def walkReads (s : State) (pa : Nat) : Prop := s.health.retired.contains (channelOf pa) = false ∧ s.pathFenced pa = false ∧
  s.corrupt pa = false ∧ s.gateOpen (walkSource (.porter 0)) pa = true

theorem witness_FabricWatchAndWalkResults_reads : walkReads (wWalk [xq6]) 0x604000 ∧ walkReads (wWalk [xq 0x203000]) 0x600008 ∧
    walkReads (wWalk [xq 0x3000]) 0x600000 := by
  unfold walkReads
  decide +kernel

theorem witness_FabricWatchAndWalkResults_context : let s := wWalk [xq6]
    let e := BitVec.ofNat 64 (Memory.nat s.mem 0x604000 8)
    (Tbl.get [] s.walks (dieNum false))[0]? = some xq6 ∧ xq6.level = 6 ∧ s.ctxBase.toNat * 4096 + 8 * (0 : BitVec 16).toNat = 0x604000 ∧
    (Tbl.get [] s.ctxCache (dieNum false)).find? (fun y => y.1 == 0) = none ∧ e.getLsbD 0 = true ∧ bits e.toNat 1 11 = 0 ∧
    bits e.toNat 52 12 = 0 := by decide +kernel

theorem witness_FabricWatchAndWalkResults_pointer : let s := wWalk [xq 0x203000]
    (Tbl.get [] s.walks (dieNum false))[0]? = some (xq 0x203000) ∧ (xq 0x203000).level ≠ 6 ∧
    0x600000 + 8 * levelIndex 2 false (xq 0x203000).req.va.toNat = 0x600008 ∧
    BitVec.ofNat 64 (Memory.nat s.mem 0x600008 8) = 0x700001 ∧ pteV 0x700001 = true ∧
    pteReserved 2 false 0x700001 = false ∧ pteL 0x700001 = false ∧ ptePA 0x700001 < Config.hbmEnd := by decide +kernel

theorem witness_FabricWatchAndWalkResults_leaf : let s := wWalk [xq 0x3000]
    let p : Word := 0x00C000000020005B
    (Tbl.get [] s.walks (dieNum false))[0]? = some (xq 0x3000) ∧ 0x600000 + 8 * levelIndex 2 false (xq 0x3000).req.va.toNat = 0x600000 ∧
    Tbl.get [] s.walkQueue (dieNum false) = [] ∧ BitVec.ofNat 64 (Memory.nat s.mem 0x600000 8) = p ∧ pteV p = true ∧ pteReserved 2 false p = false ∧
    pteL p = true ∧ ptePermits p .load = true ∧ pteA p = true := by decide +kernel

theorem witness_FabricWatchAndWalkResults_leafCheck :
    let u : Use := { acc := .load, who := WalkSrcMaker (xq 0x3000).req.src }
    leafCheck (wWalk [xq 0x3000]) u 0x3000 (entryLoc (leafEntry 0 0x3000 2 false 0x00C000000020005B 0x600000) 0x3000) = none ∧
      ordBad u 0x00C000000020005B = false := by
  decide +kernel

/-! The host -/

def snp (inv : Bool) (deadline : Nat) (who : Nat := 0) : Snoop := ⟨0x100, inv, false, deadline, false, who⟩
/-- Port 0 holds a host line, and a poll-free watch stands on it. -/
def wLine : State := { w0.modPort 0 fun p => { p with lines := [{ line := Config.cxlBase / 64, owned := true, dirty := false }] } with watches := [⟨.slot 0, Config.cxlBase / 32, 0, false⟩] }

theorem witness_HostLineResults : w0.power = .on ∧ 0x100 * 64 + 64 ≤ Config.hbmEnd ∧
    (∀ inv ∈ [true, false], ∀ dl ∈ [2 * Config.msClocks, Config.msClocks - 100 * Config.usClocks],
      let s := { w0 with snoops := [snp inv dl] }
      s.snoops.find? (fun z => z.line == 0x100 && !z.answered && !z.failed) = some (snp inv dl) ∧ s.health.log.enabled = false ∧
      ∀ pa ∈ [0x100 * 64, 0x100 * 64 + 32], (s.slice (sliceOf pa)).mshr = []) ∧
    ((snp true 0).who < settleWaiter 0 ∧ settleWaiter 0 ≤ (snp true 0 5000).who) ∧
    ((w0.port (portNum false)).waiting.length < 1024 ∧ (w0.port (portNum false)).hdmBase.toNat ≤ 0x2000 ∧
      (∀ n ∈ [8, 1], ∀ c ∈ hostParts 0x2000 n, w0.queuedAt c.1 = false ∧ (w0.slice (sliceOf c.1)).mshr = [])) ∧
    (∀ z ∈ (w0.port (1 - portNum false)).lines, z.line ≠ Config.cxlBase / 64) ∧
    (w0.clock < 2 * Config.msClocks - Config.msClocks + 100 * Config.usClocks) ∧
    (Config.msClocks - 100 * Config.usClocks - Config.msClocks + 100 * Config.usClocks ≤ 10 ^ 9) ∧
    (∃ z ∈ (wLine.port (portNum false)).lines, z.line = Config.cxlBase / 64) ∧
    (∀ z ∈ (w0.port (portNum false)).lines, z.line ≠ Config.cxlBase / 64) ∧ regionOf (Config.cxlBase / 64 * 64) = .host 0 ∧
    w0.portUp (portNum false) = true ∧ w0.health.boot = 1 ∧ (∀ c ∈ hostParts 0x2000 8, w0.hostBad c.1 false = false) ∧
    (∀ c ∈ hostParts 0x2000 1, w0.hostBad c.1 (c.2 == 32) = false) ∧ w0.reachesAll (Config.coreWin + 0x2000) 8 = true ∧
    (match w0.ioRead (Config.coreWin + 0x2000) 8 with | .ok _ => true | .error _ => false) = true ∧ w0.coreGone (0x2000 / 0x100000) = false := by
  decide +kernel

/-! Base dies, settles, counters -/

def breq (addr : Nat) (mask : BitVec 32) : BaseReq := ⟨9, addr, mask, 5, 3, false⟩
def wBase (f : Gran → Gran := id) (x : BaseDie → BaseDie := id) : State := (w0.modGran (0x2000 / 32) f).modBase 1 x

/-- The stripe at 0x200000 of mode 0, with the CRC of 512 zeros, waits for its decode. -/
def wSector : State := (withBytes [0, 0, 0, 0, 0xC0, 0xED, 0xFC, 0x30] []).modBase 1 fun x => { x with sectors := [(4096, [(9, 3)])] }

/-- The CRC runs over 64 zeros at a time. -/
def crcOf (c : BitVec 32) (bs : List Byte) : BitVec 32 := bs.foldl (fun c b => crcBits 8 (c ^^^ b.zeroExtend 32)) c

theorem crc_steps : crcOf 0xFFFFFFFF (List.replicate 64 0) = 0xFC371498 ∧
    crcOf 0xFC371498 (List.replicate 64 0) = 0xF7D89B24 ∧
    crcOf 0xF7D89B24 (List.replicate 64 0) = 0x8BCA87CF ∧
    crcOf 0x8BCA87CF (List.replicate 64 0) = 0x478D4E6F ∧
    crcOf 0x478D4E6F (List.replicate 64 0) = 0x03D5A233 ∧
    crcOf 0x03D5A233 (List.replicate 64 0) = 0x4509D0C9 ∧
    crcOf 0x4509D0C9 (List.replicate 64 0) = 0xCC289DC7 ∧
    crcOf 0xCC289DC7 (List.replicate 64 0) = 0xCF03123F := by decide +kernel

theorem crc_cut (a b : Nat) (c : BitVec 32) : crcOf c (List.replicate (a + b) 0) = crcOf (crcOf c (List.replicate a 0)) (List.replicate b 0) := by
  rw [List.replicate_append_replicate.symm]; exact List.foldl_append ..

theorem crc_zeros : crc32c (List.replicate 512 0) = 0x30FCEDC0 := by
  show ~~~(crcOf 0xFFFFFFFF (List.replicate (64 + (64 + (64 + (64 + (64 + (64 + (64 + 64))))))) 0)) = _
  obtain ⟨h0, h1, h2, h3, h4, h5, h6, h7⟩ := crc_steps
  rw [crc_cut, crc_cut, crc_cut, crc_cut, crc_cut, crc_cut, crc_cut, h0, h1, h2, h3, h4, h5, h6, h7]
  rfl

theorem witness_BaseDieResults_decode : ∃ bs, wSector.decodeStripe 4096 = .ok bs ∧ bs.length = 512 := by
  have h : wSector.imageLost 4096 0 = false ∧
      (let st := wSector.storedImage 4096
       natOfBytes (st.take 2) = 0 ∧ (st.getD 2 0).toNat = 0 ∧ st.getD 3 0 = 0 ∧ BitVec.ofNat 32 (natOfBytes ((st.drop 4).take 4)) = 0x30FCEDC0) := by
    decide +kernel
  obtain ⟨h0, h1, h2, h3, h4⟩ := h
  refine ⟨List.replicate 512 0, ?_, List.length_replicate⟩
  unfold State.decodeStripe
  generalize wSector.storedImage 4096 = st at h1 h2 h3 h4 ⊢
  have hr : (List.range ((8 + 0 + 31) / 32)).any (wSector.imageLost 4096) = false := by
    show (wSector.imageLost 4096 0 || false) = false
    rw [h0]; rfl
  unfold decodeSector
  simp only [h0, h1, h2, h3, h4, hr, crc_zeros]
  rfl

theorem witness_BaseDieResults : baseServes 1 0x2000 = true ∧
    (let s := { w0 with health := { w0.health with retired := [channelOf 0x2000] } }
     s.channelFault (breq 0x2000 1).pa = some .access) ∧
    (wBase.power = .on ∧ wBase.channelFault 0x2000 = none ∧ (wBase.dram (reqGran (breq 0x2000 1) / 32)).2 = false ∧ (wBase.granule (0x2000 / 32)).zero = false ∧
      (wBase.granule (0x2000 / 32)).below = none ∧ ((wBase fun g => { g with below := some (7, false) }).granule (0x2000 / 32)).below.isSome = true ∧
      ((wBase fun g => { g with below := some (7, false) }).dram (0x2000 / 32)).2 = false) ∧
    (((wBase fun g => { g with zero := true }).dram (0x2000 / 32)).2 = false ∧ ((wBase fun g => { g with zero := true }).granule (0x2000 / 32)).zero = true ∧
      (wBase fun g => { g with zero := true }).channelFault 0x2000 = none) ∧
    (((wBase fun g => { g with media := true }).dram (0x2000 / 32)).2 = true ∧ (wBase fun g => { g with media := true }).channelFault 0x2000 = none ∧
      (breq 0x2000 1).mask ≠ 0xFFFFFFFF) ∧
    ((wBase id fun x => { x with buffer := [(16, 7)] }).base (1 : BaseId).toNat).buffer.find? (fun e => e.1 == 16) = some (16, 7) ∧
    ((wBase.base (1 : BaseId).toNat).buffer = [] ∧ (wBase.base (1 : BaseId).toNat).sectors = []) ∧
    (let s := wSector
     (s.base (1 : BaseId).toNat).sectors = (4096, [(9, 3)]) :: [] ∧ s.sectorPath 4096 = none ∧ (s.base (1 : BaseId).toNat).heldSectors = []) ∧
    (let full := wBase id fun x => { x with sectors := List.replicate 32 (17, []) }
     baseServes 1 (16 * 512) = true ∧ (full.base (1 : BaseId).toNat).buffer = [] ∧ (∀ e ∈ (full.base (1 : BaseId).toNat).sectors, e.1 ≠ 16) ∧
       32 ≤ (full.base (1 : BaseId).toNat).sectors.length ∧
       ((wBase id fun x => { x with sectors := [(16, [(9, 3)])] }).base (1 : BaseId).toNat).sectors = [(16, [(9, 3)])]) ∧
    ((wBase id fun x => { x with done := [⟨9, 5, 3, false, none, 1, true⟩] }).base (1 : BaseId).toNat).done ≠ [] ∧
    (let x := wBase.base (1 : BaseId).toNat
     x.tagFree (sliceOf 0x2000) false 9 = true ∧ x.tagFree (sliceOf 0x2000) true 9 = true ∧ x.tagFree (sectorSlice 16 3) false 9 = true ∧
       (wBase id fun x => { x with buffer := [(16, 7)] }).power = .on ∧ x.tagFree 1 false 384 = false ∧ x.tagFree 1 true 256 = false ∧
       ({ x with done := [⟨9, 5, 3, false, none, 1, true⟩] } : BaseDie).tagFree 1 true 9 = false) ∧
    (∀ e ∈ (wSector.base (1 : BaseId).toNat).sectors, baseOf (e.1 * 512) = (1 : BaseId).toNat) := by decide +kernel

/-- A settle under way, and one whose range the host owns a granule of; a dump under way in a base die and in a port. -/
def wSettle : State := w0.modSettle 0 fun x => { x with range := some (0x2000, 0x1000) }
def wOwned : State := wSettle.modGran (0x2000 / 32) fun g => { g with owned := true }
def wDump : State := ({ w0 with gran := [] }.modBase 1 fun x => { x with ac := { x.ac with busy := true } }).modPort 0 fun x => { x with hac := { x.hac with busy := true } }

theorem witness_BaseDieResults_settle : ((wSettle.settleReg (dieNum false)).range = some (0x2000, 0x1000) ∧
      wSettle.ownedIn (dieNum false) (0x2000, 0x1000) = []) ∧
    ((wOwned.settleReg (dieNum false)).range = some (0x2000, 0x1000) ∧ wOwned.ownedIn (dieNum false) (0x2000, 0x1000) ≠ [] ∧
      wOwned.snoops.length + (wOwned.ownedIn (dieNum false) (0x2000, 0x1000)).length ≤ 256) ∧
    ((wDump.base (1 : BaseId).toNat).ac.busy = true ∧ (wDump.port (portNum false)).hac.busy = true ∧
      (wDump.base (1 : BaseId).toNat).ac = (wDump.port (portNum false)).hac) ∧ wSettle.health.boot = 1 ∧ State.reset.health.boot ≠ 1 := by decide +kernel

/-- All 512 granules of the dump's buffer, at address 0, can be reached. -/
theorem witness_BaseDieResults_dump : (wDump.base (1 : BaseId).toNat).ac.target.toNat * 4096 = 0 ∧
    ∀ n < 512, wDump.devReach (0 + n * 32) = some none ∧ wDump.gateOpen healthSrc (0 + n * 32) = true := by
  have hgate : wDump.gran = [] ∧ wDump.snoops = [] ∧ wDump.slices = [] := by decide +kernel
  have h : wDump.gran = [] ∧ wDump.health.retired = [] ∧ wDump.health.fenced = [] := by decide +kernel
  refine ⟨by decide +kernel, fun n hn => ?_⟩
  have hr : regionOf (0 + n * 32) = .hbm 0 := by unfold regionOf; rw [if_pos]; unfold Config.hbmW; omega
  have hg : ∀ g, wDump.granule g = {} := fun g => by unfold State.granule; rw [h.1]; rfl
  have hc : wDump.corrupt (0 + n * 32) = false := by unfold State.corrupt; rw [hg]; rfl
  constructor
  · unfold State.devReach; rw [hr]; simp only [h.2.1, h.2.2, hc]; rfl
  · exact gateOpen_of hgate _ _

/-! The Ferry's steps -/

/-- Crossing 24 of a Ferry, as given. -/
def fx (f : Ferry → Ferry) (g : Xing → Xing := id) : State := { w0 with ferry := (f w0.ferry).modX 24 g }
def turning (step : Nat) : Ferry → Ferry := fun f => { f with turn := some (24, true, step, 0) }

def fxPlan : State := fx fun f => { f with plan := [⟨30, 5, 0⟩] }
def fxTurn (step : Nat) (retry : List (BitVec 16 × Flit)) : State := fx (turning step) fun x => { x with state := .turning, retry := retry }

theorem witness_FerryResults_start : fxPlan.power = .on ∧ fxPlan.ferry.turn = none ∧ fxPlan.ferry.serve 20 = (fxPlan.ferry, some 30) ∧
    fxPlan.ferry.pick 30 = some (24, true) ∧ (fxPlan.ferry.serve 20).1.plan = ⟨30, 5, 0⟩ :: [] ∧ fxPlan.ferry.expired ≠ 0xFFFF ∧
    fxPlan.health.boot = 1 := by decide +kernel

/-- Crossing 24 stands in a turn at a step. -/
def turnAt (k : Nat) (s : State) : Bool := s.ferry.turn == some (24, true, k, 0) && (s.ferry.xing 24).state == .turning

theorem witness_FerryResults_turns : (turnAt 0 (fxTurn 0 []) && turnAt 1 (fxTurn 1 []) && turnAt 2 (fxTurn 2 []) && turnAt 0 (fxTurn 0 [(0, 0)])) = true := by
  decide +kernel

theorem witness_FerryResults_calm : let x := (fxTurn 0 []).ferry.xing 24
    (24 : XingId).toNat < 48 ∧ x.retry = [] ∧ x.rotation = true ∧ x.retrainTimes = [] ∧ x.replayTimes = [] ∧
    ((fxTurn 0 [(0, 0)]).ferry.xing 24).retry ≠ [] ∧ (fxTurn 2 []).ferry.plan = [] ∧ (fxTurn 2 []).ferry.restPlan = false := by decide +kernel

/-- A flit of link sequence 0 that acknowledges nothing, with the CRC of its first 252 bytes. -/
def flit0 : Flit := BitVec.ofNat 2048 (0xFF0000 + 0x1d5455f2 * 2 ^ 2016)

theorem witness_FerryResults_flits :
    (let x := w0.ferry.xing 24
     x.rotation = true ∧ x.state = .active ∧ x.retry.length < 128 ∧ (x.retrainTimes.filter fun t => decide (w0.clock < t + minClocks)).length < 3 ∧
       (x.replayTimes.filter fun t => decide (w0.clock < t + secClocks)).length + x.retry.length < 1000 ∧ x.txSeq = BitVec.ofNat 16 flit0.toNat ∧
       x.rxSeq = BitVec.ofNat 16 flit0.toNat ∧ bits flit0.toNat 16 8 = 0xFF ∧ x.retrainTimes = [] ∧ x.replayTimes = []) ∧
    (let x := (fx id fun x => { x with retry := [(0, flit0)] }).ferry.xing 24
     x.state = .active ∧ x.retry ≠ [] ∧ x.retrainTimes = [] ∧ x.replayTimes = [] ∧ x.retry.length ≤ 128) ∧
    (let s := fx id fun x => { x with state := .retraining, spares := 4 }
     (s.ferry.xing 24).rotation = true ∧ (s.ferry.xing 24).state = .retraining ∧ s.ferry.turn = none ∧ (s.ferry.xing 24).spares + 0 ≤ 4 ∧
       (s.ferry.xing 24).retrainTimes = [] ∧ (s.ferry.xing 24).replayTimes = []) := by decide +kernel

theorem flit0_steps : crcOf 0xFFFFFFFF [0, 0, 0xFF] = 0x32E60FD4 ∧ crcOf 0x32E60FD4 (List.replicate 64 0) = 0x258DF901 ∧
    crcOf 0x258DF901 (List.replicate 64 0) = 0x52E30E2F ∧ crcOf 0x52E30E2F (List.replicate 64 0) = 0x56E28A2A ∧
    crcOf 0x56E28A2A (List.replicate 57 0) = 0xE2ABAA0D := by decide +kernel

theorem flit0_bytes : (bytesOfNat 256 flit0.toNat).take 252 = [0, 0, 0xFF] ++ List.replicate (64 + (64 + (64 + 57))) 0 ∧
    natOfBytes ((bytesOfNat 256 flit0.toNat).drop 252) = 0x1D5455F2 := by decide +kernel

theorem witness_FerryResults_crc : flitOk flit0 = true := by
  obtain ⟨h0, h1, h2, h3, h4⟩ := flit0_steps
  have h : crc32c ((bytesOfNat 256 flit0.toNat).take 252) = 0x1D5455F2 := by
    rw [flit0_bytes.1]
    show ~~~(crcOf 0xFFFFFFFF ([0, 0, 0xFF] ++ List.replicate (64 + (64 + (64 + 57))) 0)) = _
    have : crcOf 0xFFFFFFFF ([0, 0, 0xFF] ++ List.replicate (64 + (64 + (64 + 57))) 0) =
        crcOf (crcOf 0xFFFFFFFF [0, 0, 0xFF]) (List.replicate (64 + (64 + (64 + 57))) 0) := List.foldl_append ..
    rw [this, crc_cut, crc_cut, crc_cut, h0, h1, h2, h3, h4]
    rfl
  unfold flitOk
  simp only [h, flit0_bytes.2]
  rfl

/-! Driver queues -/

/-- A descriptor of 16 entries at 0x300000, its words at 0x300800. -/
def dDesc : BitVec 512 := 0x300000 + (4 <<< 64) + (0x300800 <<< 128) + (0x300808 <<< 192)
def wDrvOff : State := { w0 with drv := { w0.drv with fault := { desc := dDesc }, replay := { desc := dDesc }, inval := { desc := 1 } } }

/-- A replay command for a token, and an invalidation of cluster 0's translations, at the heads of their queues. Token 77 is
that of the block in slot 0. -/
def qOn (at_ : Nat) : DrvQ := { desc := dDesc, enabled := true, ring := at_, tailPA := at_ + 0x800, headPA := at_ + 0x808, donePA := at_ + 0x810 }
def wDrv (tok cmd : Byte) : State :=
  let m := Memory.putAll (Memory.putAll w0.mem 0x300000 [tok, 0, 0, 0, 0, 0, 0, 0, cmd]) 0x300800 [1]
  let m := Memory.putAll (Memory.putAll m 0x310010 [1]) 0x310800 [1]
  { w0.modSlot 0 fun x => { x with run := .parked, park := some ⟨77, .load, 0x2000, 0⟩ } with
    mem := m, drv := { w0.drv with fault := { qOn 0x320000 with held := [[1]] }, replay := qOn 0x300000, inval := qOn 0x310000 } }

theorem reaches_of {s : State} {pa n : Nat}
    (h : ((List.range n).all fun i => decide (s.devReach (pa + i) = some none) && s.gateOpen healthSrc (pa + i)) = true) : Reaches s pa n := by
  intro a h1 h2
  simp only [List.all_eq_true, List.mem_range, Bool.and_eq_true, decide_eq_true_eq] at h
  have := h (a - pa) (by omega)
  rwa [show pa + (a - pa) = a by omega] at this

theorem witness_DriverQueueResults : wDrvOff.power = .on ∧ wDrvOff.health.boot = 1 ∧
    ((wDrvOff.drvQ .replay).enabled = false ∧ (wDrvOff.drvQ .replay).descOk (drvInval .replay) = true) ∧
    ((wDrvOff.drvQ .fault).enabled = false ∧ (wDrvOff.drvQ .fault).descOk (drvInval .fault) = true ∧ (wDrvOff.drvQ .fault).held = [] ∧
      wDrvOff.healthPort.isSome = true ∧ Reaches wDrvOff (bits (wDrvOff.drvQ .fault).desc.toNat 128 64) 8) ∧
    ((wDrvOff.drvQ .inval).enabled = false ∧ (wDrvOff.drvQ .inval).descOk (drvInval .inval) = false) ∧
    ((wDrv 77 0).drvQ .replay).enabled = true ∧ (w0.drv.fault.held = [] ∧ w0.drv.fault.setup = false) ∧ w0.drv.replay.enabled = false :=
  ⟨by decide +kernel, by decide +kernel, by decide +kernel, ⟨by decide +kernel, by decide +kernel, by decide +kernel, by decide +kernel, reaches_of (by decide +kernel)⟩,
    by decide +kernel, by decide +kernel, by decide +kernel, by decide +kernel⟩

theorem witness_DriverQueueResults_noPort : ({ w0 with ports := [(0, { up := false }), (1, { up := false })] } : State).healthPort = none := by
  decide +kernel

theorem witness_DriverQueueResults_held : let q := (wDrv 77 0).drv.fault
    q.held = [[1]] ∧ q.setup = false ∧ q.enabled = true ∧ (wDrv 77 0).healthPort.isSome = true ∧ (q.tail - 0).toNat < 2 ^ q.log2 ∧
    Reaches (wDrv 77 0) (q.ring + q.tail.toNat % 2 ^ q.log2 * 128) 128 ∧ Reaches (wDrv 77 0) q.tailPA 8 :=
  ⟨by decide +kernel, by decide +kernel, by decide +kernel, by decide +kernel, by decide +kernel, reaches_of (by decide +kernel), reaches_of (by decide +kernel)⟩

/-- What `Published` asks but for the bytes that can be reached. -/
def headThere (s : State) (q : DrvQ) : Bool :=
  s.healthPort.isSome && (q.enabled && !q.setup) && (({ q with tail := BitVec.ofNat 64 (Memory.nat s.mem q.tailPA 8) } : DrvQ).pending != 0)

theorem published_of {s : State} {q : DrvQ} {size : Nat} (h : headThere s q = true) (h1 : Reaches s q.tailPA 8) (h2 : Reaches s q.headPA 8)
    (h3 : Reaches s (q.ring + q.head.toNat % 2 ^ q.log2 * size) size) :
    Published s q size (Memory.bytes s.mem (q.ring + q.head.toNat % 2 ^ q.log2 * size) size) := by
  simp only [headThere, Bool.and_eq_true, Bool.not_eq_true', bne_iff_ne] at h
  exact ⟨h.1.1, h.1.2.1, h.1.2.2, h.2, h1, h2, h3, rfl⟩

/-- The command at the head of the replay queue. -/
def replayHead (s : State) : List Byte :=
  Memory.bytes s.mem (s.drv.replay.ring + s.drv.replay.head.toNat % 2 ^ s.drv.replay.log2 * 16) 16

/-- Retry and abort of a token that a block waits for, and of one that no one holds; a command that is neither. -/
theorem witness_DriverQueueResults_replay :
    (Published (wDrv 77 0) (wDrv 77 0).drv.replay 16 (replayHead (wDrv 77 0)) ∧ Published (wDrv 77 1) (wDrv 77 1).drv.replay 16 (replayHead (wDrv 77 1)) ∧
      Published (wDrv 77 2) (wDrv 77 2).drv.replay 16 (replayHead (wDrv 77 2))) ∧
    (∀ c ∈ [0, 1], fieldAt (replayHead (wDrv 77 c)) 9 7 = 0 ∧ fieldAt (replayHead (wDrv 77 c)) 8 1 = c.toNat ∧
      (wDrv 77 c).holder (BitVec.ofNat 64 (fieldAt (replayHead (wDrv 77 c)) 0 8)) = some (.slot 0) ∧ (wDrv 77 c).eventRoom (slotCluster 0) = true ∧
      (wDrv 76 c).holder (BitVec.ofNat 64 (fieldAt (replayHead (wDrv 76 c)) 0 8)) = none) ∧
    (2 ≤ fieldAt (replayHead (wDrv 77 2)) 8 1 ∧ (wDrv 77 2).health.log.enabled = false) :=
  ⟨⟨published_of (by decide +kernel) (reaches_of (by decide +kernel)) (reaches_of (by decide +kernel)) (reaches_of (by decide +kernel)),
    published_of (by decide +kernel) (reaches_of (by decide +kernel)) (reaches_of (by decide +kernel)) (reaches_of (by decide +kernel)),
    published_of (by decide +kernel) (reaches_of (by decide +kernel)) (reaches_of (by decide +kernel)) (reaches_of (by decide +kernel))⟩,
    by decide +kernel, by decide +kernel⟩

theorem witness_DriverQueueResults_inval : let s := wDrv 77 0
    let q := s.drv.inval
    let e := Memory.bytes s.mem (q.ring + q.head.toNat % 2 ^ q.log2 * 32) 32
    s.drv.pending = none ∧ Published s q 32 e ∧ ∃ j ∈ maskClusters (fieldAt e 0x10 4), (s.cluster j.toNat).fenced = false :=
  ⟨by decide +kernel, published_of (by decide +kernel) (reaches_of (by decide +kernel)) (reaches_of (by decide +kernel)) (reaches_of (by decide +kernel)),
    by decide +kernel⟩

/-- An invalidation that two clusters have to do, and one that cluster 0 alone has left. -/
theorem witness_DriverQueueResults_done :
    (let s := { w0 with drv := { w0.drv with pending := some ([0, 1], 0, 0, 0) } }
     s.drv.pending = some ([0, 1], 0, 0, 0) ∧ (0 : ClusterId) ∈ ([0, 1] : List ClusterId) ∧ (s.cluster (0 : ClusterId).toNat).fenced = false ∧
       s.tlbBusy (0 : ClusterId).toNat 0 0 = false ∧ ∃ j ∈ ([0, 1] : List ClusterId), j ≠ 0 ∧ (s.cluster j.toNat).fenced = false) ∧
    (let s := wDrv 77 0
     let q := s.drv.inval
     s.healthPort.isSome = true ∧ s.tlbBusy (0 : ClusterId).toNat 0 0 = false ∧ q.enabled = true ∧ q.setup = false ∧ s.drv.orphan = false ∧ Reaches s q.headPA 8 ∧ Reaches s q.donePA 8 ∧ q.headPA + 8 ≤ q.donePA) :=
  ⟨by decide +kernel, by decide +kernel, by decide +kernel, by decide +kernel, by decide +kernel, by decide +kernel, reaches_of (by decide +kernel),
    reaches_of (by decide +kernel), by decide +kernel⟩

/-! Health, fences, resets, reserved words -/

def wLog : State := { w0 with health := { w0.health with log := { desc := dDesc } } }
def wDown : State := w0.modPort 0 fun p => { p with up := false }

theorem witness_HealthResults : w0.power = .on ∧ (w0.portUp (portNum false) = true ∧ w0.health.counts = []) ∧
    ((wDown.port (portNum false)).up = false ∧ (wDown.port (portNum false)).fenced = false ∧ portCode (portNum false) ∉ wDown.health.fenced ∧
      wDown.health.busy = false) ∧ (bits (159 : Word).toNat 0 8 < 160 ∧ 160 ≤ bits (160 : Word).toNat 0 8) ∧
    (wLog.health.log.enabled = false ∧ wLog.health.log.descOk false = true ∧ wLog.health.log.held = [] ∧
      wLog.devReach (bits wLog.health.log.desc.toNat 128 64) = some none ∧ wLog.gateOpen healthSrc (bits wLog.health.log.desc.toNat 128 64) = true ∧ wLog.health.boot = 1) := by
  decide +kernel

/-- A core, a Steward, a Porter, a slice, a port to be fenced; a command that no firmware core starts; a Steward that stops. -/
def wHlt : State := { w0 with health := { w0.health with busy := true } }
def wStop : State := w0.modCluster 0 fun c => { c with steward := { c.steward with stopped := true } }

theorem witness_FencingAndResetResults_queues (q : QId) : (wHlt.queue q).live = false := by
  have : wHlt.disp.queues = [] := by decide +kernel
  unfold State.queue; rw [this]; rfl

theorem witness_FencingAndResetResults : [coreCode 255, stewardCode 31, porterCode 31, sliceCode 159, portCode 1].all
      (fun u => codeOk u && !w0.isFenced u) = true ∧ (1 : BitVec 8).toNat ≤ 5 ∧ (5 : BitVec 8).toNat ≤ 5 ∧
    (wHlt.health.busy = true ∧ wHlt.isFenced (coreCode 3) = false ∧ wHlt.health.deferred = []) ∧
    (w0.modCore 3 fun c => { c with fenced := true }).isFenced (coreCode 3) = true ∧
    (w0.health.busy = false ∧ porterCode (0 : ClusterId).toNat ∉ w0.health.fenced ∧ (w0.cluster (0 : ClusterId).toNat).porter.runs = true ∧
      (wCopy (some cz)).porterIdle (0 : ClusterId).toNat = true) ∧
    (stewardCode (0 : ClusterId).toNat ∉ wStop.health.fenced ∧ (wStop.cluster (0 : ClusterId).toNat).fenced = false ∧
      (wStop.cluster (0 : ClusterId).toNat).steward.stopped = true) ∧ (w0.cores.map (·.1)).Nodup ∧ 255 ∈ ([3, 255] : List Nat) := by decide +kernel

/-- The 31st correctable error of slice 0 within an hour, and the 32nd. -/
def wErr (n : Nat) : State := { w0 with health := { w0.health with counts := [(sliceCode 0, List.replicate n 0)] } }

theorem witness_FencingAndResetResults_errors : codeOk (sliceCode 0) = true ∧ (wErr 30).isFenced (sliceCode 0) = false ∧ (wErr 30).health.busy = false ∧
    ((wErr 30).countEvent (sliceCode 0) (60 * minClocks)).1 < errorLimit (sliceCode 0) ∧
    (wErr 31).isFenced (sliceCode 0) = false ∧ errorLimit (sliceCode 0) ≤ ((wErr 31).countEvent (sliceCode 0) (60 * minClocks)).1 := by decide +kernel

/-- Words of zeros, of the Steward-only major, of the vector-class major 0x1D; vector length 0 and 8. -/
theorem witness_ReservedEncodingsStop : wSt.cur = .steward 3 ∧ w0.cur = .block 0 ∧ bits (0x5C000000 : BitVec 32).toNat 26 6 = 0x17 ∧
    (bits (0 : BitVec 32).toNat 26 6 ≠ 0x17 ∧ bits (0 : BitVec 32).toNat 26 6 < 0x1C) ∧
    (w0.lane = none ∧ 0x1D ≤ bits (0x74000400 : BitVec 32).toNat 26 6 ∧ bits (0x74000400 : BitVec 32).toNat 26 6 ≤ 0x24 ∧
      w0.hart.vl.toNat ≤ w0.hart.vstart.toNat) := by decide +kernel

/-- R416: an access over an UN and an RC page is RC, one over an SO page is SO; the part takes the kind. -/
theorem test_straddle_kind :
    let part (k : Nat) : Part := ⟨0, { pa := 0, pte := BitVec.ofNat 64 (0xF + k * 64), level := 1, home := 0 }, 8⟩
    strongest [part 2, part 0] = 0 ∧ strongest [part 1, part 2] = 1 ∧ ((part 2).withKind 1).loc.pte = 0x4F := by decide

end Sys2Proof.Tests
end

section
-- Elaborated one after the other: many short proofs at once take a thread, and its stack, each.
set_option Elab.async false

section
/-! SUPPORT. What an action leaves in place while it fences nothing (R496, R501): one relation between the state before and after,
its rules, and the accesses at the ordering points. -/
namespace Sys2Proof.Machine

/-! ### What an action leaves in place -/

/-- A core stays fused, fenced and with its lane groups enabled as it was, and an empty Sett table stays empty. -/
structure Core.Keeps (x y : Core) : Prop where
  fused : y.fused = x.fused
  fenced : y.fenced = x.fenced
  lanes : ∀ g : Fin 16, y.lanes[g].enabled = x.lanes[g].enabled
  sett : x.sett = [] → y.sett = []

/-- A cluster and its Porter stay fenced, and the Porter's firmware core halted, as they were. -/
structure Cluster.Keeps (x y : Cluster) : Prop where
  fenced : y.fenced = x.fenced
  porterFenced : y.porter.fenced = x.porter.fenced
  porterHalted : y.porter.halted = x.porter.halted

/-- A slice stays fenced as it was, and a fenced one that holds no line goes on without. -/
structure Slice.Keeps (x y : Slice) : Prop where
  fenced : y.fenced = x.fenced
  resident : x.fenced = true → x.resident = [] → y.resident = []

/-- An action that fences nothing and lifts no fence: every unit stays as contained as it was, and no time passes. -/
structure State.Keeps (s t : State) : Prop where
  clock : t.clock = s.clock
  fenced : t.health.fenced = s.health.fenced
  msix : t.health.msix = s.health.msix
  core : ∀ c, (s.core c).Keeps (t.core c)
  cluster : ∀ k, (s.cluster k).Keeps (t.cluster k)
  slice : ∀ i, (s.slice i).Keeps (t.slice i)
  port : ∀ p, (t.port p).fenced = (s.port p).fenced

theorem Core.Keeps.refl (x : Core) : x.Keeps x := ⟨rfl, rfl, fun _ => rfl, id⟩
theorem Cluster.Keeps.refl (x : Cluster) : x.Keeps x := ⟨rfl, rfl, rfl⟩
theorem Slice.Keeps.refl (x : Slice) : x.Keeps x := ⟨rfl, fun _ => id⟩

theorem Core.Keeps.trans {x y z : Core} (h : x.Keeps y) (k : y.Keeps z) : x.Keeps z :=
  ⟨k.fused.trans h.fused, k.fenced.trans h.fenced, fun g => (k.lanes g).trans (h.lanes g), fun e => k.sett (h.sett e)⟩

theorem Cluster.Keeps.trans {x y z : Cluster} (h : x.Keeps y) (k : y.Keeps z) : x.Keeps z :=
  ⟨k.fenced.trans h.fenced, k.porterFenced.trans h.porterFenced, k.porterHalted.trans h.porterHalted⟩

theorem Cluster.Keeps.ite {x a b : Cluster} {p : Prop} [Decidable p] (ha : x.Keeps a) (hb : x.Keeps b) :
    x.Keeps (if p then a else b) := by split <;> assumption

theorem Slice.Keeps.trans {x y z : Slice} (h : x.Keeps y) (k : y.Keeps z) : x.Keeps z :=
  ⟨k.fenced.trans h.fenced, fun f e => k.resident (h.fenced.trans f) (h.resident f e)⟩

theorem State.Keeps.trans {s t u : State} (h : s.Keeps t) (k : t.Keeps u) : s.Keeps u where
  clock := k.clock.trans h.clock
  fenced := k.fenced.trans h.fenced
  msix := k.msix.trans h.msix
  core c := (h.core c).trans (k.core c)
  cluster j := (h.cluster j).trans (k.cluster j)
  slice i := (h.slice i).trans (k.slice i)
  port p := (k.port p).trans (h.port p)

/-- All of the state that a fence concerns. -/
def State.fenceView (s : State) : Nat × List UnitCode × List (BitVec 6) × Tbl Core × Tbl Cluster × Tbl Slice × Tbl Port :=
  (s.clock, s.health.fenced, s.health.msix, s.cores, s.clusters, s.slices, s.ports)

theorem State.fenceView_eq {s t : State} (h : t.fenceView = s.fenceView) : t.clock = s.clock ∧ t.health.fenced = s.health.fenced ∧
    t.health.msix = s.health.msix ∧ t.cores = s.cores ∧ t.clusters = s.clusters ∧ t.slices = s.slices ∧ t.ports = s.ports := by
  simpa only [State.fenceView, Prod.mk.injEq] using h

namespace State.Keeps

/-- An update outside all that a fence concerns. -/
theorem untouched {s t : State} (h : t.fenceView = s.fenceView) : s.Keeps t := by
  obtain ⟨clock, fenced, msix, cores, clusters, slices, ports⟩ := State.fenceView_eq h
  refine ⟨clock, fenced, msix, fun c => ?_, fun k => ?_, fun i => ?_, fun p => ?_⟩
  · rw [State.core, State.core, cores]; exact .refl _
  · rw [State.cluster, State.cluster, clusters]; exact .refl _
  · rw [State.slice, State.slice, slices]; exact .refl _
  · rw [State.port, State.port, ports]

theorem refl (s : State) : s.Keeps s := untouched rfl

theorem ite {s a b : State} {p : Prop} [Decidable p] (ha : s.Keeps a) (hb : s.Keeps b) :
    s.Keeps (if p then a else b) := by
  split <;> assumption

/-- A choice: each branch keeps the fences, where its condition holds. -/
theorem dite {s a b : State} {p : Prop} [Decidable p] (ha : p → s.Keeps a) (hb : ¬p → s.Keeps b) :
    s.Keeps (if p then a else b) := by
  split
  · exact ha ‹_›
  · exact hb ‹_›

theorem foldl {α : Type} {f : State → α → State} (h : ∀ (s : State) a, s.Keeps (f s a)) (l : List α) (s : State) :
    s.Keeps (l.foldl f s) := by
  induction l generalizing s with
  | nil => exact refl s
  | cons a l ih => exact (h s a).trans (ih (f s a))

theorem modCore_at {s : State} {c : Nat} {f : Core → Core} (h : (s.core c).Keeps (f (s.core c))) : s.Keeps (s.modCore c f) where
  clock := rfl
  fenced := rfl
  msix := rfl
  core j := by
    by_cases e : c = j
    · subst e; rw [State.modCore_core_self]; exact h
    · rw [State.modCore_core_ne _ _ _ _ e]; exact .refl _
  cluster _ := .refl _
  slice _ := .refl _
  port _ := rfl

theorem modCluster_at {s : State} {k : Nat} {f : Cluster → Cluster} (h : (s.cluster k).Keeps (f (s.cluster k))) :
    s.Keeps (s.modCluster k f) where
  clock := rfl
  fenced := rfl
  msix := rfl
  core _ := .refl _
  cluster j := by
    by_cases e : k = j
    · subst e; rw [State.modCluster_cluster_self]; exact h
    · rw [State.modCluster_cluster_ne _ _ _ _ e]; exact .refl _
  slice _ := .refl _
  port _ := rfl

theorem modSlice_at {s : State} {i : Nat} {f : Slice → Slice} (h : (s.slice i).Keeps (f (s.slice i))) :
    s.Keeps (s.modSlice i f) where
  clock := rfl
  fenced := rfl
  msix := rfl
  core _ := .refl _
  cluster _ := .refl _
  slice j := by
    by_cases e : i = j
    · subst e; rw [State.modSlice_slice_self]; exact h
    · rw [State.modSlice_slice_ne _ _ _ _ e]; exact .refl _
  port _ := rfl

theorem modCore {s : State} {c : Nat} {f : Core → Core}
    (h : ∀ x : Core, x.Keeps (f x) := by exact fun _ => ⟨rfl, rfl, fun _ => rfl, id⟩) : s.Keeps (s.modCore c f) := modCore_at (h _)

theorem modCluster {s : State} {k : Nat} {f : Cluster → Cluster}
    (h : ∀ x : Cluster, x.Keeps (f x) := by exact fun _ => ⟨rfl, rfl, rfl⟩) : s.Keeps (s.modCluster k f) := modCluster_at (h _)

theorem modSlice {s : State} {i : Nat} {f : Slice → Slice}
    (h : ∀ x : Slice, x.Keeps (f x) := by exact fun _ => ⟨rfl, fun _ => id⟩) : s.Keeps (s.modSlice i f) := modSlice_at (h _)

/-- A slice that is not fenced may take and drop lines. -/
theorem modSlice_open {s : State} {i : Nat} {f : Slice → Slice} (h : (s.slice i).fenced = false)
    (e : ∀ x, (f x).fenced = x.fenced := by exact fun _ => rfl) : s.Keeps (s.modSlice i f) :=
  modSlice_at ⟨e _, fun g => by simp [h] at g⟩

/-- A line that leaves a slice's array. -/
theorem modSlice_filter {s : State} {i : Nat} {p : Nat → Bool} :
    s.Keeps (s.modSlice i fun x => { x with resident := x.resident.filter p }) :=
  modSlice fun _ => ⟨rfl, fun _ e => by simp only [e, List.filter_nil]⟩

theorem modPort {s : State} {p : Nat} {f : Port → Port} (h : ∀ x, (f x).fenced = x.fenced := by exact fun _ => rfl) :
    s.Keeps (s.modPort p f) where
  clock := rfl
  fenced := rfl
  msix := rfl
  core _ := .refl _
  cluster _ := .refl _
  slice _ := .refl _
  port j := by
    by_cases e : p = j
    · subst e; rw [State.modPort_port_self]; exact h _
    · rw [State.modPort_port_ne _ _ _ _ e]

end State.Keeps

/-! ### Base dies and slices -/
namespace State

theorem keeps_baseCount (s : State) (pa : Nat) (h : Bool) : s.Keeps (s.baseCount pa h) := .untouched rfl
theorem keeps_baseStore (s : State) (pa : Nat) (h : Bool) : s.Keeps (s.baseStore pa h) := .untouched rfl
theorem keeps_modGran (s : State) (g : Nat) (f : Gran → Gran) : s.Keeps (s.modGran g f) := .untouched rfl
theorem keeps_modSlot (s : State) (sl : SlotId) (f : Slot → Slot) : s.Keeps (s.modSlot sl f) := .untouched rfl
theorem keeps_setSlot (s : State) (sl : SlotId) (x : Slot) : s.Keeps (s.setSlot sl x) := .untouched rfl
theorem keeps_setMem (s : State) (m : Memory) : s.Keeps (s.setMem m) := .untouched rfl
theorem keeps_modLaunch (s : State) (q : QId) (n : BitVec 32) (f : Launch → Launch) : s.Keeps (s.modLaunch q n f) := .untouched rfl
theorem keeps_draw (s : State) : s.Keeps s.draw := .untouched rfl
theorem keeps_notify (s : State) (g : Nat) : s.Keeps (s.notify g) := .untouched rfl
theorem keeps_notifyRange (s : State) (pa n : Nat) : s.Keeps (s.notifyRange pa n) := .untouched rfl
theorem keeps_snoopDone (s : State) (pa : Nat) : s.Keeps (s.snoopDone pa) := .untouched rfl
theorem keeps_dropSnoops (s : State) (who : Nat) : s.Keeps (s.dropSnoops who) := .untouched rfl
theorem keeps_dropWatches (s : State) (w : Watcher) : s.Keeps (s.dropWatches w) := .untouched rfl
theorem keeps_putGranule (s : State) (pa : Nat) (bs : List Byte) : s.Keeps (s.putGranule pa bs) := .untouched rfl

theorem keeps_badRead (s : State) (pa : Nat) : s.Keeps (s.badRead pa) :=
  .ite (.untouched rfl) (.refl s)

theorem keeps_traceAck (s : State) (i src : Nat) (seq tag : BitVec 16) (d : Bool) (pa : Nat) :
    s.Keeps (s.traceAck i src seq tag d pa) :=
  .ite (.untouched rfl) (.refl s)

theorem keeps_keepBelow (s : State) (pa : Nat) (old : List Byte × Bool) : s.Keeps (s.keepBelow pa old) :=
  .ite (s.keeps_modGran ..) (.refl s)

theorem keeps_fillReads (s : State) (l : Nat) (h : Bool) : s.Keeps (s.fillReads l h) :=
  .foldl (fun s g => s.keeps_baseCount g h) _ s

theorem keeps_writeBack (s : State) (i l : Nat) : s.Keeps (s.writeBack i l) := by
  rw [State.writeBack.eq_def]
  exact (Keeps.foldl (fun s g => (s.keeps_baseStore g _).trans (keeps_modGran ..)) _ s).trans .modSlice

theorem keeps_flushSlice (s : State) (i : Nat) : s.Keeps (s.flushSlice i) :=
  .foldl (fun s l => s.keeps_writeBack i l) _ s

/-- Only a slice that is not fenced takes a line, and evicts one where it holds one too many (R407, R426). -/
theorem keeps_sliceTouch (s : State) (pa : Nat) (hint : Hint) (w whole h : Bool) :
    s.Keeps (s.sliceTouch pa hint w whole h) := by
  have store : s.Keeps (if w then s.baseStore pa h else s.baseCount pa h) :=
    .ite (s.keeps_baseStore pa h) (s.keeps_baseCount pa h)
  rw [State.sliceTouch.eq_def]
  refine .dite (fun _ => store) fun hf => ?_
  have hopen : (s.slice (sliceOf pa)).fenced = false := Bool.eq_false_iff.mpr hf
  have soil (b : Bool) : s.Keeps (if b then s.modSlice (sliceOf pa) fun x => x.soil (lineOf pa) h else s) :=
    .ite (.modSlice_open hopen) (.refl s)
  refine .ite ?_ ?_
  · cases hint with
    | normal => exact .modSlice_open hopen (fun _ => by cases w <;> rfl)
    | noalloc => exact soil w
    | bypass =>
      exact .ite (soil w) ((Keeps.ite (s.keeps_baseStore pa h) (.refl s)).trans .modSlice_filter)
  · cases hint with
    | normal =>
      have fill : s.Keeps (if w && whole then s else s.fillReads (lineOf pa) h) := .ite (.refl s) (s.keeps_fillReads ..)
      have alloc := fill.trans (.modSlice_open ((fill.slice _).fenced.trans hopen)
        (f := fun x => let x := { x with resident := lineOf pa :: x.resident }; if w then x.soil (lineOf pa) h else x)
        (fun _ => by cases w <;> rfl))
      refine .ite alloc (alloc.trans ?_)
      exact (Keeps.ite (keeps_writeBack ..) (.refl _)).trans ((keeps_draw _).trans .modSlice_filter)
    | noalloc => exact store
    | bypass => exact store

theorem keeps_sliceWrite (s : State) (src : Nat) (seq : BitVec 16) (pa : Nat) (hint : Hint) (bs : List Byte) :
    s.Keeps (s.sliceWrite src seq pa hint bs) :=
  (((s.keeps_sliceTouch ..).trans (keeps_putGranule ..)).trans (keeps_keepBelow ..)).trans
    ((keeps_traceAck ..).trans (keeps_notify ..))

theorem keeps_sliceDiscard (s : State) (src : Nat) (seq : BitVec 16) (pa : Nat) : s.Keeps (s.sliceDiscard src seq pa) :=
  ((s.keeps_baseStore ..).trans ((keeps_putGranule ..).trans (keeps_modGran ..))).trans
    ((keeps_traceAck ..).trans (keeps_notify ..))

theorem keeps_nextSeq (s : State) (i src : Nat) : s.Keeps (s.nextSeq i src).2 := by
  rw [State.nextSeq.eq_def]
  dsimp only
  exact .modSlice

/-! ### Writes at the other ordering points -/

theorem keeps_settKillChunk (s : State) (c chunk : Nat) : s.Keeps (s.settKillChunk c chunk) := by
  rw [State.settKillChunk.eq_def]
  refine .ite (.refl s) ((?_ : s.Keeps _).trans (.foldl (fun s e => s.keeps_modSlot ..) _ _))
  exact .modCore fun _ => ⟨rfl, rfl, fun _ => rfl, fun e => by simp only [e, List.filter_nil]⟩

theorem keeps_hostCount (s : State) (p pa : Nat) (w : Bool) : s.Keeps (s.hostCount p pa w) := .modPort

theorem keeps_dropLine (s : State) (p l : Nat) : s.Keeps (s.dropLine p l) :=
  .ite (Keeps.trans .modPort (keeps_notifyRange ..)) (.refl s)

theorem keeps_trimLines (s : State) (p : Nat) : s.Keeps (s.trimLines p) := by
  rw [State.trimLines.eq_def]
  refine .ite (.refl s) ?_
  split
  · exact (Keeps.ite (s.keeps_hostCount ..) (.refl s)).trans ((keeps_draw _).trans (keeps_dropLine ..))
  · exact .refl s

theorem keeps_otherPort (s : State) (p l : Nat) (own : Bool) : s.Keeps (s.otherPort p l own) :=
  .ite (.refl s) (.ite (s.keeps_dropLine ..) .modPort)

theorem keeps_hostTouch (s : State) (home pa : Nat) (w : Bool) : s.Keeps (s.hostTouch home pa w) := by
  have ask (p : Nat) : s.Keeps ((s.otherPort p (pa / 64) w).hostCount p pa w) :=
    (s.keeps_otherPort ..).trans (keeps_hostCount ..)
  rw [State.hostTouch.eq_def]
  dsimp only
  split
  · exact .ite (.ite (Keeps.trans .modPort (keeps_trimLines ..)) ((ask _).trans (Keeps.trans .modPort (keeps_trimLines ..)))) (.refl s)
  · exact (ask _).trans (Keeps.trans .modPort (keeps_trimLines ..))

theorem keeps_hostCtr (s : State) (home pa : Nat) : s.Keeps (s.hostCtr home pa) := .modPort

theorem keeps_performWrite (s : State) (src home pa : Nat) (hint : Hint) (bs : List Byte) :
    s.Keeps (s.performWrite src home pa hint bs) := by
  rw [State.performWrite.eq_def]
  split
  · exact (s.keeps_nextSeq ..).trans (keeps_sliceWrite ..)
  · exact ((s.keeps_hostTouch ..).trans (keeps_hostCtr ..)).trans ((keeps_setMem ..).trans (keeps_notify ..))
  · refine (s.keeps_putGranule pa bs).trans (Keeps.trans ?_ (keeps_notify ..))
    split
    · exact keeps_settKillChunk ..
    · exact .refl _
  · exact (s.keeps_putGranule pa bs).trans (keeps_notify ..)

theorem keeps_didRead (s : State) (src home pa : Nat) (hint : Hint) : s.Keeps (s.didRead src home pa hint) := by
  rw [State.didRead.eq_def]
  split
  · exact (s.keeps_nextSeq ..).trans (keeps_sliceTouch ..)
  · exact s.keeps_hostTouch ..
  · exact .refl s

end State
end Sys2Proof.Machine
end

section
/-! SUPPORT. Computations over the state that keep the fences, and the health log. -/
namespace Sys2Proof.Machine

/-! ### Computations that keep the fences -/

/-- The state that a computation leaves, whether it ends, traps or waits. -/
def leftBy {α : Type} : EStateM.Result Exc State α → State
  | .ok _ s => s
  | .error _ s => s

/-- A computation that fences nothing and lifts no fence, however it ends. -/
structure M.Keeps {α : Type} (m : M α) : Prop where
  left : ∀ s : State, s.Keeps (leftBy (m s))

namespace M.Keeps

theorem pure {α : Type} (a : α) : M.Keeps (Pure.pure a : M α) := ⟨fun s => .refl s⟩
theorem stall {α : Type} : M.Keeps (Machine.stall : M α) := ⟨fun s => .refl s⟩
theorem trap {α : Type} (t : Trap) : M.Keeps (Machine.trap t : M α) := ⟨fun s => .refl s⟩
theorem get : M.Keeps (MonadState.get : M State) := ⟨fun s => .refl s⟩
theorem modify {f : State → State} (h : ∀ s : State, s.Keeps (f s)) : M.Keeps (modifyGet fun s => ((), f s) : M Unit) := ⟨h⟩

theorem bind {α β : Type} {m : M α} {f : α → M β} (hm : M.Keeps m) (hf : ∀ a, M.Keeps (f a)) : M.Keeps (m >>= f) := by
  refine ⟨fun s => ?_⟩
  have := hm.left s
  cases h : m s with
  | ok a t => rw [h] at this; rw [M.bind_ok h]; exact this.trans ((hf a).left t)
  | error e t => rw [h] at this; rw [M.bind_error h]; exact this

/-- A computation that goes on by the cases of an optional value. -/
theorem bind_option {α β : Type} {m : M (Option α)} {f : Option α → M β} (hm : M.Keeps m) (hnone : M.Keeps (f none))
    (hsome : ∀ a, M.Keeps (f (some a))) : M.Keeps (m >>= f) :=
  .bind hm fun o => match o with
    | none => hnone
    | some a => hsome a

theorem ite {α : Type} {p : Prop} [Decidable p] {m n : M α} (hm : M.Keeps m) (hn : M.Keeps n) :
    M.Keeps (if p then m else n) := by split <;> assumption

end M.Keeps

/-- What a computation leaves, by cases. -/
theorem State.Keeps.leftBy_ite {α : Type} {s : State} {p : Prop} [Decidable p] {m n : M α} (hm : s.Keeps (leftBy (m s)))
    (hn : s.Keeps (leftBy (n s))) : s.Keeps (leftBy ((if p then m else n : M α) s)) := by split <;> assumption

theorem keeps_snoopFor (src pa : Nat) (inv : Bool) : M.Keeps (snoopFor src pa inv) := by
  refine ⟨fun s => ?_⟩
  have sent (l : List Snoop) : s.Keeps { s with snoops := l } := .untouched rfl
  unfold snoopFor
  rw [M.bind_get]
  dsimp only
  generalize s.snoops.find? _ = o
  cases o with
  | some x =>
    exact .leftBy_ite (sent _) (.leftBy_ite (.leftBy_ite (.refl s) (sent _)) (.refl s))
  | none => exact .leftBy_ite (.refl s) (.leftBy_ite (sent _) (.refl s))

theorem keeps_snoopGate (src pa : Nat) (inv : Bool) : M.Keeps (snoopGate src pa inv) := by
  unfold snoopGate
  exact .bind .get fun s => .ite (.bind .stall fun _ => keeps_snoopFor ..) (keeps_snoopFor ..)

theorem keeps_devCheck (store : Bool) : ∀ f pa n, M.Keeps (devCheck store f pa n)
  | 0, _, _ => .pure _
  | f + 1, pa, n => by
    have stop (c : Cause) : M.Keeps (do
        if !store then modify fun s => s.badRead pa
        trap { cause := c, va := BitVec.ofNat 64 pa, vaValid := true } : M Unit) :=
      .ite (.bind (.modify fun s => s.keeps_badRead pa) fun _ => .trap _) (.trap _)
    have gate := keeps_snoopGate healthSrc pa store
    have rest := keeps_devCheck store f
    unfold devCheck
    refine .ite (.pure _) (.bind .get fun s => ?_)
    dsimp only
    cases s.devReach pa with
    | none => exact .bind .stall fun _ => .bind_option gate (rest _ _) stop
    | some r =>
      cases r with
      | none => exact .bind_option gate (rest _ _) stop
      | some c =>
        exact .ite (.bind_option gate (rest _ _) stop) (.bind (stop c) fun _ => .bind_option gate (rest _ _) stop)

/-! ### The health log -/
namespace State

theorem keeps_devPut : ∀ (f : Nat) (s : State) (pa : Nat) (bs : List Byte), s.Keeps (s.devPut pa bs f)
  | 0, s, _, _ => .refl s
  | f + 1, s, _, _ =>
    .ite (.refl s) (((s.keeps_performWrite ..).trans (keeps_snoopDone ..)).trans (keeps_devPut f ..))

end State

theorem keeps_devWord (pa : Nat) : M.Keeps (devWord pa) := by
  unfold devWord
  refine .bind (keeps_devCheck ..) fun _ => ⟨fun s => ?_⟩
  exact (s.keeps_didRead ..).trans (State.keeps_snoopDone ..)

theorem keeps_drvStep (q : DrvQ) (size : Nat) : M.Keeps (drvStep q size) := by
  unfold drvStep
  refine .ite (.pure _) (.ite ?_ ?_)
  · exact .bind (keeps_devCheck ..) fun _ => .bind (.modify fun s => s.keeps_devPut ..) fun _ => .pure _
  · split
    · exact .pure _
    · next e rest _ =>
      have put (q : DrvQ) : M.Keeps (do
          devCheck true 6 (q.ring + q.tail.toNat % 2 ^ q.log2 * size) size
          devCheck true 2 q.tailPA 8
          modify fun s => (s.devPut (q.ring + q.tail.toNat % 2 ^ q.log2 * size) e 6).devPut q.tailPA (bytesOfNat 8 (q.tail + 1).toNat) 2
          return some { q with tail := q.tail + 1, held := rest } : M (Option DrvQ)) :=
        .bind (keeps_devCheck ..) fun _ => .bind (keeps_devCheck ..) fun _ =>
          .bind (.modify fun s => (s.keeps_devPut ..).trans (State.keeps_devPut ..)) fun _ => .pure _
      refine .ite (.bind (.bind (keeps_devWord _) fun _ => .pure _) fun q => ?_) (.bind (.pure _) fun q => ?_)
      · exact .ite (.pure _) (put q)
      · exact .ite (.pure _) (put q)

namespace State

theorem keeps_drvFlush (size : Nat) : ∀ (f : Nat) (s : State) (q : DrvQ), s.Keeps (s.drvFlush q size f).1
  | 0, s, _ => .refl s
  | f + 1, s, q => by
    have h := (keeps_drvStep q size).left s
    rw [State.drvFlush.eq_def]
    dsimp only [EStateM.run]
    cases e : drvStep q size s with
    | ok o t =>
      rw [e] at h
      cases o with
      | none => exact h
      | some q => exact h.trans (keeps_drvFlush size f t q)
    | error x t =>
      rw [e] at h
      cases x <;> exact h

theorem keeps_flushLog (s : State) : s.Keeps s.flushLog := by
  have h := keeps_drvFlush 32 (s.health.log.held.length + 2) s s.health.log
  exact h.trans (.untouched rfl)

theorem keeps_logHealth (s : State) (u : UnitCode) (c : BitVec 8) (n : BitVec 16) (pa : Nat) : s.Keeps (s.logHealth u c n pa) := by
  refine Keeps.trans ?_ (keeps_flushLog _)
  exact .untouched rfl

end State
end Sys2Proof.Machine
end

section
/-! SUPPORT. Events, blocks that leave their slots, and records that are accounted keep the fences. -/
namespace Sys2Proof.Machine
namespace State

/-! ### Event queues -/

theorem keeps_postEvent (s : State) (k : Nat) (e : EventRec) : s.Keeps (s.postEvent k e) :=
  .ite ((keeps_setMem s _).trans (.modCluster_at (f := fun _ => { s.cluster k with
    tail := (s.cluster k).tail + 1, service := if (s.cluster k).count = 0 then s.clock else (s.cluster k).service })
    ⟨rfl, rfl, rfl⟩)) .modCluster

/-! ### What leaves with a block -/

theorem keeps_rouse (s : State) (sl : SlotId) (p : Wait → Bool) : s.Keeps (s.rouse sl p) :=
  .ite (.refl s) (s.keeps_modSlot ..)

theorem keeps_rouseCore (s : State) (c : Nat) (p : Wait → Bool) : s.Keeps (s.rouseCore c p) :=
  .foldl (fun s _ => s.keeps_rouse ..) _ s

theorem keeps_rouseSends (s : State) (k : Nat) : s.Keeps (s.rouseSends k) :=
  .foldl (fun s _ => s.keeps_rouseCore ..) _ s

theorem keeps_abandonRest (s : State) (sl : SlotId) (id : Nat) : s.Keeps (s.abandonRest sl id) :=
  (s.keeps_modSlot ..).trans (keeps_rouse ..)

theorem keeps_libSweep (s : State) (c : Nat) : s.Keeps (s.libSweep c) := by
  unfold State.libSweep
  exact .modCore

theorem keeps_finishTile (s : State) (sl : SlotId) (t : TileInstr) : s.Keeps (s.finishTile sl t) :=
  (s.keeps_modSlot ..).trans (keeps_libSweep ..)

theorem keeps_reopen (s : State) (c : Nat) : s.Keeps (s.reopen c) := by
  refine .foldl (fun s n => ?_) _ s
  refine .ite (.refl s) (.foldl (fun s t => ?_) _ s)
  split
  · refine .ite (.refl s) (Keeps.trans (t := s.modCore c _) ?_ (keeps_rouseSends ..))
    exact .modCore
  · exact .refl s

theorem keeps_channelFreed (s : State) (c : Nat) : s.Keeps (s.channelFreed c) :=
  (s.keeps_reopen c).trans (keeps_rouseCore ..)

theorem keeps_endPosting (s : State) (c : Nat) (m : SlotId × Nat) : s.Keeps (s.endPosting c m) := by
  rw [State.endPosting.eq_def]
  split
  · exact .refl s
  · next p _ =>
    have withdrawn : s.Keeps (s.modCore c fun x => { x with postings := x.postings.filter fun q => q != p }) := .modCore
    refine (withdrawn.trans ?_).trans (keeps_channelFreed ..)
    split
    · exact .refl _
    · refine Keeps.trans ?_ (keeps_finishTile ..)
      split
      · exact keeps_abandonRest ..
      · exact .refl _

theorem keeps_endSend (s : State) (k : Nat) (m : Send) : s.Keeps (s.endSend k m) :=
  Keeps.trans .modCluster (.foldl (fun s _ => .ite (s.keeps_endPosting ..) (.refl s)) _ _)

theorem keeps_recordFailed (s : State) (sl : SlotId) (f : FailedWrite) (v : Bool) : s.Keeps (s.recordFailed sl f v) :=
  s.keeps_modSlot ..

theorem keeps_failHeld (s : State) (q : Stream) : s.Keeps (s.failHeld q) := by
  refine .foldl (fun s h => ?_) _ s
  rw [State.heldFails.eq_def]
  split
  · exact s.keeps_recordFailed ..
  · exact .refl s

theorem keeps_sweepDens (s : State) (c : Nat) : s.Keeps (s.sweepDens c) := by
  unfold State.sweepDens State.sweepBut
  exact .modCore

theorem keeps_setWatches (s : State) (l : List Watch) : s.Keeps { s with watches := l } := .untouched rfl

theorem keeps_freeSlot (s : State) (sl : SlotId) : s.Keeps (s.freeSlot sl) := by
  unfold State.freeSlot
  extract_lets n c k held told watched cmds sends reads core
  have failed : s.Keeps held := .foldl (fun s q => s.keeps_failHeld q) _ s
  have unwatched : held.Keeps watched := ((keeps_dropWatches ..).trans (keeps_dropSnoops _ c)).trans (keeps_setWatches ..)
  have uncommanded : watched.Keeps cmds := .foldl (fun s _ => .modCluster) _ _
  have unsent : cmds.Keeps sends := .foldl (fun s m => s.keeps_endSend ..) _ _
  have unread : sends.Keeps reads := .modCluster
  have left : reads.Keeps core := .modCore fun _ => ⟨rfl, rfl, fun g => by simp, id⟩
  have swept : core.Keeps ((((core.setSlot sl {}).libSweep c).sweepDens c).channelFreed c) :=
    (((keeps_setSlot ..).trans (keeps_libSweep ..)).trans (keeps_sweepDens ..)).trans (keeps_channelFreed ..)
  exact failed.trans (unwatched.trans (uncommanded.trans (unsent.trans (unread.trans (left.trans swept)))))

/-! ### Blocks that stop, records that are accounted -/

theorem keeps_interrupt (s : State) (sl : SlotId) (back : Bool) : s.Keeps (s.interrupt sl back) := by
  unfold State.interrupt
  extract_lets x counted waits
  have count : s.Keeps counted := s.keeps_modLaunch ..
  have wait : counted.Keeps waits := .ite .modCluster (.refl _)
  exact .ite (.refl s) (.ite (s.keeps_freeSlot sl) (count.trans (wait.trans (keeps_freeSlot ..))))

theorem keeps_trapEvent (s : State) (k : Nat) (e : EventRec) : s.Keeps (s.trapEvent k e) := by
  unfold State.trapEvent
  exact (s.keeps_modLaunch ..).trans (.ite (keeps_freeSlot ..) (.refl _))

theorem keeps_unpark (s : State) (k : Nat) (sl : SlotId) : s.Keeps (s.unpark k sl) := by
  unfold State.unpark
  extract_lets again unparked
  have unpark : s.Keeps unparked := s.keeps_modSlot ..
  refine unpark.trans ?_
  cases again with
  | none => exact .refl _
  | some e => exact .modCluster

theorem keeps_setSavedTiles (s : State) (l : List TileImage) : s.Keeps { s with savedTiles := l } := .untouched rfl

theorem keeps_replayToken (s : State) (k : Nat) (tok : Word) : s.Keeps (s.replayToken k tok) := by
  unfold State.replayToken
  extract_lets slots unparked cmds mine own
  have unpark : s.Keeps unparked := .foldl (fun s _ => s.keeps_unpark ..) _ s
  have resume : unparked.Keeps cmds := by
    refine .foldl (fun s j => ?_) _ _
    exact .modCluster fun _ => .ite ⟨rfl, rfl, rfl⟩ (.refl _)
  have ready : cmds.Keeps own := .modCluster
  exact unpark.trans (resume.trans (ready.trans (keeps_setSavedTiles ..)))

theorem keeps_keepChild (s : State) (k : Nat) (e : EventRec) : s.Keeps (s.keepChild k e) := .modCluster

theorem keeps_accountRecord (s : State) (k : Nat) (e : EventRec) : s.Keeps (s.accountRecord k e) :=
  .ite (s.keeps_modLaunch ..) (.ite (s.keeps_trapEvent ..) (.ite (s.keeps_replayToken ..) (.ite (s.keeps_keepChild ..) (.refl s))))

theorem keeps_drainEvents (s : State) (k : Nat) : s.Keeps (s.drainEvents k) := by
  unfold State.drainEvents
  extract_lets accounted again
  have account : s.Keeps accounted := .foldl (fun s _ => s.keeps_accountRecord ..) _ s
  have child : accounted.Keeps again := .foldl (fun s _ => s.keeps_keepChild ..) _ _
  exact account.trans (child.trans .modCluster)

theorem keeps_returnPending (s : State) (k : Nat) (keep : Pending → Bool) : s.Keeps (s.returnPending k keep) := by
  unfold State.returnPending
  extract_lets ps kept
  have : s.Keeps kept := .modCluster
  exact this.trans (.foldl (fun s _ => s.keeps_modLaunch ..) _ _)

/-- What a warm reset does to a cluster's blocks contains no unit and frees none (R501). -/
theorem keeps_resetBlocks (s : State) (k : Nat) : s.Keeps (s.resetBlocks k) := by
  unfold State.resetBlocks
  extract_lets stayed drained freed
  have stay : s.Keeps stayed := .foldl (fun s _ => s.keeps_modSlot ..) _ s
  have drain : stayed.Keeps drained := keeps_drainEvents ..
  have free : drained.Keeps freed := .foldl (fun s _ => s.keeps_interrupt ..) _ _
  exact stay.trans (drain.trans (free.trans (keeps_returnPending ..)))

end State
end Sys2Proof.Machine
end

section
/-! SUPPORT. Requests at a slice keep the fences (R403 - R407, R412). -/
namespace Sys2Proof.Machine
/-- A map over the entries of a table that leaves an unlisted one at its default. -/
theorem Tbl.get_map {α : Type} (d : α) (f : α → α) (hd : f d = d) (t : Tbl α) (i : Nat) :
    Tbl.get d (t.map fun e => (e.1, f e.2)) i = f (Tbl.get d t i) := by
  induction t with
  | nil => exact hd.symm
  | cons e t ih =>
    simp only [List.map_cons, Tbl.get]
    split
    · rfl
    · exact ih

namespace State

/-! ### Requests at a slice -/

theorem Keeps.snd_ite {α : Type} {s : State} {p : Prop} [Decidable p] {x y : α × State} (hx : s.Keeps x.2) (hy : s.Keeps y.2) :
    s.Keeps (if p then x else y).2 := by split <;> assumption

theorem keeps_perform (s : State) (r : Request) : s.Keeps (s.perform r).2 := by
  have wr (bs : List Byte) : s.Keeps ((s.sliceWrite r.src r.seq r.pa r.hint bs).snoopDone r.pa) :=
    (s.keeps_sliceWrite ..).trans (keeps_snoopDone ..)
  unfold State.perform
  refine .snd_ite (.refl s) (.snd_ite (.refl s) ?_)
  cases r.op with
  | read n => exact .snd_ite (s.keeps_badRead _) ((s.keeps_sliceTouch ..).trans (keeps_snoopDone ..))
  | write bs => exact .snd_ite (.refl s) (wr _)
  | amo op w v => exact .snd_ite (s.keeps_badRead _) (wr _)
  | cas n e v => exact .snd_ite (s.keeps_badRead _) (wr _)
  | reduce op w v => exact .snd_ite (s.keeps_badRead _) (wr _)
  | discard => exact (s.keeps_sliceDiscard ..).trans (keeps_snoopDone ..)

theorem keeps_answer (s : State) (i : Nat) (read : Bool) (p : Reply) : s.Keeps (s.modSlice i fun x => x.answer read p) :=
  .modSlice

theorem keeps_serve (s : State) (i : Nat) (r : Request) : s.Keeps (s.serve i r) :=
  (s.keeps_perform r).trans (keeps_answer ..)

theorem keeps_serveFailed (s : State) (i : Nat) (r : Request) (c : Cause) : s.Keeps (s.serveFailed i r c) :=
  s.keeps_answer ..

/-- A request goes on or waits: the state in which it waits, and the one in which it has gone on. -/
theorem keeps_trySnoop (s : State) (i : Nat) (r : Request) :
    s.Keeps (s.trySnoop i r).2 ∧ ∀ t, (s.trySnoop i r).1 = some t → s.Keeps t := by
  have h := (keeps_snoopFor r.src r.pa (!reqIsRead r.op)).left s
  unfold State.trySnoop
  dsimp only [EStateM.run]
  cases e : snoopFor r.src r.pa (!reqIsRead r.op) s with
  | ok o t =>
    rw [e] at h
    cases o with
    | none => exact ⟨h, fun _ hu => Option.some.inj hu ▸ Keeps.trans h (keeps_serve ..)⟩
    | some c => exact ⟨h, fun _ hu => Option.some.inj hu ▸ Keeps.trans h (keeps_serveFailed ..)⟩
  | error x t =>
    rw [e] at h
    exact ⟨h, fun _ hu => nomatch hu⟩

theorem keeps_hintDone (s : State) (line : Nat) : s.Keeps (s.hintDone line) := by
  refine .ite ?_ (.refl s)
  refine ⟨rfl, rfl, rfl, fun c => ?_, fun _ => .refl _, fun _ => .refl _, fun _ => rfl⟩
  unfold State.core
  rw [Tbl.get_map {} (fun x : Core => { x with hints := x.hints.filter fun h => h.1 != line }) rfl]
  exact ⟨rfl, rfl, fun _ => rfl, id⟩

theorem keeps_drainLine (i line : Nat) : ∀ (f : Nat) (s : State), s.Keeps (s.drainLine i line f)
  | 0, s => .refl s
  | f + 1, s => by
    rw [State.drainLine.eq_def]
    dsimp only
    cases (s.slice i).mshr.find? fun e => e.1 == line with
    | none => exact .refl s
    | some e =>
      obtain ⟨l, rs⟩ := e
      cases rs with
      | nil => exact (s.keeps_hintDone line).trans .modSlice
      | cons r rest =>
        obtain ⟨hwait, hgo⟩ := s.keeps_trySnoop i r
        dsimp only
        generalize s.trySnoop i r = o at hwait hgo
        obtain ⟨o, t⟩ := o
        cases o with
        | none => exact hwait
        | some u => exact ((hgo u rfl).trans .modSlice).trans (keeps_drainLine i line f _)

theorem keeps_enter (s : State) (i : Nat) (r : Request) : s.Keeps (s.enter i r).2 := by
  have join (t : State) : t.Keeps (t.modSlice i fun x =>
      if x.mshr.any fun e => e.1 == lineOf r.pa then
        { x with mshr := x.mshr.map fun e => if e.1 == lineOf r.pa then (lineOf r.pa, e.2 ++ [r]) else e }
      else { x with mshr := x.mshr ++ [(lineOf r.pa, [r])] }) :=
    .modSlice fun x => by split <;> exact ⟨rfl, fun _ => id⟩
  obtain ⟨hwait, hgo⟩ := s.keeps_trySnoop i r
  unfold State.enter
  refine .snd_ite (join s) (.snd_ite (.snd_ite (join s) (.refl s)) ?_)
  generalize s.trySnoop i r = o at hwait hgo
  obtain ⟨o, t⟩ := o
  cases o with
  | none => exact hwait.trans (join t)
  | some u => exact hgo u rfl

theorem keeps_place (s : State) (i : Nat) (r : Request) : s.Keeps (s.place i r) := by
  have wait (t : State) : t.Keeps (t.modSlice i fun x => { x with waiting := x.waiting ++ [r] }) := .modSlice
  exact .ite (wait s) (.ite (s.keeps_enter i r) ((s.keeps_enter i r).trans (wait _)))

theorem keeps_takeIn (s : State) (i : Nat) (r : Request) : s.Keeps (s.takeIn i r) := by
  unfold State.takeIn
  extract_lets t x d
  have drop : s.Keeps t := .modSlice
  refine drop.trans (.ite (.ite (t.keeps_place i r) ?_) (.ite (.ite (.refl t) .modSlice) ?_))
  · split
    · exact Keeps.trans .modSlice (keeps_traceAck ..)
    · exact .refl t
  · exact Keeps.trans .modSlice (keeps_place ..)

theorem keeps_takeInMore (i : Nat) : ∀ (f : Nat) (s : State), s.Keeps (s.takeInMore i f)
  | 0, s => .refl s
  | f + 1, s => by
    rw [State.takeInMore.eq_def]
    dsimp only
    split
    · exact .refl s
    · exact (Keeps.trans .modSlice (keeps_takeIn ..)).trans (keeps_takeInMore i f _)

end State
end Sys2Proof.Machine
end

section
/-! SUPPORT. Commands of a fenced Porter and the lines of a lost port keep the fences (R263, R486, R487). -/
namespace Sys2Proof.Machine
namespace State

/-! ### Commands of a fenced Porter -/

theorem keeps_modCmds (s : State) (k : Nat) (f : List Cmd → List Cmd) : s.Keeps (s.modCmds k f) := .modCluster

theorem keeps_endStream (s : State) (sl : SlotId) (q : BitVec 3) (c : Cause) : s.Keeps (s.endStream sl q c) :=
  (s.keeps_modSlot ..).trans (keeps_postEvent ..)

theorem keeps_stopCmd (s : State) (k : Nat) (c : Cmd) (x : Cause) (va : Option Word) (failed : Bool) :
    s.Keeps (s.stopCmd k c x va failed) := by
  unfold State.stopCmd
  extract_lets abandoned fails woken
  have abandon : s.Keeps abandoned := by
    cases e : c.instr.td.bind (·.entry) with
    | none => simp only [abandoned, e]; exact .refl s
    | some id => simp only [abandoned, e]; exact s.keeps_abandonRest ..
  have fail : abandoned.Keeps fails := .ite (keeps_recordFailed ..) (.refl _)
  have wake : fails.Keeps woken := .ite (keeps_modSlot ..) (.refl _)
  exact abandon.trans (fail.trans (wake.trans ((keeps_dropWatches ..).trans (keeps_modCmds ..))))

theorem keeps_handOver (s : State) (k : Nat) (c : Cmd) : s.Keeps (s.handOver k c) := by
  unfold State.handOver
  extract_lets added
  have add : s.Keeps added := .modCluster
  refine add.trans ?_
  split
  · exact keeps_setMem ..
  · exact .refl _

theorem keeps_fencedCmd (s : State) (c : Cmd) : s.Keeps (s.fencedCmd c) :=
  (s.keeps_modCmds ..).trans (keeps_stopCmd ..)

theorem keeps_passOn (s : State) (k : Nat) (c : Cmd) : s.Keeps (s.passOn k c) := by
  unfold State.passOn
  refine .ite (.refl s) ?_
  split
  · exact (s.keeps_modCmds ..).trans (keeps_fencedCmd ..)
  · exact (s.keeps_modCmds ..).trans (keeps_handOver ..)

theorem keeps_passCmd (s : State) (k : Nat) (c : Cmd) : s.Keeps (s.passCmd k c) := by
  unfold State.passCmd
  dsimp only
  cases c.src with
  | refill q => exact (s.keeps_modCmds ..).trans (keeps_endStream ..)
  | tile => exact .ite (.ite (.refl s) (s.keeps_stopCmd ..)) (s.keeps_passOn ..)

theorem keeps_codeFence (s : State) (c : Nat) : s.Keeps (s.codeFence c) := by
  unfold State.codeFence
  refine .ite (.refl s) (.foldl (fun s n => ?_) _ s)
  exact .ite (.refl s) ((Keeps.ite .modCluster (.refl s)).trans (keeps_freeSlot ..))

theorem keeps_endPaths (s : State) (u : UnitCode) : s.Keeps (s.endPaths u) := by
  refine Keeps.trans ?_ (.foldl (fun s v => .modSlice) _ _)
  exact .untouched rfl

/-! ### A port that is lost -/

theorem keeps_setDrv (s : State) (d : Driver) : s.Keeps { s with drv := d } := .untouched rfl

theorem keeps_loseLine (s : State) (y : HostLine) : s.Keeps (s.loseLine y) := by
  unfold State.loseLine
  refine ((s.keeps_setMem _).trans (keeps_notifyRange ..)).trans (.foldl (fun s w => ?_) _ _)
  exact (Keeps.ite (s.keeps_recordFailed ..) (.refl s)).trans (keeps_modLaunch ..)

theorem keeps_rewriteFails (s : State) (q : DriverQ) (pa : Nat) : s.Keeps (s.rewriteFails q pa) := by
  unfold State.rewriteFails
  exact (keeps_setDrv s _).trans (keeps_logHealth ..)

theorem keeps_flushRewrites : ∀ (f : Nat) (s : State), s.Keeps (s.flushRewrites f)
  | 0, s => .refl s
  | f + 1, s => by
    rw [State.flushRewrites.eq_def]
    dsimp only [EStateM.run]
    refine .ite (.refl s) ?_
    cases s.drv.rewrite with
    | nil => exact .refl s
    | cons e rest =>
      obtain ⟨q, pa, bs⟩ := e
      have h := (keeps_devCheck true 6 pa bs.length).left s
      dsimp only
      cases e : devCheck true 6 pa bs.length s with
      | ok _ t =>
        rw [e] at h
        exact (Keeps.trans h ((keeps_devPut ..).trans (keeps_setDrv ..))).trans (keeps_flushRewrites f _)
      | error x t =>
        rw [e] at h
        cases x with
        | stall => exact h
        | trap x => exact (Keeps.trans h (keeps_rewriteFails ..)).trans (keeps_flushRewrites f _)

theorem keeps_losePort (s : State) (p : Nat) (was : State) : s.Keeps (s.losePort p was) := by
  unfold State.losePort
  extract_lets lost words clean emptied told
  have empty : s.Keeps emptied := Keeps.trans (t := s.modPort p fun x => { x with lines := [] }) .modPort (.foldl keeps_loseLine _ _)
  have tell : emptied.Keeps told := .foldl (fun s _ => s.keeps_notifyRange ..) _ _
  exact empty.trans (tell.trans ((keeps_setDrv told _).trans (keeps_flushRewrites ..)))

end State
end Sys2Proof.Machine
end

section
/-! SUPPORT. The fence of each kind of unit (R496): what it contains, and that it leaves the list of fenced units. -/
namespace Sys2Proof.Machine

/-! ### The fence of each kind of unit -/

/-- An action that leaves the health controller's list of fenced units and its interrupts, and in which no time passes: what
it contains besides is its own affair. -/
structure State.SameList (s t : State) : Prop where
  clock : t.clock = s.clock
  fenced : t.health.fenced = s.health.fenced
  msix : t.health.msix = s.health.msix

theorem State.Keeps.sameList {s t : State} (h : s.Keeps t) : s.SameList t := ⟨h.clock, h.fenced, h.msix⟩

theorem State.SameList.trans {s t u : State} (h : s.SameList t) (k : t.SameList u) : s.SameList u :=
  ⟨k.clock.trans h.clock, k.fenced.trans h.fenced, k.msix.trans h.msix⟩

theorem State.SameList.refl (s : State) : s.SameList s := ⟨rfl, rfl, rfl⟩

theorem State.SameList.modCluster (s : State) (k : Nat) (f : Cluster → Cluster) : s.SameList (s.modCluster k f) := ⟨rfl, rfl, rfl⟩

theorem State.SameList.foldl {α : Type} {f : State → α → State} (h : ∀ (s : State) a, s.SameList (f s a)) (l : List α) (s : State) :
    s.SameList (l.foldl f s) := by
  induction l generalizing s with
  | nil => exact .refl s
  | cons a l ih => exact (h s a).trans (ih (f s a))

/-- A core that serves no more (R496): fenced, its Sett table empty, every lane group disabled. -/
structure Core.Contained (x : Core) : Prop where
  fenced : x.fenced = true
  sett : x.sett = []
  lanes : ∀ g : Fin 16, x.lanes[g].enabled = false

theorem Core.Contained.keeps {x y : Core} (h : x.Contained) (k : x.Keeps y) : y.Contained :=
  ⟨k.fenced.trans h.fenced, k.sett h.sett, fun g => (k.lanes g).trans (h.lanes g)⟩

/-- What the fence of a core does to the core itself (R496). -/
def Core.contain (x : Core) : Core :=
  { x with fenced := true, sett := [], dens := [], postings := []
           lanes := x.lanes.map fun e => { e with enabled := false, borrower := none, strip := false } }

theorem Core.contain_contained (x : Core) : x.contain.Contained := ⟨rfl, rfl, fun g => by simp [Core.contain]⟩

namespace State

/-- The fence of a core contains it; all that goes before and after contains nothing else. -/
theorem fenceCore_steps (s : State) (c : Nat) : ∃ t, s.Keeps t ∧ (t.modCore c Core.contain).Keeps (s.fenceCore c) := by
  unfold State.fenceCore
  extract_lets posted contained k unread unsent
  have post : s.Keeps posted := by
    refine .foldl (fun s p => ?_) _ s
    cases p.sender with
    | none => exact .refl s
    | some m => exact s.keeps_endPosting ..
  have read : contained.Keeps unread := .modCluster
  have send : unread.Keeps unsent := .foldl (fun s m => s.keeps_endSend ..) _ _
  refine ⟨posted, post, read.trans (send.trans (.foldl (fun s n => ?_) _ _))⟩
  extract_lets sl unwatched x counted
  have unwatch : s.Keeps unwatched := s.keeps_dropWatches _
  have count : unwatched.Keeps counted := .ite (.refl _) (keeps_modLaunch ..)
  exact unwatch.trans (count.trans (.ite (keeps_modSlot ..) (keeps_modSlot ..)))

theorem fenceCore_sameList (s : State) (c : Nat) : s.SameList (s.fenceCore c) := by
  obtain ⟨t, before, after⟩ := s.fenceCore_steps c
  have contain : t.SameList (t.modCore c Core.contain) := ⟨rfl, rfl, rfl⟩
  exact before.sameList.trans (contain.trans after.sameList)

theorem fenceCore_contained (s : State) (c : Nat) : ((s.fenceCore c).core c).Contained := by
  obtain ⟨t, before, after⟩ := s.fenceCore_steps c
  have contain : ((t.modCore c Core.contain).core c).Contained := by
    rw [State.modCore_core_self]; exact Core.contain_contained _
  exact contain.keeps (after.core c)

/-- The fence of a Porter fences it; its commands then pass on. -/
theorem fencePorter_steps (s : State) (k : Nat) :
    (s.modCluster k fun c => { c with porter := { c.porter with fenced := true } }).Keeps (s.fencePorter k) :=
  .foldl (fun s c => s.keeps_passCmd k c) _ _

theorem fencePorter_sameList (s : State) (k : Nat) : s.SameList (s.fencePorter k) :=
  (SameList.modCluster ..).trans (s.fencePorter_steps k).sameList

theorem fencePorter_fenced (s : State) (k : Nat) : ((s.fencePorter k).cluster k).porter.fenced = true :=
  ((s.fencePorter_steps k).cluster k).porterFenced.trans (by rw [State.modCluster_cluster_self])

theorem fencePorter_halted (s : State) (k : Nat) :
    ((s.fencePorter k).cluster k).porter.halted = (s.cluster k).porter.halted :=
  ((s.fencePorter_steps k).cluster k).porterHalted.trans (by rw [State.modCluster_cluster_self])

theorem fenceSteward_sameList (s : State) (k : Nat) : s.SameList (s.fenceSteward k) := by
  unfold State.fenceSteward
  extract_lets cores contained porter drained freed
  have contain : s.SameList contained := by
    refine .foldl (fun s c => ?_) _ s
    split
    · exact .refl s
    · exact s.fenceCore_sameList c
  have fence : contained.SameList porter := by
    simp only [porter]
    split
    · exact .refl _
    · exact fencePorter_sameList ..
  have drain : porter.SameList drained := (keeps_drainEvents ..).sameList
  have free : drained.SameList freed := (Keeps.foldl (fun s _ => s.keeps_interrupt ..) _ _).sameList
  have back : freed.SameList (freed.returnPending k fun _ => false) := (keeps_returnPending ..).sameList
  exact contain.trans (fence.trans (drain.trans (free.trans (back.trans (.modCluster ..)))))

theorem fenceSteward_fenced (s : State) (k : Nat) : ((s.fenceSteward k).cluster k).fenced = true := by
  unfold State.fenceSteward
  rw [State.modCluster_cluster_self]

/-- The fence of a slice empties it, when its dirty lines are written back; then those that waited go on. -/
theorem fenceSlice_steps (s : State) (i : Nat) :
    ((s.flushSlice i).modSlice i fun x => { x with fenced := true, resident := [] }).Keeps (s.fenceSlice i) := by
  unfold State.fenceSlice
  extract_lets emptied drained
  have drain : emptied.Keeps drained := .foldl (fun s (e : Nat × List Request) => keeps_drainLine i e.1 _ s) _ _
  exact drain.trans (keeps_takeInMore ..)

theorem fenceSlice_sameList (s : State) (i : Nat) : s.SameList (s.fenceSlice i) := by
  have empty : (s.flushSlice i).SameList ((s.flushSlice i).modSlice i fun x => { x with fenced := true, resident := [] }) :=
    ⟨rfl, rfl, rfl⟩
  exact (s.keeps_flushSlice i).sameList.trans (empty.trans (s.fenceSlice_steps i).sameList)

theorem fenceSlice_empty (s : State) (i : Nat) :
    ((s.fenceSlice i).slice i).fenced = true ∧ ((s.fenceSlice i).slice i).resident = [] := by
  have kept := (s.fenceSlice_steps i).slice i
  rw [State.modSlice_slice_self] at kept
  exact ⟨kept.fenced, kept.resident rfl rfl⟩

/-- The fence of a unit leaves the list of those fenced before it. -/
theorem fenceAction_sameList (s : State) (u : UnitCode) : s.SameList (s.fenceAction u) := by
  unfold State.fenceAction
  dsimp only
  split
  · exact (s.fenceCore_sameList _).trans (keeps_codeFence ..).sameList
  · exact s.fenceSteward_sameList _
  · exact s.fencePorter_sameList _
  · exact s.fenceSlice_sameList _
  · exact ⟨rfl, rfl, rfl⟩
  · have fence (n : Nat) : s.SameList (s.modPort n fun x => { x with fenced := true }) := ⟨rfl, rfl, rfl⟩
    exact (fence _).trans (keeps_losePort ..).sameList
  · exact .refl s

theorem fenceAction_core (s : State) {u : UnitCode} (h : codeKind u = 1) :
    ((s.fenceAction u).core (codeNumber u)).Contained := by
  unfold State.fenceAction
  simp only [h]
  exact (s.fenceCore_contained _).keeps ((keeps_codeFence ..).core _)

theorem fenceAction_steward (s : State) {u : UnitCode} (h : codeKind u = 2) :
    ((s.fenceAction u).cluster (codeNumber u)).fenced = true := by
  unfold State.fenceAction
  simp only [h]
  exact s.fenceSteward_fenced _

theorem fenceAction_porter (s : State) {u : UnitCode} (h : codeKind u = 3) : s.fenceAction u = s.fencePorter (codeNumber u) := by
  unfold State.fenceAction
  simp only [h]

theorem fenceAction_slice (s : State) {u : UnitCode} (h : codeKind u = 4) :
    ((s.fenceAction u).slice (codeNumber u)).fenced = true ∧ ((s.fenceAction u).slice (codeNumber u)).resident = [] := by
  unfold State.fenceAction
  simp only [h]
  exact s.fenceSlice_empty _

theorem fenceAction_port (s : State) {u : UnitCode} (h : codeKind u = 7) :
    ((s.fenceAction u).port (codeNumber u)).fenced = true := by
  unfold State.fenceAction
  simp only [h]
  exact ((keeps_losePort ..).port _).trans (by rw [State.modPort_port_self])

end State
end Sys2Proof.Machine
end

section
/-! SUPPORT. A warm reset lifts no fence (R501, R503), and what the fence of a unit is as a whole (R496, R498). -/
namespace Sys2Proof.Machine

/-! ### A warm reset -/

theorem mapTbl_get {α : Type} (d : α) (f : α → α) (hd : f d = d) (t : Tbl α) (i : Nat) :
    Tbl.get d (mapTbl f t) i = f (Tbl.get d t i) := Tbl.get_map d f hd t i

theorem Core.reset_default : Core.reset {} = {} := by decide

/-- What a warm reset that begins in `t` leaves (R501, R503): no block, translation, instruction line or walk, the Ferry at rest;
what the health controller holds, its fences with it, stays. -/
structure State.Restarted (t w : State) : Prop where
  slots : w.slots = []
  cores : w.cores = mapTbl Core.reset t.cores
  walks : w.walks = []
  walkQueue : w.walkQueue = []
  walkCaches : w.walkCaches = []
  ferry : w.ferry = t.ferry.atRest
  health : w.health = { t.health with busy := true }
  resetAt : w.resetAt = t.clock

namespace State

/-- A warm reset, while none is under way: what it writes back and accounts before it begins lifts no fence. -/
theorem warmReset_restarted {s : State} (h : s.health.busy = false) : ∃ t, s.Keeps t ∧ t.Restarted s.warmReset := by
  unfold State.warmReset
  rw [if_neg (by simp [h])]
  extract_lets +onlyGivenNames flushed freed
  have flush : s.Keeps flushed := .foldl (fun s i => s.keeps_flushSlice i) _ s
  have free : s.Keeps freed := flush.trans (.foldl (fun s k => s.keeps_resetBlocks k) _ _)
  obtain ⟨t, ht⟩ : ∃ t, t = freed := ⟨_, rfl⟩
  rw [← ht] at free ⊢
  exact ⟨t, free, rfl, rfl, rfl, rfl, rfl, rfl, rfl, rfl⟩

theorem warmReset_busy {s : State} (h : s.health.busy = true) : s.warmReset = s := by
  unfold State.warmReset
  rw [if_pos h]

/-- A warm reset neither fences a unit nor lifts a fence (R501), and it keeps the interrupts that are raised. -/
theorem warmReset_list (s : State) : s.warmReset.health.fenced = s.health.fenced ∧ s.warmReset.health.msix = s.health.msix := by
  cases h : s.health.busy with
  | true => rw [warmReset_busy h]; exact ⟨rfl, rfl⟩
  | false =>
    obtain ⟨t, keeps, restarted⟩ := warmReset_restarted h
    rw [restarted.health]
    exact ⟨keeps.fenced, keeps.msix⟩

/-! ### The fence of a unit -/

/-- The unit joins the fenced ones. -/
def listFenced (s : State) (u : UnitCode) : State := { s with health := { s.health with fenced := u :: s.health.fenced } }

/-- MSI-X vector 0 is raised. -/
def raiseVector (s : State) : State := { s with health := { s.health with msix := s.health.msix ++ [0] } }

/-- The fence of a unit (R496), while no reset is under way: the unit joins the list, its action, events and the log entry
that lift no fence, MSI-X vector 0; then the device resets if too few crossings are left (R498). -/
theorem fenceUnit_steps {s : State} {u : UnitCode} (ok : codeOk u = true) (fresh : s.isFenced u = false)
    (idle : s.health.busy = false) (why : BitVec 8) (n : BitVec 16) :
    ∃ t, (((s.listFenced u).endPaths u).fenceAction u).Keeps t ∧ s.fenceUnit u why n =
      if codeKind u = 6 ∧ t.raiseVector.ferry.n < 2 then t.raiseVector.warmReset else t.raiseVector := by
  unfold State.fenceUnit
  rw [if_neg (by simp [ok, fresh]), if_neg (by simp [idle])]
  exact ⟨_, (Keeps.foldl (fun s k => s.keeps_postEvent ..) _ _).trans (keeps_logHealth ..), rfl⟩

/-- A unit that is fenced stands in the list, and MSI-X vector 0 is raised. -/
theorem fenceUnit_listed {s : State} {u : UnitCode} (ok : codeOk u = true) (fresh : s.isFenced u = false)
    (idle : s.health.busy = false) (why : BitVec 8) (n : BitVec 16) :
    u ∈ (s.fenceUnit u why n).health.fenced ∧ 0 ∈ (s.fenceUnit u why n).health.msix := by
  obtain ⟨t, keeps, result⟩ := fenceUnit_steps ok fresh idle why n
  have list : (s.listFenced u).SameList t :=
    ((keeps_endPaths ..).sameList.trans (fenceAction_sameList ..)).trans keeps.sameList
  have listed : u ∈ t.raiseVector.health.fenced := by
    show u ∈ t.health.fenced
    rw [list.fenced]; exact List.mem_cons_self
  have raised : 0 ∈ t.raiseVector.health.msix := List.mem_append_right _ (List.mem_singleton.mpr rfl)
  rw [result]
  split
  · rw [(warmReset_list _).1, (warmReset_list _).2]; exact ⟨listed, raised⟩
  · exact ⟨listed, raised⟩

/-- The fence of a unit that is no crossing: what its action contains stays contained. -/
theorem fenceUnit_keeps {s : State} {u : UnitCode} (ok : codeOk u = true) (fresh : s.isFenced u = false)
    (idle : s.health.busy = false) (why : BitVec 8) (n : BitVec 16) (kind : codeKind u ≠ 6) :
    ∃ t, (((s.listFenced u).endPaths u).fenceAction u).Keeps t ∧ s.fenceUnit u why n = t.raiseVector := by
  obtain ⟨t, keeps, result⟩ := fenceUnit_steps ok fresh idle why n
  exact ⟨t, keeps, result.trans (if_neg fun h => kind h.1)⟩

end State
end Sys2Proof.Machine
end

section
/-! SUPPORT. UNIT_FENCE, the failures that lead to a fence, and correctable errors (R270, R493, R496). -/
namespace Sys2Proof.Machine

/-! ### Units by their codes -/

theorem porterCode_unit : ∀ k : ClusterId, codeOk (porterCode k.toNat) = true ∧ codeKind (porterCode k.toNat) = 3 ∧
    codeNumber (porterCode k.toNat) = k.toNat := by decide

theorem stewardCode_unit : ∀ k : ClusterId, codeOk (stewardCode k.toNat) = true ∧ codeKind (stewardCode k.toNat) = 2 ∧
    codeNumber (stewardCode k.toNat) = k.toNat := by decide

namespace State

theorem isFenced_porter (s : State) (k : ClusterId) : s.isFenced (porterCode k.toNat) =
    (s.health.fenced.contains (porterCode k.toNat) || (s.cluster k.toNat).porter.fenced) := by
  obtain ⟨-, kind, number⟩ := porterCode_unit k
  unfold State.isFenced
  simp only [kind, number]

theorem isFenced_steward (s : State) (k : ClusterId) : s.isFenced (stewardCode k.toNat) =
    (s.health.fenced.contains (stewardCode k.toNat) || (s.cluster k.toNat).fenced) := by
  obtain ⟨-, kind, number⟩ := stewardCode_unit k
  unfold State.isFenced
  simp only [kind, number]

/-! ### UNIT_FENCE, and the failures that lead to it -/

theorem fenceUnit_fenced {s : State} {u : UnitCode} (h : s.isFenced u = true) (why : BitVec 8) (n : BitVec 16) :
    s.fenceUnit u why n = s := by
  unfold State.fenceUnit
  rw [if_pos (by simp [h])]

/-- During a warm reset a fence waits (R498). -/
theorem fenceUnit_deferred {s : State} {u : UnitCode} (ok : codeOk u = true) (fresh : s.isFenced u = false)
    (busy : s.health.busy = true) (why : BitVec 8) (n : BitVec 16) :
    s.fenceUnit u why n = { s with health := { s.health with deferred := s.health.deferred ++ [(u, why, n)] } } := by
  unfold State.fenceUnit
  rw [if_neg (by simp [ok, fresh]), if_pos busy]

/-- The fence of a unit contains it, by its kind (R496). -/
theorem fenceUnit_contains {s : State} {u : UnitCode} (ok : codeOk u = true) (fresh : s.isFenced u = false)
    (idle : s.health.busy = false) (why : BitVec 8) (n : BitVec 16) :
    (codeKind u = 1 → ((s.fenceUnit u why n).core (codeNumber u)).Contained) ∧
    (codeKind u = 2 → ((s.fenceUnit u why n).cluster (codeNumber u)).fenced = true) ∧
    (codeKind u = 3 → ((s.fenceUnit u why n).cluster (codeNumber u)).porter.fenced = true) ∧
    (codeKind u = 4 → ((s.fenceUnit u why n).slice (codeNumber u)).fenced = true ∧
      ((s.fenceUnit u why n).slice (codeNumber u)).resident = []) ∧
    (codeKind u = 7 → ((s.fenceUnit u why n).port (codeNumber u)).fenced = true) := by
  have result (kind : codeKind u ≠ 6) := fenceUnit_keeps ok fresh idle why n kind
  refine ⟨fun k => ?_, fun k => ?_, fun k => ?_, fun k => ?_, fun k => ?_⟩ <;>
    obtain ⟨t, keeps, e⟩ := result (by rw [k]; decide) <;> rw [e]
  · exact (fenceAction_core _ k).keeps (keeps.core _)
  · exact (keeps.cluster _).fenced.trans (fenceAction_steward _ k)
  · rw [fenceAction_porter _ k] at keeps
    exact (keeps.cluster _).porterFenced.trans (fencePorter_fenced ..)
  · obtain ⟨fenced, empty⟩ := fenceAction_slice ((s.listFenced u).endPaths u) k
    exact ⟨(keeps.slice _).fenced.trans fenced, (keeps.slice _).resident fenced empty⟩
  · exact (keeps.port _).trans (fenceAction_port _ k)

/-- A firmware core that has failed stands halted, and its Porter is fenced (R270). -/
theorem haltPorter_fenced {s : State} {k : ClusterId} (idle : s.health.busy = false)
    (fresh : porterCode k.toNat ∉ s.health.fenced) (runs : (s.cluster k.toNat).porter.runs = true) :
    ((s.haltPorter k.toNat).cluster k.toNat).porter.halted = true ∧
    ((s.haltPorter k.toNat).cluster k.toNat).porter.fenced = true ∧ (s.haltPorter k.toNat).clock = s.clock := by
  obtain ⟨ok, kind, number⟩ := porterCode_unit k
  let halt (c : Cluster) : Cluster := { c with porter := { c.porter with halted := true } }
  have hopen : (s.cluster k.toNat).porter.fenced = false := by
    unfold Porter.runs at runs
    simpa using (Bool.and_eq_true_iff.mp runs).2
  have unfenced : (s.modCluster k.toNat halt).isFenced (porterCode k.toNat) = false := by
    rw [isFenced_porter, State.modCluster_cluster_self]
    simp [fresh, halt, hopen]
  obtain ⟨t, keeps, e⟩ := fenceUnit_keeps ok unfenced idle 4 0 (by rw [kind]; decide)
  rw [fenceAction_porter _ kind, number] at keeps
  have list := (keeps_endPaths ((s.modCluster k.toNat halt).listFenced (porterCode k.toNat)) (porterCode k.toNat))
  unfold State.haltPorter
  rw [e]
  refine ⟨?_, ?_, ?_⟩
  · refine (keeps.cluster _).porterHalted.trans ((fencePorter_halted ..).trans ((list.cluster _).porterHalted.trans ?_))
    show ((s.modCluster k.toNat halt).cluster k.toNat).porter.halted = true
    rw [State.modCluster_cluster_self]
  · exact (keeps.cluster _).porterFenced.trans (fencePorter_fenced ..)
  · exact keeps.clock.trans ((fencePorter_sameList ..).clock.trans list.clock)

/-- A Steward that stopped, or takes no record for 10 ms, is fenced with its cluster (R493, R496). -/
theorem stewardDead_fenced {s : State} {k : ClusterId} (idle : s.health.busy = false)
    (fresh : stewardCode k.toNat ∉ s.health.fenced) (hopen : (s.cluster k.toNat).fenced = false)
    (dead : (s.cluster k.toNat).steward.stopped = true ∨ (s.cluster k.toNat).count ≠ 0) :
    ((s.stewardDead k.toNat).cluster k.toNat).fenced = true ∧ stewardCode k.toNat ∈ (s.stewardDead k.toNat).health.fenced := by
  obtain ⟨ok, kind, number⟩ := stewardCode_unit k
  have fence (n : Nat) : let t := { s with clock := n }.fenceUnit (stewardCode k.toNat) 2 0
      (t.cluster k.toNat).fenced = true ∧ stewardCode k.toNat ∈ t.health.fenced := by
    have unfenced : ({ s with clock := n } : State).isFenced (stewardCode k.toNat) = false := by
      rw [isFenced_steward]
      show (s.health.fenced.contains (stewardCode k.toNat) || (s.cluster k.toNat).fenced) = false
      simp [fresh, hopen]
    obtain ⟨-, steward, -⟩ := fenceUnit_contains ok unfenced idle 2 0
    rw [number] at steward
    exact ⟨steward kind, (fenceUnit_listed ok unfenced idle 2 0).1⟩
  unfold State.stewardDead
  simp only [hopen, Bool.false_eq_true, if_false]
  split
  · exact fence s.clock
  · next running =>
    rw [if_neg (dead.resolve_left running)]
    exact fence _

/-! ### Correctable errors -/

/-- A correctable error changes nothing but its unit's count, until as many within an hour fence the unit (R493). -/
theorem corrected_result {s : State} {u : UnitCode} (ok : codeOk u = true) (fresh : s.isFenced u = false)
    (idle : s.health.busy = false) :
    ((s.countEvent u (60 * minClocks)).1 < errorLimit u → s.corrected u = (s.countEvent u (60 * minClocks)).2) ∧
    (errorLimit u ≤ (s.countEvent u (60 * minClocks)).1 → u ∈ (s.corrected u).health.fenced) := by
  have counted : (s.countEvent u (60 * minClocks)).2.isFenced u = false := fresh
  have still : (s.countEvent u (60 * minClocks)).2.health.busy = false := idle
  unfold State.corrected
  rw [if_neg (by simp [fresh])]
  dsimp only
  refine ⟨fun few => if_neg (Nat.not_le.mpr few), fun many => ?_⟩
  rw [if_pos many]
  exact (fenceUnit_listed ok counted still _ _).1

end State
end Sys2Proof.Machine
end

section
/-! PROOFS. Memory, cores and bundles after a cold reset (R2, R503, R504); the fencing of units and the resets (O60). -/
namespace Sys2Proof.Machine

/-! ### Memory after a cold reset -/

/-- An address that no entry of a memory's first part lists reads as its second part says. -/
theorem Memory.get_append (m n : Memory) (a : Nat) (h : ∀ c ∈ m, c.1 ≠ a) : Memory.get (m ++ n) a = Memory.get n a := by
  induction m with
  | nil => rfl
  | cons c m ih =>
    obtain ⟨k, b⟩ := c
    rw [List.cons_append, Memory.get, if_neg (h _ List.mem_cons_self), ih fun c hc => h c (List.mem_cons_of_mem _ hc)]

/-- A memory cut to the addresses that meet a test reads as before there, and 0 elsewhere. -/
theorem Memory.get_filter (p : Nat → Bool) (m : Memory) (a : Nat) :
    Memory.get (m.filter fun c => p c.1) a = if p a then Memory.get m a else 0 := by
  induction m with
  | nil => simp [Memory.get]
  | cons c m ih =>
    obtain ⟨k, b⟩ := c
    by_cases hk : k = a
    · subst hk
      by_cases hp : p k = true <;> simp [hp, Memory.get, ih]
    · by_cases hp : p k = true <;> simp [hp, Memory.get, ih, hk]

/-- A byte that is written below a bound leaves no entry at or above it. -/
theorem Memory.put_below {m : Memory} {n a : Nat} {b : Byte} (ha : a < n) (h : ∀ c ∈ m, c.1 < n) : ∀ c ∈ m.put a b, c.1 < n := by
  intro c hc
  unfold Memory.put at hc
  split at hc
  · exact h c (List.mem_filter.mp hc).1
  · rcases Tbl.mem_set m a b c hc with rfl | hm
    · exact ha
    · exact h c hm

/-- Above HBM a cold reset leaves the host's own memory and nothing else (R503). -/
theorem coldMemory_get (n : Nat) (m : Memory) (a : Nat) (ha : Config.hbmEnd ≤ a) :
    Memory.get (coldMemory n m) a = if Config.cxlBase ≤ a ∧ a < Config.cxlEnd then Memory.get m a else 0 := by
  have hbm (l : List (Nat × BitVec 8)) : ∀ t : Memory, (∀ c ∈ t, c.1 < Config.hbmEnd) →
      ∀ c ∈ l.foldl (fun m c => if c.1 < Config.hbmEnd then Memory.put m c.1 c.2 else m) t, c.1 < Config.hbmEnd := by
    induction l with
    | nil => exact fun t h => h
    | cons e l ih =>
      intro t h
      refine ih _ ?_
      dsimp only
      split
      · exact Memory.put_below ‹_› h
      · exact h
  unfold coldMemory
  rw [Memory.get_append _ _ _ fun c hc => Nat.ne_of_lt (Nat.lt_of_lt_of_le (hbm _ [] (by simp) c hc) ha),
    Memory.get_filter (fun x => decide (Config.cxlBase ≤ x) && decide (x < Config.cxlEnd))]
  simp

/-! ### Cores that are fused off -/

theorem Core.reset_fused : ((Core.reset { fused := true }).fused = true) ∧
    ∀ g : Fin 16, (Core.reset { fused := true }).lanes[g].enabled = false := ⟨rfl, by decide⟩

/-- The core table after a cold reset: each core that is fused off, and no other (R2, R290). -/
theorem get_fusedCores (off : List Nat) (c : Nat) :
    Tbl.get {} (off.map fun c => (c, Core.reset { fused := true })) c = if c ∈ off then Core.reset { fused := true } else {} := by
  induction off with
  | nil => rfl
  | cons d off ih =>
    simp only [List.map_cons, Tbl.get, List.mem_cons]
    by_cases h : d = c
    · simp [h]
    · rw [if_neg h, ih]
      simp [Ne.symm h]

/-- A core is fused off where its entry of the table says so. -/
theorem mem_fused_iff (t : Tbl Core) (h : (t.map (·.1)).Nodup) (c : Nat) :
    c ∈ (t.filter fun e => e.2.fused).map (·.1) ↔ (Tbl.get {} t c).fused = true := by
  induction t with
  | nil => simp [Tbl.get]
  | cons e t ih =>
    obtain ⟨k, x⟩ := e
    rw [List.map_cons, List.nodup_cons] at h
    obtain ⟨hk, ht⟩ := h
    by_cases hc : k = c
    · subst hc
      have out : k ∉ (t.filter fun e => e.2.fused).map (·.1) := fun hm => by
        obtain ⟨e, he, same⟩ := List.mem_map.mp hm
        exact hk (List.mem_map.mpr ⟨e, (List.mem_filter.mp he).1, same⟩)
      by_cases hx : x.fused = true
      · simp [hx, Tbl.get]
      · simp only [List.filter_cons, hx, Tbl.get, if_true]
        simpa using out
    · rw [Tbl.get, if_neg hc, ← ih ht]
      by_cases hx : x.fused = true <;> simp [hx, Ne.symm hc]

namespace State

theorem resetWith_fused (grade : Bool) {off : List Nat} {c : Nat} (h : c ∈ off) :
    ((State.resetWith grade off).core c).fused = true ∧ ∀ g : Fin 16, ((State.resetWith grade off).core c).lanes[g].enabled = false := by
  have core : (State.resetWith grade off).core c = Core.reset { fused := true } := (get_fusedCores off c).trans (if_pos h)
  rw [core]
  exact Core.reset_fused

/-- The fuses outlast a cold reset (R2, R503). -/
theorem coldReset_fused (s : State) (b : Bundle) (h : (s.cores.map (·.1)).Nodup) (c : Nat) :
    ((s.coldReset b).core c).fused = (s.core c).fused := by
  have core : (s.coldReset b).core c =
      if c ∈ (s.cores.filter fun e => e.2.fused).map (·.1) then Core.reset { fused := true } else {} := get_fusedCores _ c
  have listed := mem_fused_iff s.cores h c
  rw [core, Bool.eq_iff_iff, State.core, ← listed]
  split
  · next off => simp only [off, Core.reset_fused.1]
  · next on => simp [on]

end State

/-! ### The boot ROM -/

/-- Why a bundle is refused (R504), case by case. -/
theorem bundleFail_cases (f : Fuses) (b : Bundle) :
    (b.ed25519 = f.ed25519 → b.mldsa = f.mldsa → f.minimum.toNat ≤ b.version.toNat → bundleFail f b = 0) ∧
    (b.ed25519 ≠ f.ed25519 → b.mldsa = f.mldsa → bundleFail f b = 1) ∧
    (b.ed25519 = f.ed25519 → b.mldsa ≠ f.mldsa → bundleFail f b = 2) ∧
    (b.ed25519 ≠ f.ed25519 → b.mldsa ≠ f.mldsa → bundleFail f b = 3) ∧
    (b.ed25519 = f.ed25519 → b.mldsa = f.mldsa → b.version.toNat < f.minimum.toNat → bundleFail f b = 4) := by
  unfold bundleFail
  refine ⟨fun e m v => ?_, fun e m => ?_, fun e m => ?_, fun e m => ?_, fun e m v => ?_⟩
  · simp [e, m, BitVec.lt_def, Nat.not_lt.mpr v]
  · simp [e, m]
  · simp [e, m]
  · simp [e, m]
  · simp [e, m, BitVec.lt_def, v]

/-- A bundle is accepted where both keys are the fuses' and its version is not too low (R504). -/
theorem bundleFail_eq_zero_iff (f : Fuses) (b : Bundle) :
    bundleFail f b = 0 ↔ b.ed25519 = f.ed25519 ∧ b.mldsa = f.mldsa ∧ f.minimum.toNat ≤ b.version.toNat := by
  obtain ⟨accepted, key1, key2, keys, version⟩ := bundleFail_cases f b
  refine ⟨fun h => ?_, fun ⟨e, m, v⟩ => accepted e m v⟩
  by_cases e : b.ed25519 = f.ed25519 <;> by_cases m : b.mldsa = f.mldsa
  · refine ⟨e, m, Nat.not_lt.mp fun v => ?_⟩
    rw [version e m v] at h; exact absurd h (by decide)
  · rw [key2 e m] at h; exact absurd h (by decide)
  · rw [key1 e m] at h; exact absurd h (by decide)
  · rw [keys e m] at h; exact absurd h (by decide)

/-! ### The obligation -/

theorem fencingResults : FencingResults := by
  intro s u why k on cause1 cause5
  have fence : exec (.unitFence u why) s = .next (s.fenceUnit u why 0) := by
    refine (runStep_on _ on).trans ?_
    rw [if_pos ⟨cause1, cause5⟩]
  refine ⟨fun ok fresh => ⟨fun idle => ?_, fun busy => ?_⟩, fun fenced => ?_, fun idle fresh => ⟨fun runs => ?_, fun stuck => ?_⟩,
    fun idle fresh hopen dead => ?_, fun ok fresh idle => ?_⟩
  · obtain ⟨listed, raised⟩ := State.fenceUnit_listed ok fresh idle why 0
    obtain ⟨core, steward, porter, slice, port⟩ := State.fenceUnit_contains ok fresh idle why 0
    exact ⟨_, fence, listed, raised, fun h => ⟨(core h).fenced, (core h).sett, (core h).lanes⟩, steward, porter, slice, port⟩
  · rw [fence, State.fenceUnit_deferred ok fresh busy]
  · rw [fence, State.fenceUnit_fenced fenced]
  · obtain ⟨halted, fenced, -⟩ := State.haltPorter_fenced idle fresh runs
    exact ⟨_, (runStep_on _ on).trans (congrArg _ (if_pos runs)), halted, fenced⟩
  · have runs : (s.cluster k.toNat).porter.runs = true := (Bool.and_eq_true_iff.mp (Bool.and_eq_true_iff.mp stuck).1).1
    obtain ⟨halted, fenced, clock⟩ := State.haltPorter_fenced
      (s := { s with clock := Nat.max s.clock ((s.cluster k.toNat).porter.idleSince + Config.msClocks) }) idle fresh runs
    exact ⟨_, (runStep_on _ on).trans (congrArg _ (if_pos stuck)), halted, fenced, clock ▸ Nat.le_max_right ..⟩
  · exact ⟨_, runStep_on (fun s => s.stewardDead k.toNat) on, State.stewardDead_fenced idle fresh hopen dead⟩
  · obtain ⟨few, many⟩ := State.corrected_result ok fresh idle
    exact ⟨fun h => by rw [few h]; exact ⟨rfl, rfl, rfl⟩, many⟩

/-- Whatever starts it, a warm reset is one (R498, R503). -/
theorem exec_warmReset {s : State} (on : s.power = .on) :
    ∀ i ∈ [Instr.hresetWarm, .functionLevelReset, .dispatcherOrHealthFault], exec i s = .next s.warmReset := by
  simp only [List.forall_mem_cons]
  exact ⟨runStep_on _ on, runStep_on _ on, runStep_on _ on, fun _ h => nomatch h⟩

/-- What a core holds after a warm reset: nothing but what is fused or fenced. -/
theorem State.Restarted.core {t w : State} (h : t.Restarted w) (c : Nat) : w.core c = (t.core c).reset := by
  rw [State.core, h.cores]
  exact mapTbl_get {} Core.reset Core.reset_default t.cores c

/-- No tail word is read again where no queue is live (R133, R501). -/
theorem State.readTails_quiet {s : State} (dead : ∀ q, (s.queue q).live = false) (qs : List QId) :
    qs.foldl (fun s q => let s := s.tailNotice q; if (s.queue q).live then s.queueWork q (skipConsumed q 65536) else s) s = s := by
  have notice (q : QId) : s.tailNotice q = s := if_neg (by simp [dead q])
  induction qs with
  | nil => rfl
  | cons q qs ih => simpa [notice q, dead q] using ih

/-- The end of a warm reset, with nothing deferred and no queue live: nothing is fenced, and no tail word is read (R501). -/
theorem State.warmResetDone_quiet {s : State} (busy : s.health.busy = true) (deferred : s.health.deferred = [])
    (dead : ∀ q, (s.queue q).live = false) :
    s.warmResetDone = { s with health := { s.health with busy := false, deferred := [] } } := by
  unfold State.warmResetDone
  rw [if_neg (by simp [busy]), deferred]
  exact State.readTails_quiet (s := { s with health := { s.health with busy := false, deferred := [] } }) dead _

theorem resetResults : ResetResults := by
  intro s b c off grade
  refine ⟨State.resetWith_fused grade, fun on idle i hi => ?_, fun on busy => ⟨fun i hi => ?_, fun deferred dead => ?_⟩, ?_⟩
  · obtain ⟨t, keeps, left⟩ := State.warmReset_restarted idle
    refine ⟨_, exec_warmReset on i hi, left.slots, ?_, ?_, ?_, ?_, ?_, ?_, left.walks, left.walkQueue, left.walkCaches, ?_, ?_, ?_, ?_,
      left.resetAt.trans keeps.clock⟩
    · rw [left.core]; rfl
    · rw [left.core]; rfl
    · rw [left.core]; rfl
    · rw [left.core]; rfl
    · rw [left.core]; exact (keeps.core c).fused
    · rw [left.core]; exact (keeps.core c).fenced
    · rw [left.ferry]; rfl
    · rw [left.ferry]; rfl
    · rw [left.health]; exact keeps.fenced
    · rw [left.health]
  · rw [exec_warmReset on i hi, State.warmReset_busy busy]
  · exact (runStep_on _ on).trans (congrArg _ (State.warmResetDone_quiet busy deferred dead))
  · obtain ⟨-, key1, key2, keys, version⟩ := bundleFail_cases s.fuses b
    have accepted := bundleFail_eq_zero_iff s.fuses b
    refine ⟨_, rfl, rfl, rfl, rfl, rfl, rfl, rfl, rfl, fun _ a ha => coldMemory_get _ _ a ha, s.coldReset_fused b,
      fun ok => ⟨if_pos (accepted.mpr ok), accepted.mpr ok, if_pos (accepted.mpr ok)⟩,
      fun no => ⟨if_neg (mt accepted.mp no), mt accepted.mp no⟩, key1, key2, keys, version⟩

/-- Settles O60: a fence contains its unit and a reset lifts no fence, by one relation (`State.Keeps`) that every action beside
the fences themselves meets. -/
theorem fencingAndResetResults : Obligations.FencingAndResetResults := ⟨fencingResults, resetResults⟩

end Sys2Proof.Machine
end

end
